-- ==== Sys2Proof/Word.lean ====
section
/-! DEFINITION. The word types of the GM8 and the sparse map that the state keeps its tables and memories in. -/
namespace Sys2Proof

/-- One byte. -/
abbrev Byte := BitVec 8
/-- A 32-bit word: a management register, an FP32 code, a shape register. -/
abbrev Word32 := BitVec 32
/-- A 64-bit word: the word of the (72,64) code (R125), a timebase count, a serial number. -/
abbrev Word64 := BitVec 64

/-- A sparse table: keys strictly rising, no entry equal to the value an unlisted key reads as. -/
abbrev NMap (α : Type) := List (Nat × α)

/-- The value at a key; an unlisted key reads as `d`. -/
def NMap.get {α : Type} (d : α) : NMap α → Nat → α
  | [], _ => d
  | (k', v) :: m, k => if k = k' then v else NMap.get d m k

/-- Drop a key. -/
def NMap.erase {α : Type} : NMap α → Nat → NMap α
  | [], _ => []
  | (k', v) :: m, k => if k = k' then NMap.erase m k else (k', v) :: NMap.erase m k

/-- Put an entry at its place in key order. -/
def NMap.insert {α : Type} : NMap α → Nat → α → NMap α
  | [], k, v => [(k, v)]
  | (k', v') :: m, k, v => if k < k' then (k, v) :: (k', v') :: m else (k', v') :: NMap.insert m k v

/-- Write a value; writing the value an unlisted key reads as removes the entry. -/
def NMap.set {α : Type} [DecidableEq α] (d : α) (m : NMap α) (k : Nat) (v : α) : NMap α :=
  if v = d then NMap.erase m k else NMap.insert (NMap.erase m k) k v

/-- Make every key of `[lo, lo + n)` read as the unlisted value. -/
def NMap.clearRange {α : Type} : NMap α → Nat → Nat → NMap α
  | [], _, _ => []
  | (k, v) :: m, lo, n =>
    if lo ≤ k ∧ k < lo + n then NMap.clearRange m lo n else (k, v) :: NMap.clearRange m lo n

/-- Canonical form: keys strictly rising from `lo` on, and no entry equal to `d`. -/
def NMap.wfFrom {α : Type} [DecidableEq α] (d : α) : Nat → NMap α → Bool
  | _, [] => true
  | lo, (k, v) :: m => decide (lo ≤ k) && decide (v ≠ d) && NMap.wfFrom d (k + 1) m

/-- Canonical form of a sparse table. -/
def NMap.wf {α : Type} [DecidableEq α] (d : α) (m : NMap α) : Bool := NMap.wfFrom d 0 m

end Sys2Proof
end

