-- ==== Sys2Proof/Syntax.lean ====
section
/-! DEFINITION. The commands of the block: one constructor per row of the opcode table, with its operands. What comes from outside (a received frame, a pin width, a sensor reading, a peer's answer) is an operand. -/
namespace Sys2Proof

/-- The header fields of a Leat datagram that vary from request to request (R326), with the Ethernet port it came in by. -/
structure LeatHdr where
  port    : Fin 2
  magic   : BitVec 16
  version : Byte
  session : Word32
  seq     : Word64
  /-- the 64 tag bytes (R327) -/
  tag     : List Byte
deriving DecidableEq, Repr

/-- The header fields of a Tailrace frame (R345). -/
structure TrHdr where
  port    : Fin 2
  srcMac  : BitVec 48
  version : Byte
  tag     : BitVec 16
  length  : BitVec 16
  arg     : Word64
deriving DecidableEq, Repr

/-- A stream, by owner and kind (R203): kinds 0 Stone a, 1 Stone b, 2 Carder, 3 DMA, 4 scalar belong to a logical
Mill 0-143, kind 5 (Tenter) to a physical Floor 0-7. -/
structure Sid where
  owner : Nat
  kind  : Nat
deriving DecidableEq, Repr

/-- A Wheel frame (R239). -/
structure Frame where
  kind  : Byte
  id    : Word32
  dest  : BitVec 13
  src   : BitVec 13
  count : BitVec 16
  pos   : BitVec 16
  body  : List Byte
deriving DecidableEq, Repr

/-- What a holder presents at a turn (R84, R88, R89, R93, R201). -/
inductive Access where
  /-- a pass: explicit, padding or nothing pending -/
  | pass
  /-- the pass of a holder that a Race blocks (R93) -/
  | racePass
  | read  (addr : Nat) (bytes : Nat)
  | write (addr : Nat) (data : List Byte)
  | cas   (addr : Nat) (expected new : Word64)
  | countEq (addr : Nat) (width : Nat) (value : Word64)
deriving DecidableEq, Repr

/-- One presentation at a port entry: lane 0-3, narrow slot (4), scale lane a (5) or b (6). -/
structure Pres where
  lane   : Nat
  holder : BitVec 4
  acc    : Access
  /-- the Race the access belongs to, by the number of its definition in the slice or Hopper (R90, R115) -/
  race   : Option Nat
  /-- the last access of the held slot: it is then published or released (R92) -/
  last   : Bool
  /-- tensor group of the access; none is the control class (R130) -/
  group  : Option (BitVec 6)
deriving DecidableEq, Repr

/-- A location that FABRIC_READ can reach (R363). -/
inductive FabricLoc where
  /-- a byte of a Hopper or of Millpond, by data address -/
  | byte (addr : Nat)
  /-- one FP32 of a Kettle -/
  | kettle (mill : Fin 152) (sideB : Bool) (slot : Fin 8) (row col : Fin 128)
deriving DecidableEq, Repr

/-- What a DHCPv4 server answers during address acquisition (R325). -/
inductive DhcpKind where
  | offer | ack | nak
deriving DecidableEq, Repr

/-- An echo request: ICMPv4 or ICMPv6, whole or a fragment (R325). -/
structure EchoKind where
  v6 : Bool
  fragment : Bool
deriving DecidableEq, Repr

/-- What an IPv6 neighbour-discovery message that concerns the port says (R325). -/
inductive NdMsg where
  /-- a neighbour solicitation for a target address -/
  | solicit (target : BitVec 128)
  /-- a router advertisement with a prefix for autonomous configuration -/
  | prefixAdvert (pfx : BitVec 64)
deriving DecidableEq, Repr

/-- The commands. -/
inductive Instr where
  -- power and reset (16)
  | pwrEnRise
  | pwrGoodAssert
  | pwrEnFall
  | inputRange (mv : Nat)
  | inputUndervoltTrip (mv : Nat)
  | inputRecovered
  | modResetNAssert (lowNs : Nat)
  | modResetNRelease (lowNs highNs : Nat)
  | refclkStable
  | refclkStableTimeout
  | refclkLoss
  | pllLock (n : Fin 18)
  | pllUnlock (n : Fin 18)
  | fuseLoad (appendOk : Bool)
  | lpddr5xTrainingDone (fails : BitVec 12)
  | startupZeroingDone
  -- Ethernet (14)
  | ethLinkUp (p : Fin 2) (partner : BitVec 10) (fec4 : Fin 3)
  | ethLinkDown (p : Fin 2)
  | ethRenegotiate (p : Fin 2)
  | arpRequest (p : Fin 2) (srcMac : BitVec 48) (srcIp : Word32) (target : Word32)
  | icmpEcho (p : Fin 2) (kind : EchoKind) (src dst : BitVec 128) (payload : List Byte)
  | neighbourDiscovery (p : Fin 2) (src : BitVec 128) (m : NdMsg)
  | dhcpMessage (p : Fin 2) (kind : DhcpKind) (clientId : Word64) (yiaddr : Word32)
  | pfcPause (p : Fin 2) (prios : Byte) (quanta : BitVec 16)
  -- Leat sessions and commands (14)
  | hello (p : Fin 2) (payload : List Byte)
  | leatSessionTimeout (session : Word32)
  | ping (h : LeatHdr) (payload : List Byte)
  | close (h : LeatHdr) (payload : List Byte)
  | regRead (h : LeatHdr) (payload : List Byte)
  | regWrite (h : LeatHdr) (payload : List Byte)
  | memRead (h : LeatHdr) (payload : List Byte)
  | memWrite (h : LeatHdr) (payload : List Byte)
  | imageLoad (h : LeatHdr) (payload : List Byte)
  | imageInstall (loadTest : BitVec 152)
  | jobStart (h : LeatHdr) (payload : List Byte)
  | snapshot (h : LeatHdr) (payload : List Byte)
  | restore (h : LeatHdr) (payload : List Byte)
  | scrub (h : LeatHdr) (payload : List Byte)
  | selfTest (h : LeatHdr) (payload : List Byte)
  | opSuspend (h : LeatHdr) (payload : List Byte)
  | opResume (h : LeatHdr) (payload : List Byte)
  | opCancel (h : LeatHdr) (payload : List Byte)
  | opQuery (h : LeatHdr) (payload : List Byte)
  | attest (h : LeatHdr) (payload : List Byte)
  | digestCheck (h : LeatHdr) (payload : List Byte)
  | takeover (h : LeatHdr) (payload : List Byte)
  | setNet (h : LeatHdr) (payload : List Byte)
  | fwUpdate (h : LeatHdr) (payload : List Byte)
  | fwUpdatePhaseDone (ok : Bool)
  | eventAck (h : LeatHdr)
  | eventResend (seq : Word64)
  -- registers with a behaviour of their own (20)
  | counterClear (h : LeatHdr) (v : Word32)
  | claim (h : LeatHdr) (guard : Byte)
  | enrol (h : LeatHdr) (guard : Byte)
  | closeDebug (h : LeatHdr) (guard : Byte)
  | commitSvn (h : LeatHdr) (guard : Byte)
  | powerLevelRequest (h : LeatHdr) (v : Word32)
  | powerLevelDone
  | govCfgWrite (h : LeatHdr) (v : Word32)
  | ethCfgWrite (h : LeatHdr) (p : Fin 2) (v : Word32)
  | flumeCfgWrite (h : LeatHdr) (p : Fin 12) (v : Word32)
  | clkCtrlWrite (h : LeatHdr) (n : Fin 18) (v : Word32)
  | clockSourceSwitch (h : LeatHdr) (n : Fin 18) (src : Bool)
  | timeLoRead (h : LeatHdr) (count : Nat)
  | ueLogClear (h : LeatHdr) (v : Word32)
  | shapeLogClear (h : LeatHdr) (v : Word32)
  | deadlockLogClear (h : LeatHdr) (v : Word32)
  | weirFaultLogClear (h : LeatHdr) (v : Word32)
  | wheelDigestLogClear (h : LeatHdr) (v : Word32)
  | govAlertClear (h : LeatHdr) (v : Word32)
  -- Tailrace (13)
  | discover (t : TrHdr)
  | counters (t : TrHdr)
  | macLoopback (t : TrHdr)
  | prbsGen (t : TrHdr)
  | prbsCheck (t : TrHdr) (bits errors : Word64)
  | eyeMargin (t : TrHdr) (eyes : List (BitVec 16 × BitVec 16))
  | laneLoopback (t : TrHdr)
  | testDurationExpiry (sel : BitVec 16)
  | tailraceMemRead (t : TrHdr)
  | tailraceMemWrite (t : TrHdr) (payload : List Byte)
  | fwBegin (t : TrHdr)
  | fwData (t : TrHdr) (payload : List Byte)
  | fwCommit (t : TrHdr) (flashOk : Bool)
  -- SMBus and test port (18)
  | smbusStatusRead (pec : Bool)
  | smbusRomRead (pec : Bool)
  | smbusTelemetryRead (pec : Bool)
  | smbusFruRead (code : Byte) (pec : Bool)
  | smbusNack (code : Byte) (dataWritten : Bool)
  | smbusTimeout
  | telemetryRefresh
  | tapReset
  | extest
  | extestPulse
  | extestTrain
  | idcode
  | samplePreload (pins preload : BitVec 205)
  | bypass (code : Byte)
  | millerDebug
  | fabricRead (loc : FabricLoc)
  | fabricHalt (sid : Sid)
  -- thermal, Governor, health, counters, scrub (14)
  | thermalAlert (sensor : Fin 36) (tempC : Byte)
  | thermalTrip
  | thermalTripRelease
  | railFault (dom : Fin 20) (within1s : Bool)
  | droop (f : Fin 8)
  | governorPeriod (pMw windowW inputMv : Nat) (tj : List Byte) (spineTj : Byte)
  | lendStart (f : Fin 8) (pMw : Nat) (railMw : List Nat)
  | healthEvaluation
  | counterRefresh
  | patrolScrubRead (pkg : Fin 12)
  | scrubLine
  | selfTestMill (pass : Bool)
  | deadlockDetect
  -- Flume link (21)
  | flumeSignalDetect (p : Fin 12) (lanes : BitVec 5)
  | flumeTrainDone (p : Fin 12) (goodRx goodTx : BitVec 5)
  | cap (p : Fin 12) (words : List (BitVec 72))
  | retrainTimeout (p : Fin 12)
  | flumeRxIdle (p : Fin 12)
  | flumeDownTimeout (p : Fin 12)
  | laneLockLoss (p : Fin 12) (lanes : BitVec 5)
  | laneCeLimit (p : Fin 12) (lane : Fin 5)
  | reqRepeat (p : Fin 12)
  | lanePrbsPassed (p : Fin 12) (lane : Fin 5)
  | laneShadowMatch (p : Fin 12) (lane : Fin 5) (seqAt : BitVec 16)
  | idle (p : Fin 12) (words : List (BitVec 72))
  | data (p : Fin 12) (words : List (BitVec 72))
  | mark (p : Fin 12) (words : List (BitVec 72))
  | nak (p : Fin 12) (words : List (BitVec 72))
  | spare (p : Fin 12) (words : List (BitVec 72))
  | narrow (p : Fin 12) (words : List (BitVec 72))
  | admitLane (p : Fin 12) (words : List (BitVec 72))
  | switched (p : Fin 12) (words : List (BitVec 72))
  -- Wheel frames (9)
  | ringChunk (p : Fin 12) (f : Frame)
  | compressedContribution (p : Fin 12) (f : Frame)
  | gatherChunk (p : Fin 12) (f : Frame)
  | dispatchRow (p : Fin 12) (f : Frame)
  | returnRow (p : Fin 12) (f : Frame)
  | rowCount (p : Fin 12) (f : Frame)
  | windowWrite (p : Fin 12) (f : Frame)
  | controlFrame (p : Fin 12) (f : Frame)
  | neighbourLoss (p : Fin 12)
  -- RoCEv2 (11)
  | roceReadResponse (qpn : Nat) (psn : BitVec 24) (data : List Byte)
  | roceAck (qpn : Nat) (psn : BitVec 24)
  | roceSeqNak (qpn : Nat) (psn : BitVec 24)
  | roceRnrNak (qpn : Nat) (psn : BitVec 24)
  | roceTimeout (qpn : Nat) (psn : BitVec 24)
  | roceUnexpected (p : Fin 2) (qpn : Nat) (psn : BitVec 24)
  | cnp (qpn : Nat)
  | roceRateRecovery (qpn : Nat)
  | dataFetchRetry (psn : BitVec 24)
  -- streams (7)
  | nop (sid : Sid)
  | loop (sid : Sid)
  | stepEnd (sid : Sid)
  | weir (sid : Sid)
  | weirRelease (sid : Sid)
  | turnPass (sid : Sid)
  | shapeSet (sid : Sid)
  -- Stone (3)
  | pass (mill : Fin 144) (sideB : Bool)
  | drain (mill : Fin 144) (sideB : Bool)
  | maskLoad (mill : Fin 144) (sideB : Bool)
  -- Carder (17)
  | gather (mill : Fin 144)
  | scatterAdd (mill : Fin 144)
  | gatherAdd (mill : Fin 144)
  | merge (mill : Fin 144)
  | mergeSum (mill : Fin 144)
  | compressBmv (mill : Fin 144)
  | compressIxvPbm (mill : Fin 144)
  | intersection (mill : Fin 144)
  | sparseFeed (mill : Fin 144)
  | structuredPack (mill : Fin 144)
  | predictorUnion (mill : Fin 144)
  | auditCompare (mill : Fin 144)
  | rank (mill : Fin 144)
  | place (mill : Fin 144)
  | dispatchPack (mill : Fin 144)
  | receiveCompact (mill : Fin 144)
  | combine (mill : Fin 144)
  -- DMA, Tenter, scalar (3)
  | copy (mill : Fin 144)
  | tcopy (floor : Fin 8)
  | run (mill : Fin 144) (steps : Nat)
  -- Hopper (9)
  | bankOff (mill : Fin 144) (bank : Fin 16)
  | bankOn (mill : Fin 144) (bank : Fin 16)
  | bankWakeDone (mill : Fin 152) (bank : Fin 16)
  | bankCloseDone (mill : Fin 152) (bank : Fin 16)
  | compareAndSwap (mill : Fin 152) (req : BitVec 4) (off : BitVec 21) (expected new : Word64)
  | countEqual (mill : Fin 152) (req : BitVec 4) (off : BitVec 21) (width : Fin 4) (value : Word64)
  | portEntryExecute (port : BitVec 16) (pres : List Pres)
  | raceUnblock (sid : Sid)
  | stepMarker (port : BitVec 16) (holder : BitVec 4)
  -- step, Wheel life cycle, commit (11)
  | stepAdmit
  | bucketLaunch
  | bucketFillRelease (b : Nat)
  | bucketReduced (b : Nat)
  | bucketGatherStart (b : Nat)
  | exchangeSend (a : Nat)
  | exchangeReceived (a : Nat)
  | wheelCommitEntry
  | commitExchange
  | commitDecision
  -- snapshot and restore (8)
  | snapshotOpen
  | firstTouchCopy (page : Nat)
  | snapshotPageAcked
  | snapshotSeal
  | snapshotClose
  | snapshotFail
  | restorePage (data : List Byte)
  | restoreDone
  -- the last two rows of the table
  | retrainDone (p : Fin 12) (goodRx goodTx : BitVec 5)
  | rnrResend (qpn : Nat)
deriving DecidableEq, Repr

end Sys2Proof
end

