-- ==== Sys2Proof/Machine/TypesFabric.lean ====
section
/-! DEFINITION. The parts of the state of the fabric: memory controllers, Hopper banks, Races, ports, streams, Weirs and the installed image. -/
namespace Sys2Proof.Machine

/-- The retirement state of one Mill (R20, R318-R320). -/
structure MillRec where
  retired : Bool
  suspect : Bool
  permanent : Bool
  /-- retirements so far, two bits (R320) -/
  count : Nat
deriving DecidableEq, Repr

def MillRec.init : MillRec := ⟨false, false, false, 0⟩

structure MemCtl where
  rate : BitVec 2
  pkgTrained : BitVec 12
  pkgFail : BitVec 12
  zeroed : Bool
  /-- packages whose patrol runs (R128) -/
  patrolOn : BitVec 12
  ueValid : Bool
  /-- 0 LPDDR5X, 1 Millpond, 2 Hopper, 3 Kettle, 4 NoC (R133) -/
  ueStore : Nat
  ueAddr : Nat
  /-- next patrol line of each package (R128) -/
  patrol : NMap Nat
  /-- tags of each cache set, most recently used first; key is physical Mill × 4096 + set (R110-R114) -/
  cache : NMap (List Nat)
deriving DecidableEq, Repr

/-- A Hopper bank (R99). -/
inductive BankState where
  | off | waking | on | closing
deriving DecidableEq, Repr

structure Bank where
  st : BankState
  /-- BANK_OFF arrived while waking: it closes when it has woken -/
  closeNext : Bool
  /-- BANK_ON arrived while closing: it wakes when it is off -/
  wakeNext : Bool
deriving DecidableEq, Repr

def Bank.init : Bank := ⟨.off, false, false⟩

/-- The pointers of a Race and the slot its ends hold through port entries (R91, R92). -/
structure RaceSt where
  tail : Word32
  head : Word32
  prodHeld : Bool
  consHeld : Bool
  /-- timebase of its latest pointer move (R227) -/
  progress : Nat
deriving DecidableEq, Repr

def RaceSt.init : RaceSt := ⟨0, 0, false, false, 0⟩

/-- A run of presentations that wait for their turns (R201): the stream they follow, how many they are, how many of them are
accesses, and the Hopper bank they write or 16. -/
structure Due where
  key : Nat
  n : Nat
  acc : Nat
  bank : Nat
deriving DecidableEq, Repr

/-- Where a port stands in its turn sequence (R200). -/
structure PortPos where
  seg : Nat
  entry : Nat
  /-- passes of the segment completed -/
  rep : Nat
  /-- the job has started and the port runs -/
  running : Bool
  /-- the step cycle, not the prologue -/
  cycle : Bool
  /-- the prologue, or the cycle of the current step, has ended -/
  ended : Bool
  /-- HAS_CYCLE 0 and the prologue has run (R200) -/
  stopped : Bool
  /-- code of the holder that the entry waits for to present; 0 none -/
  waiting : Nat
  /-- code of the holder whose access waits for a bank or a page; 0 none (R101, R308) -/
  held : Nat
  /-- the next step has been admitted, and its cycle follows when this part ends; holders that have padded for it (R200) -/
  next : Option (List Nat)
  /-- the latest entry it executed only passed (R227) -/
  passing : Bool
  /-- holders padding for the current prologue or cycle (R201) -/
  padded : List Nat
  /-- timebase of its last progress (R227) -/
  progress : Nat
deriving DecidableEq, Repr

def PortPos.init : PortPos := ⟨0, 0, 0, false, false, false, false, 0, 0, none, false, [], 0⟩

/-- What a stream does. -/
inductive StreamStat where
  /-- held at its start, or stopped (R200, R224) -/
  | idle
  | running
  /-- waiting at a Weir, by its entry of the WEIRS section (R215, R220) -/
  | atWeir (weir : Nat)
  /-- at STEP_END, waiting for admission (R201, R203) -/
  | stepEnd
  /-- blocked on a Race: key, and true on the producer side (R93) -/
  | onRace (key : Nat) (producer : Bool)
  /-- its operation presents at a port that serves nobody: PORT and code (R200, R211) -/
  | atPort (port code : Nat)
deriving DecidableEq, Repr

/-- A running LOOP: first instruction, the one after its body, repetitions left after this one (R204). -/
structure LoopSt where
  start : Nat
  stop : Nat
  left : Nat
deriving DecidableEq, Repr

/-- A live tile of a Stone (R66, R67). -/
structure Tile where
  tag : Nat
  slot : Nat
  /-- descriptors of the clearing pass (R42) -/
  dA : Nat
  dB : Nat
  /-- row list of a masked weight-gradient product, as the mask descriptor of its passes (R74) -/
  mask : Nat
  /-- saturations of its accumulation (R69) -/
  sat : Nat
deriving DecidableEq, Repr

/-- The panel a Shoe holds: the operand filled and the terms of each row or column and K index, as element and scale codes;
a pruned position of a structured operand holds none (R64, R65, R77). -/
structure Panel where
  sideB : Bool
  desc : Nat
  block : Nat
  kLo : Nat
  kHi : Nat
  codes : List (List (Nat × Nat))
deriving DecidableEq, Repr

structure Stream where
  stat : StreamStat
  pc : Nat
  loops : List LoopSt
  /-- halted by the test port (R363) -/
  halted : Bool
  rowMask : BitVec 128
  colMask : BitVec 128
  panel : Option Panel
  tiles : List Tile
  /-- tile in the working accumulators (R68) -/
  work : Option Nat
  /-- tile in the shadow accumulators -/
  shadow : Option Nat
  /-- the working accumulators, by 128 × row + column (R56) -/
  acc : NMap Nat
  /-- the shadow accumulators (R56, R68) -/
  shAcc : NMap Nat
  /-- the Mill's shape registers as they stood when the operation that now waits was issued (R205) -/
  latch : Option (NMap Nat)
  /-- timebase at which its wait began (R227, R229) -/
  since : Nat
deriving DecidableEq, Repr

def Stream.init : Stream :=
  ⟨.idle, 0, [], false, BitVec.allOnes 128, BitVec.allOnes 128, none, [], none, none, [], [], none, 0⟩

/-- A physical Weir (R214-R218). -/
structure WeirSt where
  gen : Nat
  /-- participants counted in the open generation, newest first -/
  counted : List Nat
  /-- those of them that wait -/
  waiting : List Nat
  /-- held early entries in order, with true for WAIT (R217) -/
  held : List (Nat × Bool)
  /-- participants to which a release is on its way, with true for ABANDONED -/
  releasing : List (Nat × Bool)
  progress : Nat
deriving DecidableEq, Repr

def WeirSt.init : WeirSt := ⟨0, [], [], [], [], 0⟩

/-- The running context (R219, R227, R229). -/
structure Ctx where
  active : Bool
  table : Nat
  lending : BitVec 8
  progress : Nat
  /-- the stall has been reported (R228) -/
  reported : Bool
deriving DecidableEq, Repr

/-- TENTER_STATUS of one Floor (R148). -/
structure Tenter where
  busy : Bool
  serial : Bool
  tile : Nat
deriving DecidableEq, Repr

def Tenter.init : Tenter := ⟨false, false, 0⟩

/-- An image: its digest, the header fields that are used, and its sections by TYPE (R196, R197). -/
structure Image where
  digest : List Byte
  jobTag : Nat
  windows : Bool
  secs : NMap (List Byte)
deriving DecidableEq, Repr

/-- IMAGE_STATUS and IMAGE_FAIL_OFFSET (R212). -/
structure ImgStatus where
  last : Nat
  failSection : Nat
  failOffset : Nat
deriving DecidableEq, Repr

/-- SHAPE_LOG (R212). -/
structure ShapeLog where
  valid : Bool
  mill : Nat
  reg : Nat
  desc : Nat
  value : Word32
deriving DecidableEq, Repr

/-- DEADLOCK_LOG (R231). -/
structure DeadLog where
  valid : Bool
  kind : Nat
  item : Nat
  detail : Word32
deriving DecidableEq, Repr

/-- WEIR_FAULT_LOG (R231). -/
structure WeirLog where
  valid : Bool
  weir : Nat
  participant : Nat
deriving DecidableEq, Repr

end Sys2Proof.Machine
end

