-- ==== Sys2Proof/Machine/Image.lean ====
section
/-! DEFINITION. The Block image read as its chapters lay it out: descriptors, streams, sequences, Races, Weirs and routers (R135, R196-R204, R220). -/
namespace Sys2Proof.Machine

/-- A section's bytes; empty when absent. -/
def Image.sec (img : Image) (t : Nat) : List Byte := NMap.get [] img.secs t

/-! ### Descriptors (R135) -/

structure Desc where
  format : Nat
  group : Nat
  xpose : Bool
  blockAxis : Bool
  rnd : Bool
  noalloc : Bool
  edgeOff : Bool
  base : Nat
  shapeReg : Nat
  dyn : Nat
  partialOut : Bool
  scaleBase : Nat
  ext : List Nat
  stream : Nat
  stride : List Nat
  sstride : List Nat
  koff : Nat
deriving DecidableEq, Repr

/-- A descriptor from its 64 bytes. -/
def Desc.parse (bs : List Byte) : Desc :=
  let w0 := fieldAt bs 0 8
  let w1 := fieldAt bs 8 8
  let w4 := fieldAt bs 32 8
  let w5 := fieldAt bs 40 8
  let w6 := fieldAt bs 48 8
  let w7 := fieldAt bs 56 8
  { format := bitsOf w0 63 59, group := bitsOf w0 58 53, xpose := bitOf w0 52, blockAxis := bitOf w0 51
    rnd := bitOf w0 50, noalloc := bitOf w0 49, edgeOff := bitOf w0 48, base := bitsOf w0 47 0
    shapeReg := bitsOf w1 63 56, dyn := bitsOf w1 55 52, partialOut := bitOf w1 51, scaleBase := bitsOf w1 47 0
    ext := [fieldAt bs 16 4, fieldAt bs 20 4, fieldAt bs 24 4, fieldAt bs 28 4]
    stream := bitsOf w4 63 48
    stride := [0, bitsOf w4 39 0, bitsOf w5 39 0, bitsOf w6 39 0]
    sstride := [0, bitsOf w7 31 0, bitsOf w5 63 40, bitsOf w6 63 40]
    koff := bitsOf w7 63 32 }

def Image.descCount (img : Image) : Nat := (img.sec 7).length / 64
/-- The bytes of descriptor `i`. -/
def Image.descBytes (img : Image) (i : Nat) : List Byte := slice (img.sec 7) (64 * i) 64
def Image.desc (img : Image) (i : Nat) : Desc := Desc.parse (img.descBytes i)

/-! ### Mill map, banks, groups, grids -/

/-- The physical Mill of logical Mill `l` (R198). -/
def Image.phys (img : Image) (l : Nat) : Nat := ((img.sec 1).getD l 0).toNat
/-- The logical Mill mapped onto a physical Mill, if any. -/
def Image.logical (img : Image) (m : Nat) : Option Nat := findIdx (fun b => b.toNat == m) ((img.sec 1).take 144)
/-- Whether the image uses a physical Mill (R20). -/
def Image.uses (img : Image) (m : Nat) : Bool := (img.logical m).isSome
/-- The image powers bank `b` of a logical Mill at load (section BANKS; default all). -/
def Image.bankOn (img : Image) (l b : Nat) : Bool :=
  (img.sec 3).isEmpty || bitOf (fieldAt (img.sec 3) (2 * l) 2) b
/-- Class of a tensor group: 0 micro-batch, 1 replica, 2 shard, 3 control (R130). -/
def Image.groupClass (img : Image) (g : Nat) : Nat := ((img.sec 8).getD g 0).toNat % 4
def Image.gradGroup (img : Image) (g : Nat) : Bool := bitOf ((img.sec 8).getD g 0).toNat 2
/-- CACHE_MIB (R110). -/
def Image.cacheMib (img : Image) : Nat := fieldAt (img.sec 5) 0 4 % 32
def Image.gridCount (img : Image) : Nat := (img.sec 2).length / 4
/-- First row, first column, rows, columns of a GRIDS entry. -/
def Image.grid (img : Image) (g : Nat) : Nat × Nat × Nat × Nat :=
  let e := (img.sec 2).drop (4 * g)
  ((e.getD 0 0).toNat, (e.getD 1 0).toNat, (e.getD 2 0).toNat, (e.getD 3 0).toNat)
/-- Logical Mills of a grid, ascending. -/
def Image.gridMills (img : Image) (g : Nat) : List Nat :=
  let e := img.grid g
  (List.range 144).filter fun l =>
    decide (e.1 ≤ l / 12) && decide (l / 12 < e.1 + e.2.2.1) && decide (e.2.1 ≤ l % 12) && decide (l % 12 < e.2.1 + e.2.2.2)
/-- Floor of a physical Mill (R4). -/
def floorOf (m : Nat) : Nat := m / 19
/-- Floors that hold a mapped Mill. -/
def Image.floors (img : Image) : List Nat :=
  (List.range 8).filter fun f => (img.sec 1).any fun b => floorOf b.toNat == f
/-- Floors that hold a Mill of a grid. -/
def Image.gridFloors (img : Image) (g : Nat) : List Nat :=
  (List.range 8).filter fun f => (img.gridMills g).any fun l => floorOf (img.phys l) == f

/-! ### Races (R90, R102, R115, R132) -/

structure RaceDef where
  /-- logical Mill -/
  mill : Nat
  num : Nat
  valid : Bool
  /-- PEER: a logical Mill at the far end, or 0xFF; in scratch also 0xF0 + port -/
  peer : Nat
  base : Nat
  producer : Nat
  consumer : Nat
  capacity : Nat
  slotBytes : Nat
deriving DecidableEq, Repr

/-- One 12-byte Race entry; `pond` chooses the layout of R132. -/
def RaceDef.parse (pond : Bool) (bs : List Byte) : RaceDef :=
  let h := fieldAt bs 0 4
  let b := fieldAt bs 4 4
  let s := fieldAt bs 8 4
  { mill := bitsOf h 7 0, num := bitsOf h 12 8, valid := bitOf b 31
    peer := if pond then bitsOf b 23 16 else bitsOf b 28 21
    base := if pond then bitsOf b 15 0 * 512 else bitsOf b 20 3 * 8
    producer := bitsOf s 31 28, consumer := bitsOf s 27 24, capacity := bitsOf s 23 12 + 1
    slotBytes := (bitsOf s 11 0 + 1) * (if pond then 512 else 8) }

def raceDefs (pond : Bool) : Nat → List Byte → List RaceDef
  | 0, _ => []
  | n + 1, bs => RaceDef.parse pond (bs.take 12) :: raceDefs pond n (bs.drop 12)

def Image.hopperRaces (img : Image) : List RaceDef := raceDefs false ((img.sec 4).length / 12) (img.sec 4)
def Image.pondRaces (img : Image) : List RaceDef := raceDefs true (((img.sec 5).length - 4) / 12) ((img.sec 5).drop 4)
/-- The definition of Race field `r` at a physical Mill: 0-31 Hopper Races, 32-47 Millpond Races (R204). -/
def Image.race (img : Image) (m r : Nat) : Option RaceDef :=
  match img.logical m with
  | none => none
  | some l =>
    if r < 32 then (img.hopperRaces.filter fun d => d.mill == l && d.num == r && d.valid).head?
    else (img.pondRaces.filter fun d => d.mill == l && d.num + 32 == r && d.valid).head?
/-- Data address of the first byte of a Hopper. -/
def hopperBase (m : Nat) : Nat := 0x020000000000 + m * 0x200000
/-- Data address of the first byte of a Millpond slice. -/
def sliceBase (m : Nat) : Nat := 0x010000000000 + m * 0x1400000
/-- The key of a Race's pointers: physical Mill × 64 + Race field. -/
def raceKey (m r : Nat) : Nat := 64 * m + r
/-- Data address of slot `i` of a Race. -/
def RaceDef.slotAddr (d : RaceDef) (m r i : Nat) : Nat :=
  (if r < 32 then hopperBase m else sliceBase m) + d.base + (i % d.capacity) * d.slotBytes

/-! ### Streams and instructions (R203, R204) -/

structure SInstr where
  opcode : Nat
  flags : Nat
  d : List Nat
  operands : Nat
deriving DecidableEq, Repr

/-- One 32-byte instruction. -/
def SInstr.parse (bs : List Byte) : SInstr :=
  let n := leNat (bs.take 32)
  ⟨bitsOf n 255 248, bitsOf n 247 240,
    [bitsOf n 239 224, bitsOf n 223 208, bitsOf n 207 192, bitsOf n 191 176], bitsOf n 175 0⟩
/-- Descriptor field i; 0xFFFF is none. -/
def SInstr.dIdx (i : SInstr) (k : Nat) : Nat := i.d.getD k 0xFFFF
/-- Race field of descriptor k; 0x3F is none. -/
def SInstr.race (i : SInstr) (k : Nat) : Nat := bitsOf i.operands (157 + 6 * k) (152 + 6 * k)
def SInstr.op (i : SInstr) (hi lo : Nat) : Nat := bitsOf i.operands hi lo
def SInstr.flag (i : SInstr) (k : Nat) : Bool := bitOf i.flags k

structure StreamRec where
  owner : Nat
  kind : Nat
  count : Nat
  body : Nat
  /-- offset of the record in the section -/
  off : Nat
  instrs : List Byte
  kernel : List Byte
deriving DecidableEq, Repr

/-- The records of the STREAMS section, from offset `off`. -/
def streamRecs : Nat → Nat → List Byte → List StreamRec
  | 0, _, _ => []
  | fuel + 1, off, bs =>
    if bs.isEmpty then []
    else
      let w0 := fieldAt bs 0 8
      let n := bitsOf w0 63 32
      let w1 := fieldAt bs 8 8
      let kb := bitsOf w1 63 32
      let r : StreamRec := ⟨bitsOf w0 7 0, bitsOf w0 10 8, n, bitsOf w1 31 0, off, slice bs 16 (32 * n), slice bs (16 + 32 * n) kb⟩
      r :: streamRecs fuel (off + 16 + 32 * n + kb) (bs.drop (16 + 32 * n + kb))

def Image.streams (img : Image) : List StreamRec := streamRecs 800 0 (img.sec 0x11)
def Image.stream (img : Image) (owner kind : Nat) : Option StreamRec :=
  (img.streams.filter fun r => r.owner == owner && r.kind == kind).head?
/-- The instruction at index `i` of a record. -/
def StreamRec.at (r : StreamRec) (i : Nat) : SInstr := SInstr.parse (slice r.instrs (32 * i) 32)

/-! ### Turn sequences (R199) -/

structure Segment where
  rep : Nat
  last : Nat
  first : Nat
deriving DecidableEq, Repr

structure PortRec where
  port : Nat
  off : Nat
  hasCycle : Bool
  cycleStart : Nat
  segs : List Segment
  entries : List Nat
deriving DecidableEq, Repr

/-- Entry width in bits of a port class; 0 for an unknown class. -/
def entryBits (cls : Nat) : Nat :=
  if cls = 1 then 32 else if cls = 3 ∨ cls = 7 then 16 else if cls = 2 ∨ (4 ≤ cls ∧ cls ≤ 6) then 4 else 0

/-- `n` fields of `w` bits of a number, low first. -/
def fieldsOf (w : Nat) : Nat → Nat → List Nat
  | 0, _ => []
  | n + 1, v => v % 2 ^ w :: fieldsOf w n (v / 2 ^ w)

def segWords : Nat → List Byte → List Segment
  | 0, _ => []
  | n + 1, bs => ⟨fieldAt bs 4 4, bitsOf (fieldAt bs 0 4) 19 10, bitsOf (fieldAt bs 0 4) 9 0⟩ :: segWords n (bs.drop 8)

/-- One record and its length in bytes. -/
def PortRec.parse (off : Nat) (bs : List Byte) : PortRec × Nat :=
  let h := fieldAt bs 0 8
  let n := bitsOf h 42 32
  let sc := bitsOf h 19 16 + 1
  let w := entryBits (bitsOf h 15 12)
  let eb := roundUp (cdiv (n * w) 8) 8
  (⟨bitsOf h 15 0, off, bitOf h 24, bitsOf h 23 20, segWords sc (bs.drop 8),
    fieldsOf w n (fieldAt bs (8 + 8 * sc) eb)⟩, 8 + 8 * sc + eb)

def portRecs : Nat → Nat → List Byte → List PortRec
  | 0, _, _ => []
  | fuel + 1, off, bs =>
    if bs.isEmpty then []
    else
      let r := PortRec.parse off bs
      r.1 :: portRecs fuel (off + r.2) (bs.drop r.2)

def Image.ports (img : Image) : List PortRec := portRecs ((img.sec 6).length / 16 + 1) 0 (img.sec 6)
def Image.port (img : Image) (p : Nat) : Option PortRec := (img.ports.filter fun r => r.port == p).head?

/-! ### Weirs (R219-R221) -/

def Image.weirEntries (img : Image) : Nat := fieldAt (img.sec 0xA) 0 8 % 4096 + 1
def Image.contexts (img : Image) : Nat := if (img.sec 0xA).isEmpty then 1 else bitsOf (fieldAt (img.sec 0xA) 0 8) 13 12 + 1
/-- DEADLOCK_US in nanoseconds. -/
def Image.deadlockNs (img : Image) : Nat :=
  let d := fieldAt (img.sec 0xA) 4 4
  (if d = 0 then 100000 else d) * 1000
/-- LEND_US in nanoseconds; 0 is no lending. -/
def Image.lendNs (img : Image) : Nat := fieldAt (img.sec 0xA) 8 4 * 1000
/-- The context table entry of a virtual identifier. -/
def Image.vidWord (img : Image) (table vid : Nat) : Nat := fieldAt (img.sec 0xA) (16 + 8192 * table + 2 * vid) 2
def Image.weirWord (img : Image) (e k : Nat) : Nat :=
  fieldAt (img.sec 0xA) (16 + 8192 * img.contexts + 16 * e + 8 * k) 8
/-- Physical Weir of an entry. -/
def Image.weirPhys (img : Image) (e : Nat) : Nat := bitsOf (img.weirWord e 0) 10 0
def Image.weirN (img : Image) (e : Nat) : Nat := bitsOf (img.weirWord e 0) 20 11
def Image.weirLend (img : Image) (e : Nat) : Bool := bitOf (img.weirWord e 0) 21
def Image.weirGrid (img : Image) (e : Nat) : Nat := bitsOf (img.weirWord e 1) 5 0
def Image.weirKinds (img : Image) (e : Nat) : Nat := bitsOf (img.weirWord e 1) 11 6
/-- Participants generated from a grid (R221), as (owner, kind). -/
def Image.weirGenerated (img : Image) (e : Nat) : List (Nat × Nat) :=
  let g := img.weirGrid e
  if g = 0x3F then []
  else
    let ks := img.weirKinds e
    ((img.gridMills g).flatMap fun l => ((List.range 5).filter fun k => bitOf ks k).map fun k => (l, k)) ++
      (if bitOf ks 5 then (img.gridFloors g).map fun f => (f, 5) else [])
/-- The explicit participants of an entry. -/
def Image.weirExplicit (img : Image) (e : Nat) : List (Nat × Nat) :=
  let off := bitsOf (img.weirWord e 0) 63 32
  (List.range (img.weirN e - (img.weirGenerated e).length)).map fun i =>
    let w := fieldAt (img.sec 0xA) (off + 2 * i) 2
    (bitsOf w 7 0, bitsOf w 10 8)
/-- All participants, in index order. -/
def Image.weirParts (img : Image) (e : Nat) : List (Nat × Nat) := img.weirExplicit e ++ img.weirGenerated e
/-- The Weir entry a virtual identifier names in a table, if valid: identifiers are 0 to 4,095 (R219). -/
def Image.weirOf (img : Image) (table vid : Nat) : Option Nat :=
  let w := img.vidWord table vid
  if (img.sec 0xA).isEmpty ∨ 4096 ≤ vid then none else if bitOf w 15 then some (w % 4096) else none
/-! ### Shape registers, scales, folds, routers -/

/-- Initial value of a shape register of a logical Mill (R205). -/
def Image.shapeInit (img : Image) (l r : Nat) : Nat :=
  if (img.sec 0xE).isEmpty then 0xFFFFFFFF else fieldAt (img.sec 0xE) ((256 * l + r) * 4) 4
/-- SCALES entry of a descriptor: margin, initial amax, history address (R196, R51, R52). -/
def Image.scaleEntry (img : Image) (di : Nat) : Option (Int × Nat × Nat) :=
  let bs := (img.sec 9).drop 8
  match findIdx (fun i => fieldAt bs (16 * i) 2 == di) (List.range (bs.length / 16)) with
  | none => none
  | some i =>
    let m := fieldAt bs (16 * i + 2) 1
    some (if 128 ≤ m then (m : Int) - 256 else m, fieldAt bs (16 * i + 4) 4, fieldAt bs (16 * i + 8) 6)
/-- Initial L, L_min and L_max as E8M0 exponents (R53). -/
def Image.lossScale (img : Image) : Nat × Nat × Nat :=
  if (img.sec 9).isEmpty then (143, 127, 151)
  else (fieldAt (img.sec 9) 0 1, fieldAt (img.sec 9) 1 1, fieldAt (img.sec 9) 2 1)
/-- The routers: 32-byte entries (R196). -/
def Image.routerBytes (img : Image) (r : Nat) : Option (List Byte) :=
  match findIdx (fun i => bitsOf (fieldAt (img.sec 0xC) (32 * i) 8) 5 0 == r) (List.range ((img.sec 0xC).length / 32)) with
  | none => none
  | some i => some (slice (img.sec 0xC) (32 * i) 32)

end Sys2Proof.Machine
end

