-- ==== Sys2Proof/Machine/ImageRun.lean ====
section
/-! DEFINITION. The sections of the Block image that the runtime, the Wheel, the routers and GM6 windows use (R144, R179, R196, R247, R250, R252, R263, R272). -/
namespace Sys2Proof.Machine

/-! ### RUNTIME (R272, R273) -/

/-- The image has a RUNTIME section. -/
def Image.hasRt (img : Image) : Bool := !(img.sec 0xF).isEmpty
/-- Word `k` of the RUNTIME section. -/
def Image.rtWord (img : Image) (k : Nat) : Nat := fieldAt (img.sec 0xF) (8 * k) 8
/-- Micro-batches per device per step; 1 with no RUNTIME section. -/
def Image.rtM (img : Image) : Nat := bitsOf (img.rtWord 0) 3 0 + 1
def Image.rtSkipFraction (img : Image) : Nat := bitsOf (img.rtWord 0) 11 4
/-- SKIP_LIMIT; 0 means 8. -/
def Image.rtSkipLimit (img : Image) : Nat :=
  let v := bitsOf (img.rtWord 0) 19 12
  if v = 0 then 8 else v
def Image.rtDataMill (img : Image) : Nat := bitsOf (img.rtWord 0) 27 20
def Image.rtRetryLimit (img : Image) : Nat := bitsOf (img.rtWord 0) 31 28
def Image.rtShapeMb (img : Image) : Nat := bitsOf (img.rtWord 0) 39 32
def Image.rtShuffle (img : Image) : Bool := bitOf (img.rtWord 0) 40
def Image.rtSpikeAction (img : Image) : Bool := bitOf (img.rtWord 0) 41
/-- SPIKE_SHIFT; 0 means 7. -/
def Image.rtSpikeShift (img : Image) : Nat :=
  let v := bitsOf (img.rtWord 0) 45 42
  if v = 0 then 7 else v
def Image.rtFwdWeir (img : Image) : Nat := bitsOf (img.rtWord 1) 15 0
def Image.rtCommitWeir (img : Image) : Nat := bitsOf (img.rtWord 1) 31 16
def Image.rtRecords (img : Image) : Nat := bitsOf (img.rtWord 1) 47 32
def Image.rtStreams (img : Image) : Nat := bitsOf (img.rtWord 1) 63 48 + 1
def Image.rtState (img : Image) : Nat := bitsOf (img.rtWord 2) 47 0
def Image.rtPhilox (img : Image) : Nat := bitsOf (img.rtWord 3) 47 0
def Image.rtLoss (img : Image) : Nat := bitsOf (img.rtWord 4) 47 0
def Image.rtShardList (img : Image) : Nat := bitsOf (img.rtWord 5) 47 0
def Image.rtShards (img : Image) : Nat := bitsOf (img.rtWord 6) 31 0
def Image.rtSpikeK (img : Image) : Nat := bitsOf (img.rtWord 6) 63 32
def Image.rtSpikeWarmup (img : Image) : Nat := bitsOf (img.rtWord 7) 31 0
def Image.rtSetA (img : Image) : Nat := bitsOf (img.rtWord 8) 47 0
def Image.rtSetB (img : Image) : Nat := bitsOf (img.rtWord 9) 47 0
def Image.rtWin (img : Image) : Nat := bitsOf (img.rtWord 10) 47 0
def Image.rtDerived (img : Image) : Nat := bitsOf (img.rtWord 11) 47 0
def Image.rtDerivedLen (img : Image) : Nat := bitsOf (img.rtWord 12) 47 0

/-- The address a fabric agent's access reaches under ACTIVE_SET (R274). -/
def Image.translate (img : Image) (set : Bool) (a : Nat) : Nat :=
  if set && img.hasRt then
    (if img.rtSetA ≤ a ∧ a < img.rtSetA + img.rtWin then a - img.rtSetA + img.rtSetB
     else if img.rtSetB ≤ a ∧ a < img.rtSetB + img.rtWin then a - img.rtSetB + img.rtSetA else a)
  else a

/-! ### BUCKETS (R250, R252, R263) -/

def Image.hasBuckets (img : Image) : Bool := !(img.sec 0xB).isEmpty
def Image.bkHead (img : Image) (k : Nat) : Nat := fieldAt (img.sec 0xB) (8 * k) 8
/-- Torus extents. -/
def Image.extents (img : Image) : List Nat :=
  [bitsOf (img.bkHead 0) 7 0, bitsOf (img.bkHead 0) 15 8, bitsOf (img.bkHead 0) 23 16]
/-- Buckets; none without the section. -/
def Image.bucketCount (img : Image) : Nat := if img.hasBuckets then bitsOf (img.bkHead 0) 35 24 else 0
def Image.exchangeCount (img : Image) : Nat := if img.hasBuckets then bitsOf (img.bkHead 0) 47 36 else 0
def Image.margin (img : Image) : Nat := bitsOf (img.bkHead 0) 51 48
/-- E_INIT; 0 means 0x7F. -/
def Image.eInit (img : Image) : Nat :=
  let v := bitsOf (img.bkHead 0) 59 52
  if v = 0 then 0x7F else v
/-- Role of a port as the image gives it. -/
def Image.role (img : Image) (n : Nat) : Nat := bitsOf (img.bkHead 1) (4 * n + 3) (4 * n)

/-- One bucket entry. -/
structure BucketDef where
  grad : Nat
  group : Nat
  mode : Nat
  n : Nat
  k : Nat
  shard : Nat
  param : Nat
  pfmt : Nat
  resA : Nat
  resB : Nat
  fill : Nat
  donev : Nat
  updated : Nat
  gathered : Nat
deriving DecidableEq, Repr

def BucketDef.parse (bs : List Byte) : BucketDef :=
  let w0 := fieldAt bs 0 8
  let w1 := fieldAt bs 8 8
  let w3 := fieldAt bs 24 8
  { grad := bitsOf w0 47 0, group := bitsOf w0 53 48, mode := bitsOf w0 55 54, n := bitsOf w1 31 0
    k := bitsOf w1 63 32, shard := fieldAt bs 16 6, param := bitsOf w3 47 0, pfmt := bitsOf w3 52 48
    resA := fieldAt bs 32 6, resB := fieldAt bs 40 6, fill := fieldAt bs 48 2, donev := fieldAt bs 50 2
    updated := fieldAt bs 52 2, gathered := fieldAt bs 54 2 }

def Image.bucket (img : Image) (b : Nat) : BucketDef := BucketDef.parse (slice (img.sec 0xB) (32 + 64 * b) 64)

/-- One exchange entry (R263). -/
structure ExchDef where
  router : Nat
  ret : Bool
  sendWeir : Nat
  recvWeir : Nat
  send : Nat
  recv : Nat
  counts : Nat
  g : Nat
deriving DecidableEq, Repr

def ExchDef.parse (bs : List Byte) : ExchDef :=
  let w0 := fieldAt bs 0 8
  let w3 := fieldAt bs 24 8
  ⟨bitsOf w0 5 0, bitOf w0 6, bitsOf w0 31 16, bitsOf w0 47 32, fieldAt bs 8 6, fieldAt bs 16 6, bitsOf w3 47 0, bitsOf w3 60 48⟩

def Image.exch (img : Image) (a : Nat) : ExchDef :=
  ExchDef.parse (slice (img.sec 0xB) (32 + 64 * img.bucketCount + 32 * a) 32)

/-- First address of the residual index (R261). -/
def indexBase : Nat := 0x00BE00800000
/-- Index entry of bucket `b`. -/
def indexAddr (b : Nat) : Nat := indexBase + 256 * b
/-- Bytes of the index and the Wheel's staging together (R124). -/
def indexArea : Nat := 6648 * 2 ^ 20
/-- The four parts of the staging area, which follows the index entries: one for each bucket in flight (R254, R261; log 75). -/
def Image.stageBase (img : Image) (part : Nat) : Nat :=
  let a := roundUp (indexAddr img.bucketCount) 512
  a + part * ((indexBase + indexArea - a) / 4 / 512 * 512)

/-! ### ROUTERS (R179) -/

structure RouterDef where
  num : Nat
  e : Nat
  k : Nat
  d : Nat
  gate : Nat
  mill : Nat
  quota : Nat
  bias : Nat
  logits : Nat
  stats : Nat
deriving DecidableEq, Repr

def RouterDef.parse (bs : List Byte) : RouterDef :=
  let w0 := fieldAt bs 0 8
  let w1 := fieldAt bs 8 8
  { num := bitsOf w0 5 0, e := bitsOf w0 16 6, k := bitsOf w0 20 17, d := bitsOf w0 24 21, gate := bitsOf w0 26 25
    mill := bitsOf w0 34 27, quota := bitsOf w1 15 0, bias := bitsOf w1 31 16, logits := bitsOf w1 47 32
    stats := fieldAt bs 16 6 }

def Image.routers (img : Image) : List RouterDef :=
  (List.range ((img.sec 0xC).length / 32)).map fun i => RouterDef.parse (slice (img.sec 0xC) (32 * i) 32)
def Image.router (img : Image) (r : Nat) : Option RouterDef := (img.routers.filter fun x => x.num == r).head?

/-! ### FOLDS (R144, R196) -/

structure FoldDef where
  off : Nat
  out : Nat
  list : List Nat
deriving DecidableEq, Repr

def foldDefs : Nat → Nat → List Byte → List FoldDef
  | 0, _, _ => []
  | fuel + 1, off, bs =>
    if bs.length < 8 then []
    else
      let n := fieldAt bs 0 4
      ⟨off, fieldAt bs 4 2, (List.range n).map fun i => fieldAt bs (8 + 2 * i) 2⟩ ::
        foldDefs fuel (off + 8 + 2 * n) (bs.drop (8 + 2 * n))

def Image.folds (img : Image) : List FoldDef := foldDefs ((img.sec 0xD).length / 8 + 1) 0 (img.sec 0xD)

/-! ### WINDOWS (R247) -/

structure WindowDef where
  mill : Nat
  off : Nat
  len : Nat
  ports : Nat
  peer : Nat
  bell : Nat
deriving DecidableEq, Repr

def Image.windowDefs (img : Image) : List WindowDef :=
  let bs := img.sec 0x10
  if bs.isEmpty then []
  else (List.range (fieldAt bs 0 8 % 16 + 1)).map fun i =>
    let w := fieldAt bs (8 + 32 * i) 8
    ⟨bitsOf w 7 0, bitsOf w 28 8, bitsOf w 50 29, bitsOf w 62 51, fieldAt bs (16 + 32 * i) 8, fieldAt bs (24 + 32 * i) 2⟩

/-! ### Shape registers at the image load (R205) -/

/-- The shape registers that do not hold 0xFFFF_FFFF at the load, by 256 × logical Mill + register. -/
def Image.shapesMap (img : Image) : NMap Nat :=
  if (img.sec 0xE).isEmpty then []
  else (List.range (144 * 256)).filterMap fun i =>
    let v := fieldAt (img.sec 0xE) (4 * i) 4
    if v = 0xFFFFFFFF then none else some (i, v)

end Sys2Proof.Machine
end

