-- ==== Sys2Proof/Config.lean ====
section
/-! DEFINITION. The free values: constants without a body, so that nothing can be proved of what they give. A statement about one holds for every value. -/
namespace Sys2Proof

/-- Byte number `i` of the `n`-th draw of device randomness: the ephemeral private scalar and the nonce of a
HELLO_REPLY, which R328 names and does not state. DESIGN CHOICE, log 4. -/
opaque Config.freeByte : Nat → Nat → BitVec 8
/-- A free bit: the outcome of a choice that the spec leaves open (a MOD_RESET_N pulse of 20 to 100 ns, R401). Log 4. -/
opaque Config.freeBit : Nat → Bool
/-- A byte of the reserved part of the metadata region, whose contents R123 does not define, by data address. Log 4. -/
opaque Config.freeMetaByte : Nat → BitVec 8
/-- A word of a scalar kernel that is no RV64IMC instruction and no FP32 instruction of the presumed encodings (R204 gives the
device's FP32 instructions none): what it does to the integer register file is free. Arguments: instruction word, a source
value, a second source value. Log 20. -/
opaque Config.kernelExt : BitVec 32 → BitVec 64 → BitVec 64 → BitVec 64
/-- The data-rate setting of a firmware image, by the digest of the image; the recovery loader's by the empty one. R116 says that
the firmware sets it and not which it sets. Log 4. -/
opaque Config.firmwareRate : List (BitVec 8) → Fin 3

end Sys2Proof
end

