-- ==== Sys2Proof/Machine/Crypto.lean ====
section
/-! DEFINITION. SHA-512, HMAC, HKDF, P-521 and ECDSA, as the standards that the spec names give them (FIPS 180-4, RFC 2104, RFC 5869, SEC 1, RFC 6979). The constants are the standards': PRESUMED, log 9. -/
namespace Sys2Proof.Machine

/-- 2^64. -/
def two64 : Nat := 0x10000000000000000

/-- SHA-512 round constants 0 to 9 (FIPS 180-4). -/
def shaK0 : List Nat := [0x428a2f98d728ae22,
  0x7137449123ef65cd,
  0xb5c0fbcfec4d3b2f,
  0xe9b5dba58189dbbc,
  0x3956c25bf348b538,
  0x59f111f1b605d019,
  0x923f82a4af194f9b,
  0xab1c5ed5da6d8118,
  0xd807aa98a3030242,
  0x12835b0145706fbe]
/-- SHA-512 round constants 10 to 19 (FIPS 180-4). -/
def shaK1 : List Nat := [0x243185be4ee4b28c,
  0x550c7dc3d5ffb4e2,
  0x72be5d74f27b896f,
  0x80deb1fe3b1696b1,
  0x9bdc06a725c71235,
  0xc19bf174cf692694,
  0xe49b69c19ef14ad2,
  0xefbe4786384f25e3,
  0xfc19dc68b8cd5b5,
  0x240ca1cc77ac9c65]
/-- SHA-512 round constants 20 to 29 (FIPS 180-4). -/
def shaK2 : List Nat := [0x2de92c6f592b0275,
  0x4a7484aa6ea6e483,
  0x5cb0a9dcbd41fbd4,
  0x76f988da831153b5,
  0x983e5152ee66dfab,
  0xa831c66d2db43210,
  0xb00327c898fb213f,
  0xbf597fc7beef0ee4,
  0xc6e00bf33da88fc2,
  0xd5a79147930aa725]
/-- SHA-512 round constants 30 to 39 (FIPS 180-4). -/
def shaK3 : List Nat := [0x6ca6351e003826f,
  0x142929670a0e6e70,
  0x27b70a8546d22ffc,
  0x2e1b21385c26c926,
  0x4d2c6dfc5ac42aed,
  0x53380d139d95b3df,
  0x650a73548baf63de,
  0x766a0abb3c77b2a8,
  0x81c2c92e47edaee6,
  0x92722c851482353b]
/-- SHA-512 round constants 40 to 49 (FIPS 180-4). -/
def shaK4 : List Nat := [0xa2bfe8a14cf10364,
  0xa81a664bbc423001,
  0xc24b8b70d0f89791,
  0xc76c51a30654be30,
  0xd192e819d6ef5218,
  0xd69906245565a910,
  0xf40e35855771202a,
  0x106aa07032bbd1b8,
  0x19a4c116b8d2d0c8,
  0x1e376c085141ab53]
/-- SHA-512 round constants 50 to 59 (FIPS 180-4). -/
def shaK5 : List Nat := [0x2748774cdf8eeb99,
  0x34b0bcb5e19b48a8,
  0x391c0cb3c5c95a63,
  0x4ed8aa4ae3418acb,
  0x5b9cca4f7763e373,
  0x682e6ff3d6b2b8a3,
  0x748f82ee5defb2fc,
  0x78a5636f43172f60,
  0x84c87814a1f0ab72,
  0x8cc702081a6439ec]
/-- SHA-512 round constants 60 to 69 (FIPS 180-4). -/
def shaK6 : List Nat := [0x90befffa23631e28,
  0xa4506cebde82bde9,
  0xbef9a3f7b2c67915,
  0xc67178f2e372532b,
  0xca273eceea26619c,
  0xd186b8c721c0c207,
  0xeada7dd6cde0eb1e,
  0xf57d4f7fee6ed178,
  0x6f067aa72176fba,
  0xa637dc5a2c898a6]
/-- SHA-512 round constants 70 to 79 (FIPS 180-4). -/
def shaK7 : List Nat := [0x113f9804bef90dae,
  0x1b710b35131c471b,
  0x28db77f523047d84,
  0x32caab7b40c72493,
  0x3c9ebe0a15c9bebc,
  0x431d67c49c100d4c,
  0x4cc5d4becb3e42b6,
  0x597f299cfc657e2a,
  0x5fcb6fab3ad6faec,
  0x6c44198c4a475817]
/-- The 80 round constants of SHA-512. -/
def shaK : List Nat := shaK0 ++ shaK1 ++ shaK2 ++ shaK3 ++ shaK4 ++ shaK5 ++ shaK6 ++ shaK7
/-- The initial hash value of SHA-512 (FIPS 180-4). -/
def shaInit : List Nat := [0x6a09e667f3bcc908, 0xbb67ae8584caa73b, 0x3c6ef372fe94f82b, 0xa54ff53a5f1d36f1, 0x510e527fade682d1, 0x9b05688c2b3e6c1f, 0x1f83d9abfb41bd6b, 0x5be0cd19137e2179]

/-- Rotation right of a 64-bit word. -/
def rotr64 (x n : Nat) : Nat := (x >>> n) ||| ((x <<< (64 - n)) % two64)
def shaBig0 (x : Nat) : Nat := rotr64 x 28 ^^^ rotr64 x 34 ^^^ rotr64 x 39
def shaBig1 (x : Nat) : Nat := rotr64 x 14 ^^^ rotr64 x 18 ^^^ rotr64 x 41
def shaSmall0 (x : Nat) : Nat := rotr64 x 1 ^^^ rotr64 x 8 ^^^ (x >>> 7)
def shaSmall1 (x : Nat) : Nat := rotr64 x 19 ^^^ rotr64 x 61 ^^^ (x >>> 6)
def shaCh (x y z : Nat) : Nat := (x &&& y) ^^^ ((x ^^^ (two64 - 1)) &&& z)
def shaMaj (x y z : Nat) : Nat := (x &&& y) ^^^ (x &&& z) ^^^ (y &&& z)

/-- The next message word from the window of the latest sixteen, oldest first. -/
def shaNextW (w : List Nat) : Nat :=
  (shaSmall1 (w.getD 14 0) + w.getD 9 0 + shaSmall0 (w.getD 1 0) + w.getD 0 0) % two64

/-- The eight working variables of a round. -/
structure ShaRegs where
  a : Nat
  b : Nat
  c : Nat
  d : Nat
  e : Nat
  f : Nat
  g : Nat
  h : Nat

/-- One round. -/
def shaRound (r : ShaRegs) (k w : Nat) : ShaRegs :=
  let t1 := (r.h + shaBig1 r.e + shaCh r.e r.f r.g + k + w) % two64
  let t2 := (shaBig0 r.a + shaMaj r.a r.b r.c) % two64
  ⟨(t1 + t2) % two64, r.a, r.b, r.c, (r.d + t1) % two64, r.e, r.f, r.g⟩

/-- All rounds over the constants that remain, with the window of message words. -/
def shaRounds : List Nat → List Nat → ShaRegs → ShaRegs
  | [], _, r => r
  | k :: ks, w, r => shaRounds ks (w.drop 1 ++ [shaNextW w]) (shaRound r k (w.getD 0 0))

/-- The big-endian 64-bit words of a block. -/
def shaWords : Nat → List Byte → List Nat
  | 0, _ => []
  | n + 1, bs => beNat (bs.take 8) :: shaWords n (bs.drop 8)

/-- Compress one 128-byte block into the chaining value. -/
def shaBlock (h : List Nat) (blk : List Byte) : List Nat :=
  let r := shaRounds shaK (shaWords 16 blk)
    ⟨h.getD 0 0, h.getD 1 0, h.getD 2 0, h.getD 3 0, h.getD 4 0, h.getD 5 0, h.getD 6 0, h.getD 7 0⟩
  List.zipWith (fun x y => (x + y) % two64) h [r.a, r.b, r.c, r.d, r.e, r.f, r.g, r.h]

/-- The blocks of a padded message. -/
def shaBlocks : Nat → List Byte → List Nat → List Nat
  | 0, _, h => h
  | n + 1, bs, h => shaBlocks n (bs.drop 128) (shaBlock h (bs.take 128))

/-- SHA-512. -/
def sha512 (msg : List Byte) : List Byte :=
  let zeros := (128 - (msg.length + 17) % 128) % 128
  let padded := msg ++ [0x80] ++ List.replicate zeros 0 ++ beBytes 16 (8 * msg.length)
  (shaBlocks ((msg.length + 17 + zeros) / 128) padded shaInit).flatMap (beBytes 8)

/-- HMAC-SHA-512 (RFC 2104). -/
def hmac512 (key msg : List Byte) : List Byte :=
  let k := padTo 128 0 (if 128 < key.length then sha512 key else key)
  sha512 (k.map (· ^^^ 0x5C) ++ sha512 (k.map (· ^^^ 0x36) ++ msg))

/-- The expansion blocks of HKDF: `n` more, after block `i`. -/
def hkdfBlocks (prk info : List Byte) : Nat → Nat → List Byte → List Byte
  | 0, _, _ => []
  | n + 1, i, prev =>
    let t := hmac512 prk (prev ++ info ++ [BitVec.ofNat 8 (i + 1)])
    t ++ hkdfBlocks prk info n (i + 1) t

/-- HKDF-SHA-512 (RFC 5869); an empty salt is 64 zero bytes. -/
def hkdf512 (salt ikm info : List Byte) (len : Nat) : List Byte :=
  let prk := hmac512 (if salt.isEmpty then List.replicate 64 0 else salt) ikm
  (hkdfBlocks prk info (cdiv len 64) 0 []).take len

/-- The ASCII bytes of a string. -/
def ascii (s : String) : List Byte := s.toList.map fun c => BitVec.ofNat 8 c.toNat

/-! ### P-521 (SEC 1, FIPS 186) -/

/-- The prime of P-521. -/
def p521 : Nat := 2 ^ 521 - 1
/-- The order of P-521. -/
def n521 : Nat := 0x01FFFFFFFFFFFFFFFFFFFFFFFFFFFFFFFFFFFFFFFFFFFFFFFFFFFFFFFFFFFFFFFFFA51868783BF2F966B7FCC0148F709A5D03BB5C9B8899C47AEBB6FB71E91386409
/-- The coefficient b of P-521. -/
def b521 : Nat := 0x0051953EB9618E1C9A1F929A21A0B68540EEA2DA725B99B315F3B8B489918EF109E156193951EC7E937B1652C0BD3BB1BF073573DF883D2C34F1EF451FD46B503F00
/-- The base point of P-521. -/
def g521 : Option (Nat × Nat) := some
  (0x00C6858E06B70404E9CD9E3ECB662395B4429C648139053FB521F828AF606B4D3DBAA14B5E77EFE75928FE1DC127A2FFA8DE3348B3C1856A429BF97E7E31C2E5BD66,
   0x011839296A789A3BC0045C8A5FB42C7D1BD998F54449579B446817AFBD17273E662C97EE72995EF42640C550B9013FAD0761353C7086A272C24088BE94769FD16650)

/-- `b ^ e mod m`, by the low `fuel` bits of the exponent. -/
def powModAux (m : Nat) : Nat → Nat → Nat → Nat → Nat
  | 0, _, _, acc => acc
  | fuel + 1, b, e, acc => powModAux m fuel (b * b % m) (e / 2) (if e % 2 = 1 then acc * b % m else acc)

/-- The inverse modulo a prime below 2^521. -/
def invMod (m a : Nat) : Nat := powModAux m 521 (a % m) (m - 2) 1

/-- Point addition in affine coordinates; none is the point at infinity. -/
def ecAdd : Option (Nat × Nat) → Option (Nat × Nat) → Option (Nat × Nat)
  | none, q => q
  | some p, none => some p
  | some (x1, y1), some (x2, y2) =>
    if x1 = x2 ∧ (y1 + y2) % p521 = 0 then none
    else
      let l := if x1 = x2 then (3 * x1 * x1 + (p521 - 3)) * invMod p521 (2 * y1) % p521
               else (y2 + p521 - y1) * invMod p521 (x2 + p521 - x1) % p521
      let x3 := (l * l + 2 * p521 - x1 - x2) % p521
      some (x3, (l * (x1 + p521 - x3) + p521 - y1) % p521)

/-- The point (x / z², y / z³); z = 0 is the point at infinity. -/
structure JacPoint where
  x : Nat
  y : Nat
  z : Nat

def jacDouble (a : JacPoint) : JacPoint :=
  let d := a.z * a.z % p521
  let g := a.y * a.y % p521
  let b := a.x * g % p521
  let m := 3 * (a.x + p521 - d) * (a.x + d) % p521
  let x3 := (m * m + 8 * (p521 - b)) % p521
  ⟨x3, (m * (4 * b + p521 - x3) + 8 * (p521 - g * g % p521)) % p521, 2 * a.y * a.z % p521⟩

def jacAdd (a b : JacPoint) : JacPoint :=
  if a.z = 0 then b
  else if b.z = 0 then a
  else
    let za := a.z * a.z % p521
    let zb := b.z * b.z % p521
    let u := a.x * zb % p521
    let s := a.y * zb * b.z % p521
    let h := (b.x * za + p521 - u) % p521
    let r := (b.y * za * a.z + p521 - s) % p521
    if h = 0 then (if r = 0 then jacDouble a else ⟨1, 1, 0⟩)
    else
      let hh := h * h % p521
      let hhh := h * hh % p521
      let v := u * hh % p521
      let x3 := (r * r + 2 * (p521 - v) + p521 - hhh) % p521
      ⟨x3, (r * (v + p521 - x3) + s * (p521 - hhh)) % p521, h * a.z * b.z % p521⟩

def JacPoint.affine (a : JacPoint) : Option (Nat × Nat) :=
  if a.z = 0 then none
  else
    let i := invMod p521 a.z
    some (a.x * i % p521 * i % p521, a.y * i % p521 * i % p521 * i % p521)

/-- Scalar multiplication by the low `fuel` bits. -/
def jacMul : Nat → Nat → JacPoint → JacPoint → JacPoint
  | 0, _, _, acc => acc
  | fuel + 1, k, p, acc => jacMul fuel (k / 2) (jacDouble p) (if k % 2 = 1 then jacAdd acc p else acc)

def ecMul (k : Nat) : Option (Nat × Nat) → Option (Nat × Nat)
  | none => none
  | some (x, y) => (jacMul 521 k ⟨x, y, 1⟩ ⟨1, 1, 0⟩).affine

/-- The uncompressed encoding of a point: 0x04, X and Y (R328). -/
def ecEncode : Option (Nat × Nat) → List Byte
  | none => List.replicate 133 0
  | some (x, y) => 0x04 :: (beBytes 66 x ++ beBytes 66 y)

/-- A point from its 133 bytes, when it lies on the curve. -/
def ecDecode (bs : List Byte) : Option (Nat × Nat) :=
  let x := beNat (slice bs 1 66)
  let y := beNat (slice bs 67 66)
  if bs.length = 133 ∧ bs.head? = some 0x04 ∧ x < p521 ∧ y < p521 ∧
      y * y % p521 = (x * x * x + (p521 - 3) * x + b521) % p521 then some (x, y) else none

/-- ECDSA verification of a digest under an uncompressed public key; r and s are 66 bytes each. -/
def ecdsaVerify (pub digest sig : List Byte) : Bool :=
  let r := beNat (slice sig 0 66)
  let s := beNat (slice sig 66 66)
  let z := beNat digest
  match ecDecode pub with
  | none => false
  | some q =>
    if sig.length = 132 ∧ 0 < r ∧ r < n521 ∧ 0 < s ∧ s < n521 then
      let w := invMod n521 s
      match ecAdd (ecMul (z * w % n521) g521) (ecMul (r * w % n521) (some q)) with
      | none => false
      | some (x, _) => decide (x % n521 = r)
    else false

/-- RFC 6979 candidates: try up to `fuel` of them for one in range. -/
def rfc6979Aux : Nat → List Byte → List Byte → Nat
  | 0, _, _ => 1
  | fuel + 1, k, v =>
    let v1 := hmac512 k v
    let v2 := hmac512 k v1
    let c := beNat ((v1 ++ v2).take 66) / 2 ^ 7
    if 0 < c ∧ c < n521 then c
    else
      let k' := hmac512 k (v2 ++ [0])
      rfc6979Aux fuel k' (hmac512 k' v2)

/-- The deterministic nonce of RFC 6979 with SHA-512. -/
def rfc6979 (d : Nat) (digest : List Byte) : Nat :=
  let x := beBytes 66 d
  let h := beBytes 66 (beNat digest % n521)
  let v := List.replicate 64 (0x01 : Byte)
  let k1 := hmac512 (List.replicate 64 0) (v ++ [0] ++ x ++ h)
  let v1 := hmac512 k1 v
  let k2 := hmac512 k1 (v1 ++ [1] ++ x ++ h)
  rfc6979Aux 64 k2 (hmac512 k2 v1)

/-- ECDSA P-521 signature of a digest: r and s, 66 bytes each. -/
def ecdsaSign (d : Nat) (digest : List Byte) : List Byte :=
  let k := rfc6979 d digest
  let r := match ecMul k g521 with
    | none => 0
    | some (x, _) => x % n521
  beBytes 66 r ++ beBytes 66 (invMod n521 k * (beNat digest + r * d) % n521)

/-- A device key from the unique secret (R359): d := (c mod (n − 1)) + 1 of 74 HKDF bytes. -/
def deviceKey (secret : List Byte) (info : String) : Nat :=
  beNat (hkdf512 [] secret (ascii info) 74) % (n521 - 1) + 1

/-- The key identifier of R355: the first 8 bytes of the digest of the public key. -/
def keyId (pub : List Byte) : List Byte := (sha512 pub).take 8

end Sys2Proof.Machine
end

