-- ==== Sys2Proof/Machine/TypesGroup.lean ====
section
/-! DEFINITION. The parts of the state of the links, the Wheel, the training runtime, snapshots, restore and the health monitor. -/
namespace Sys2Proof.Machine

/-- Port states of R240's table. -/
inductive FlumeState where
  | disabled | detect | train2 | caps | train3 | active | retrain | down
deriving DecidableEq, Repr

/-- The lane map of one direction (R241, R244, R267). -/
structure LaneMap where
  /-- physical lane of each logical lane; two entries when narrow -/
  map : List Nat
  /-- 7 none -/
  spare : Nat
  retired : BitVec 5
  /-- the map at training: a lane's home logical lane (R245) -/
  home : List Nat
  /-- a retired lane on its way back, driven or compared beside the current one (R245) -/
  shadow : Option Nat
  /-- the lane released by a switch, until MARK UNSHADOW -/
  released : Option Nat
deriving DecidableEq, Repr

/-- MAP 0x688 and SPARE 4 (R267). -/
def LaneMap.init : LaneMap := ⟨[0, 1, 2, 3], 4, 0, [0, 1, 2, 3], none, none⟩

/-- A sequenced flit kept for replay (R237): SEQ, TYPE, CLASS, payload words with FIRST and WORDS, times sent in
succession. -/
structure SentFlit where
  seq : Nat
  typ : Nat
  cls : Nat
  first : Nat
  words : List Word64
  sends : Nat
deriving DecidableEq, Repr

/-- A request that is repeated until it is answered (R244, R245): command, logical lane, physical lane, SEQ. -/
structure LaneReq where
  cmd : Nat
  logical : Nat
  phys : Nat
  seq : Nat
deriving DecidableEq, Repr

structure FlumePort where
  st : FlumeState
  /-- 0 none, 1 Flume-2, 2 Flume-3 -/
  mode : Nat
  /-- the CAPS in progress follow a RETRAIN -/
  retraining : Bool
  /-- FLUME_CFG as written, and as taken at the latest training (R267) -/
  cfg : Word32
  live : Word32
  peerGm6 : Bool
  peerPort : Nat
  /-- serial number of the first CAP (R242, R267) -/
  peerSerial : Option Word64
  rx : LaneMap
  tx : LaneMap
  /-- good lanes that TRAIN_2 found, receive and transmit (R241) -/
  good2 : BitVec 5 × BitVec 5
  /-- next SEQ to send, next SEQ expected, and the latest acknowledged by the far end -/
  txSeq : Nat
  rxSeq : Nat
  acked : Nat
  /-- oldest first -/
  replay : List SentFlit
  nakSent : Bool
  /-- failed arrivals of the flit expected next, in succession (R237) -/
  rxFails : Nat
  /-- serial number of the latest CAP (R264) -/
  nowSerial : Word64
  /-- credits to send, by class; buffers to return, by class (R238) -/
  credits : List Nat
  freed : List Nat
  lastClass : Nat
  /-- bytes of a frame not yet complete, by class -/
  rxBuf : List (List Byte)
  /-- frames waiting to be sent, by class: a frame that its first flit has left is kept as the bytes that remain -/
  txBuf : List (List Byte)
  /-- bytes of the first frame in txBuf already sent, by class: the offset of the next frame header -/
  txNext : List (List Nat)
  req : Option LaneReq
  /-- the receive map before a switch to a returning lane, until the MARK that answers it (R245, R246) -/
  rxBefore : Option LaneMap
  /-- a retirement has cancelled a return after its switch: the MARK that answers the switch changes nothing (R246) -/
  cancelled : Bool
  /-- the transmit map before a switch whose MARK the far end has not accepted (R245, R246) -/
  txBefore : Option LaneMap
  /-- payload words of MARK flits that wait for room in the replay buffer, oldest first (R237) -/
  marks : List Word64
  /-- the ACK that the port sent last (R235) -/
  told : Nat
  /-- corrected bits of the last millisecond: timebase and physical lane, newest first (R234, R243) -/
  ceLog : List (Nat × Nat)
  downAt : Nat
  /-- a Tailrace test or EXTEST holds the port out of training -/
  held : Bool
deriving DecidableEq, Repr

def FlumePort.init : FlumePort :=
  { st := .disabled, mode := 0, retraining := false, cfg := 0x80001000, live := 0x80001000, peerGm6 := false
    peerPort := 0, peerSerial := none, rx := LaneMap.init, tx := LaneMap.init, good2 := (0, 0), txSeq := 0, rxSeq := 0
    acked := 0xFFFF, replay := [], nakSent := false, rxFails := 0, nowSerial := 0, credits := [128, 128, 128, 128], freed := [0, 0, 0, 0]
    lastClass := 0, rxBuf := [[], [], [], []], txBuf := [[], [], [], []], txNext := [[], [], [], []], req := none
    rxBefore := none, cancelled := false, txBefore := none, marks := [], told := 0xFFFF, ceLog := [], downAt := 0, held := false }

/-- Bucket states (R254). -/
inductive BucketState where
  | waiting | filling | reducing | reduced | gathering | gathered
deriving DecidableEq, Repr

structure Bucket where
  st : BucketState
  /-- how far its Weir entries of this step have come: 1 FILL entered, 2 FILL released, 3 DONE and UPDATED entered,
  4 UPDATED released, 5 GATHERED entered (R254); a restart repeats none of them (R264) -/
  passed : Nat
  /-- this device's contribution count, fixed when FILL releases (R286) -/
  count : Nat
  /-- ring stages done, among the stages whose extent is above 1 -/
  stage : Nat
  /-- own contribution count of each stage entered (R257) -/
  counts : List Nat
  /-- part of the staging area that its launch gave it, 0-3 (R261; log 75) -/
  part : Nat
  /-- frames handled of each ring piece: stage, piece, frames -/
  frames : List (Nat × Nat × Nat)
  /-- blocks of the last stage that arrived at the owner with RESCALED set (R261) -/
  rescaled : Nat
  /-- contributions of modes 1 and 2 that have arrived: source, COUNT, bytes in the staging area (R258-R261) -/
  contribs : List (Nat × Nat × Nat)
  /-- the count C beside the shard (R257) -/
  total : Nat
  /-- exponent report (R256) -/
  report : Nat
  /-- bytes of PARAM received by stage and piece (R262) -/
  gathered : List (Nat × Nat × Nat)
  /-- ring stages whose all-gather is still to be done; the one in progress is the last of them -/
  gatherStage : Nat
deriving DecidableEq, Repr

def Bucket.init : Bucket :=
  { st := .waiting, passed := 0, count := 0, stage := 0, counts := [], part := 0, frames := [], rescaled := 0
    contribs := [], total := 0, report := 0, gathered := [], gatherStage := 0 }

/-- A token exchange (R263). -/
structure Exchange where
  /-- 1 SEND entered, 2 SEND released, 3 RECV entered; a restart repeats none of them (R264) -/
  passed : Nat
  sent : Bool
  /-- row counts received: COUNTS index and count -/
  counts : List (Nat × Nat)
  /-- rows that have landed -/
  rows : Nat
deriving DecidableEq, Repr

def Exchange.init : Exchange := ⟨0, false, [], 0⟩

structure Wheel where
  active : Bool
  stalled : Bool
  nextLaunch : Nat
  nextGather : Nat
  valid : Bool
  p : Nat
  device : Nat
  /-- roles of the twelve ports, after any exchange (R250, R316) -/
  roles : List Nat
  buckets : NMap Bucket
  exchanges : NMap Exchange
  /-- frames held because their bucket is not ready for them: port and frame, oldest first -/
  heldFrames : List (Fin 12 × Frame)
  digSel : BitVec 16
  digLog : BitVec 17
  /-- a fault is suspected for the step (R266) -/
  suspected : Bool
  suspectNext : Bool
  digestsSent : Bool
  digestVote : Bool
  /-- the Wheel waits at COMMIT_WEIR; the commit exchange has begun -/
  atCommit : Bool
  exchanging : Bool
  /-- commit records held: device, word 0, word 1 (R292) -/
  records : NMap (Option (Word64 × Word64))
  /-- group maximum of the exponent reports -/
  exps : List Nat
  /-- parity of the alternation between ports that share a role, by role (R250) -/
  alt : NMap Nat
deriving DecidableEq, Repr

def Wheel.init : Wheel :=
  { active := false, stalled := false, nextLaunch := 0, nextGather := 0, valid := false, p := 0, device := 0
    roles := [], buckets := [], exchanges := [], heldFrames := [], digSel := 0, digLog := 0, suspected := false
    suspectNext := false, digestsSent := false, digestVote := false, atCommit := false, exchanging := false
    records := [], exps := [], alt := [] }

/-- A record that the data service has found: storage target, remote address, key, bytes with its header, micro-batch, and
its shard as EPOCH × 2^32 + SHARD_INDEX (R276, R280). A record that could not be fetched has no bytes. -/
structure DataRec where
  target : Nat
  addr : Nat
  rkey : Word32
  len : Nat
  mb : Nat
  shard : Nat
deriving DecidableEq, Repr

/-- What the data service is doing (R276-R281). -/
inductive DataPhase where
  | idle
  /-- the header of the next record is wanted, or on its way -/
  | header (outstanding : Bool)
  /-- bodies are wanted, or the first one is on its way -/
  | body (outstanding : Bool)
deriving DecidableEq, Repr

structure DataSvc where
  phase : DataPhase
  /-- micro-batch being counted, its records so far, and their ITEMS -/
  mb : Nat
  recs : Nat
  items : Nat
  /-- records whose bodies are still to be delivered, oldest first -/
  todo : List DataRec
  /-- retries of the READ in progress -/
  retries : Nat
deriving DecidableEq, Repr

def DataSvc.init : DataSvc := ⟨.idle, 0, 0, 0, [], 0⟩

/-- The training runtime and the job (R270-R300, R338). -/
structure Run where
  /-- the context has a training job: its handle; 0 none -/
  job : Word32
  /-- a step is admitted and not yet decided -/
  inStep : Bool
  /-- 0 boundary, 1 forward, 2 backward, 3 reduction and update, 4 commit exchange (R300) -/
  phase : Nat
  /-- latest decision: 0 none, 1 commit, 2 skip -/
  outcome : Nat
  /-- causes of the latest skip: [0] withdrawal test, [1] LATE, [2] DIGEST -/
  causes : BitVec 3
  set : Bool
  skips : Nat
  scale : Nat
  clean : Nat
  cMin : Nat
  mask : BitVec 8
  step : Nat
  /-- SEED of the job -/
  seed : Nat
  stepLimit : Nat
  mu : Nat
  nu : Nat
  /-- micro-batches whose forward phase has ended in this step -/
  gated : Nat
  /-- NaN and infinity total of the micro-batch-class groups at the latest gate (R284) -/
  gateTotal : Nat
  /-- an uncorrectable error of the micro-batch class since the latest gate -/
  mbUe : Bool
  /-- an uncorrectable error of the replica class in this step -/
  replicaUe : Bool
  /-- micro-batches whose fetch failed (R281) -/
  fetchFail : BitVec 8
  /-- a backward event has occurred (R286) -/
  backward : Bool
  /-- gradient-group NaN, infinity and saturation totals at the start of the backward phase (R54) -/
  gradTotal : Nat
  /-- gradient-group NaN and infinity totals then (R286) -/
  gradNan : Nat
  late : Bool
  /-- replacement after a takeover: every micro-batch withdrawn at the gate (R298) -/
  withdrawAll : Bool
  /-- AT_STEP of a pending suspend (R336) -/
  suspendAt : Option Nat
  /-- the device has declared itself failed (R315) -/
  failed : Bool
  failClass : Nat
  /-- a restore has succeeded, or state of this JOB_TAG has been committed: CONTINUE may start (R337) -/
  committedTag : Option Nat
  snapBase : Nat
  snapLen : Nat
  snapQp : Nat
  /-- capture ranges: address and length -/
  capture : List (Nat × Nat)
  /-- largest magnitude converted into each history-scaled descriptor in the step, FP32 (R51) -/
  amax : NMap Nat
  /-- stochastic conversions so far, by stream and Philox stream (R283) -/
  ordinals : NMap Nat
  /-- uncorrectable errors at suspect Mills within the job, by Mill (R318) -/
  millErrs : NMap Nat
  /-- Mills in whose Hoppers the snapshot engine has met uncorrectable words, to be settled (R318) -/
  millFound : List Nat
  /-- boundaries since reset: job starts and decided steps (R315) -/
  boundary : Nat
  /-- next snapshot sequence number of the job (R307) -/
  snapSeq : Nat
  data : DataSvc
deriving DecidableEq, Repr

def Run.init : Run :=
  { job := 0, inStep := false, phase := 0, outcome := 0, causes := 0, set := false, skips := 0, scale := 0, clean := 0
    cMin := 0, mask := 0, step := 0, seed := 0, stepLimit := 0, mu := 0, nu := 0, gated := 0, gateTotal := 0
    mbUe := false, replicaUe := false, fetchFail := 0, backward := false, gradTotal := 0, gradNan := 0
    late := false, withdrawAll := false, suspendAt := none, failed := false, failClass := 0
    committedTag := none, snapBase := 0, snapLen := 0, snapQp := 0, capture := [], amax := [], ordinals := []
    millErrs := [], millFound := [], boundary := 0, snapSeq := 0, data := DataSvc.init }

inductive SnapState where
  | idle | opening | streaming | sealing | suspended
deriving DecidableEq, Repr

/-- A page of the open snapshot (R311). -/
structure SnapPage where
  store : Nat
  /-- word 0 [47:0] of its entry -/
  addr : Nat
  /-- data address of its first byte -/
  phys : Nat
  slot : Option Nat
  ue : Bool
  order : Nat
  /-- SHA-512 of the page as sent -/
  digest : List Byte
  sent : Bool
  acked : Bool
deriving DecidableEq, Repr

/-- A write that waits on a protected page, with the port and the holder code at which it waits (R227, R308). -/
structure PageWait where
  page : Nat
  port : Nat
  code : Nat
deriving DecidableEq, Repr

/-- A protected page on which a write waits: since when, and since when for a free slot (R309). -/
structure Touched where
  wait : PageWait
  since : Nat
  slotSince : Option Nat
deriving DecidableEq, Repr

structure Snap where
  st : SnapState
  /-- what SUSPENDED returns to -/
  back : SnapState
  held : Bool
  heldHandle : Word32
  final : Bool
  last : Nat
  seq : Nat
  step : Nat
  handle : Word32
  timeNs : Nat
  ordinal : Nat
  set : Bool
  device : Nat
  p : Nat
  pages : List SnapPage
  /-- occupied slots -/
  slots : List Nat
  slotCount : Nat
  base : Nat
  sendOrder : Nat
  /-- pages of which a write is waiting (R308, R309) -/
  touched : List Touched
  /-- the boundary that the open snapshot holds, by the number of boundaries since reset (R315) -/
  boundary : Nat
  /-- local QPN of the target -/
  qpn : Nat
deriving DecidableEq, Repr

def Snap.init : Snap :=
  { st := .idle, back := .idle, held := false, heldHandle := 0, final := false, last := 0, seq := 0, step := 0
    handle := 0, timeNs := 0, ordinal := 0, set := false, device := 0, p := 0, pages := [], slots := [], slotCount := 0
    base := 0, sendOrder := 0, touched := [], boundary := 0, qpn := 0 }

structure Restore where
  busy : Bool
  code : Nat
  pagesLeft : Nat
  failPage : Nat
  /-- the restore block (R342) -/
  block : List Byte
  /-- table message as received so far -/
  table : List Byte
  /-- the table has been checked: pages follow -/
  paging : Bool
  next : Nat
  retried : Bool
  /-- memory has been partly written by a restore that failed (R314) -/
  partly : Bool
deriving DecidableEq, Repr

def Restore.init : Restore := ⟨false, 0xFF, 0, 0, [], [], false, 0, false, false⟩

/-- One evaluation's totals: time, corrected words, retrain-class entries, droops (R302). -/
structure HealthSample where
  t : Nat
  ce : Nat
  retrain : Nat
  droop : Nat
deriving DecidableEq, Repr

structure Health where
  armed : Bool
  risk : Nat
  /-- scores CE, RETRAIN, DROOP, TEMP, NEIGHBOUR -/
  scores : List Nat
  cfg : Word32
  weights : BitVec 20
  /-- newest first, over the last 60 s -/
  samples : List HealthSample
  lastTrigger : Option Nat
  /-- latest neighbour loss (R302) -/
  lastNeighbour : Option Nat
deriving DecidableEq, Repr

def Health.init : Health := ⟨true, 0, [0, 0, 0, 0, 0], 0x025820C0, 0xF6446, [], none, none⟩

end Sys2Proof.Machine
end

