-- ==== Sys2Proof/Machine/TypesMgmt.lean ====
section
/-! DEFINITION. The parts of the state of the management plane: power, clocks, time, non-volatile store, start-up, Ethernet, Leat, long operations, queue pairs, security, SMBus and test port. -/
namespace Sys2Proof.Machine

/-- Power manager, rails and pins (R370-R373, R380-R393, R404). -/
structure FloorGov where
  /-- hottest junction in °C -/
  tj : Byte
  /-- 0 normal, 1 lending, 2 borrowing -/
  mode : BitVec 2
  breach : Bool
  setMv : Nat
  /-- the setting from before the lending, to which the rail returns; 0 when there is none to return to (R230) -/
  back : Nat
  /-- it has stopped lending, and its rail is restored after those of the borrowers (R230) -/
  late : Bool
deriving DecidableEq, Repr

/-- GOV_FLOOR_f at reset (R393). -/
def FloorGov.init : FloorGov := ⟨0, 0, false, 700, 0, false⟩

structure Pwr where
  /-- pins and supplies -/
  pwrEn : Bool
  auxOn : Bool
  inRange : Bool
  pwrGood : Bool
  resetLow : Bool
  /-- PD_STATE.ON: bit b is domain b of R372 -/
  pdOn : BitVec 20
  /-- start-up step last completed (table of R380); 0 before step 1 -/
  startStep : Nat
  /-- THERM_TRIP_N latched low (R388) -/
  thermTrip : Bool
  /-- rails held off until PWR_EN is cycled (R389) -/
  railLock : Bool
  /-- rails dropped by an input trip, start-up waiting for the input (R370) -/
  tripped : Bool
  /-- a rail fault other than a Floor's has happened (R389) -/
  railFaulted : Bool
  targetC : Nat
  baseMv : Nat
  capW : Nat
  inputMv : Nat
  windowW : Nat
  /-- samples (timebase, WINDOW_W) that can still be the highest of the last second, newest first (R404) -/
  peakHist : List (Nat × Nat)
  /-- GOV_ALERT: 4 REFCLK, 3 RAIL_FAULT, 2 INPUT_RANGE, 1 THERMAL, 0 FLOOR_BREACH -/
  alert : BitVec 5
  /-- a sensor has reached 108 °C and has not fallen below 100 °C since (R388) -/
  thermHot : Bool
  plCur : BitVec 2
  plBusy : Bool
  plResult : Byte
  plReq : BitVec 2
  floors : NMap FloorGov
  /-- the borrowers' setting in mV, fixed when lending begins (R386) -/
  borrowMv : Nat
  /-- hottest spine junction (R404) -/
  spineTj : Byte
deriving DecidableEq, Repr

/-- Enables and source of one clocked domain (R378, R394). -/
structure ClkCtrl where
  run : Bool
  sleep : Bool
  deep : Bool
  src : Bool
deriving DecidableEq, Repr

/-- CLK_CTRL_n at reset (R394). -/
def ClkCtrl.init : ClkCtrl := ⟨true, false, false, false⟩

structure Clk where
  refStable : Bool
  lost : Bool
  locked : BitVec 18
  ctrl : NMap ClkCtrl
  /-- a write to domains 4-17 held until the port's ENABLE is cleared (R378) -/
  held : NMap (Option ClkCtrl)
  switching : BitVec 18
  /-- recovery strap sequence: well-formed low pulses counted so far (R344) -/
  strap : Nat
deriving DecidableEq, Repr

structure Time where
  /-- the timebase, in nanoseconds (R364) -/
  ns : Nat
  running : Bool
  degraded : Bool
  ordFault : Bool
  /-- the power-on ordinal in force (R365) -/
  ordinal : Nat
deriving DecidableEq, Repr

/-- The slot fused as the spare of a Floor for which nothing else is listed: the spec gives no module's fuses (log 3). -/
def spareSlot : Fin 19 := 18

/-- What survives a power-on reset: flash and fuses (R352, R353, R356, R361, R363, R369). -/
structure Nv where
  /-- NOR flash by byte offset; an unlisted byte is erased, 0xFF -/
  flash : NMap Byte
  serial : Word64
  /-- slot fused as the spare of each Floor, where it is not spareSlot (R5, R20) -/
  spare : NMap (Fin 19)
  /-- MAC base fuse (R352); the ports take theirs from the FRU record (R325) -/
  macBase : BitVec 48
  /-- four SHA-512 digests of firmware keys; empty is an unprogrammed slot -/
  fwKeys : NMap (List Byte)
  fwRevoked : BitVec 4
  /-- blown rollback fuses, 0-64 -/
  rollback : Nat
  owner : Option (List Byte)
  debugClosed : Bool
  /-- device unique secret (R359) -/
  secret : List Byte
deriving DecidableEq, Repr

structure Boot where
  fusesLoaded : Bool
  recovery : Bool
  /-- firmware running (started by the boot ROM, R356) -/
  fwRunning : Bool
  fwVersion : Word32
  fwSvn : Byte
  fwSlot : BitVec 2
  fwDigest : List Byte
  /-- FRU buffer of the SMBus responder, on the auxiliary rail (R405) -/
  fruValid : Bool
  fruBuf : List Byte
deriving DecidableEq, Repr

/-- One Ethernet port (R323-R325, R349). -/
structure Eth where
  /-- ETH_CFG as last written -/
  cfg : Word32
  /-- the configuration in force, taken at the latest negotiation (R324) -/
  live : Word32
  linkUp : Bool
  mode : BitVec 3
  /-- lanes driven; the others, and all of them without a link, are electrically idle (R323) -/
  lanes : BitVec 4
  /-- the link runs over a cable (CR), not a backplane (KR) (R324) -/
  cable : Bool
  fec : BitVec 2
  anDone : Bool
  /-- time of the latest link failure, from which the 100 ms run (R324) -/
  downAt : Option Nat
  ipv4 : Word32
  /-- IPv6 prefixes from which global addresses have been formed (R325) -/
  prefixes : List (BitVec 64)
  /-- pauses honoured by priority: quanta and time of receipt (R325) -/
  pause : NMap (Nat × Nat)
deriving DecidableEq, Repr

def Eth.init : Eth := ⟨0xC01F2070, 0xC01F2070, false, 7, 0, false, 0, false, none, 0, [], []⟩

/-- A Leat session (R328-R330). -/
structure Session where
  id : Word32
  port : Fin 2
  keyIn : List Byte
  keyOut : List Byte
  control : Bool
  /-- HOST_KEY_ID of its HELLO, digest byte 0 first (R355) -/
  hostKey : List Byte
  /-- timebase of the latest valid request -/
  lastValid : Nat
  /-- highest SEQ executed -/
  highSeq : Nat
  /-- the latest 64 replies, newest first: SEQ, command, status, payload -/
  cache : List (Nat × (BitVec 16 × (Nat × List Byte)))
deriving DecidableEq, Repr

/-- A queued event (R333). -/
structure Event where
  seq : Nat
  code : Nat
  handle : Word32
  timeNs : Nat
  ordinal : Nat
  detail : List Byte
  /-- when it was last sent; none while no session has held control -/
  sentAt : Option Nat
deriving DecidableEq, Repr

structure Leat where
  listening : Bool
  tailraceOpen : Bool
  /-- the commit point of an image load has been passed since power-on reset (R343) -/
  tailraceDone : Bool
  sessions : List Session
  nextSession : Nat
  /-- oldest first, at most 256 -/
  events : List Event
  nextEvent : Nat
deriving DecidableEq, Repr

inductive OpKind where
  | job | image | snapshot | restore | scrub | selfTest
deriving DecidableEq, Repr

inductive OpState where
  | running | suspending | suspended | cancelling | done | failed | cancelled
deriving DecidableEq, Repr

/-- The record of a long operation (R334). -/
structure Op where
  handle : Word32
  kind : OpKind
  state : OpState
  status : Nat
  progress : Nat
  timeNs : Nat
  ordinal : Nat
deriving DecidableEq, Repr

/-- What the running operations other than training hold. -/
structure Work where
  /-- scrub: stores named and the next line (R129) -/
  scrubStores : BitVec 3
  scrubLine : Nat
  /-- self-test: next physical Mill (R319, R335) -/
  testMill : Nat
deriving DecidableEq, Repr

/-- A queue-pair descriptor (R340). -/
structure QpDesc where
  port : Fin 2
  pmtu : Nat
  dscp : BitVec 6
  remoteQpn : BitVec 24
  localPsn : BitVec 24
  remotePsn : BitVec 24
  gid : List Byte
deriving DecidableEq, Repr

/-- What an outstanding request of a queue pair was issued for. -/
inductive ReqOwner where
  | data | snapPage (k : Nat) | snapTable | restTable | restPage (k : Nat)
deriving DecidableEq, Repr

/-- One outstanding request (R341). -/
structure Req where
  psn : BitVec 24
  owner : ReqOwner
  /-- true for RDMA READ, false for SEND -/
  read : Bool
  addr : Nat
  rkey : Word32
  len : Nat
  payload : List Byte
  sentAt : Nat
  retries : Nat
  /-- waiting for the 1 ms of an RNR NAK, received then -/
  rnrAt : Option Nat
  /-- where the data service wants the data (R279) -/
  dest : Nat
deriving DecidableEq, Repr

structure Qp where
  desc : QpDesc
  nextPsn : BitVec 24
  /-- oldest first -/
  reqs : List Req
  /-- send rate in bit/s -/
  rate : Nat
  lastCnp : Nat
deriving DecidableEq, Repr

/-- A firmware update in progress (R357, R369). -/
structure Fw where
  busy : Bool
  phase : Nat
  result : Nat
  progress : Nat
  addr : Nat
  len : Nat
  /-- the copy in Miller SRAM that phase 1 took -/
  image : List Byte
deriving DecidableEq, Repr

structure Sec where
  lastAction : Byte
  lastResult : Byte
  guard : Byte
  action : BitVec 4
  argLo : Word32
  argHi : BitVec 16
  fw : Fw
  /-- nonce and bytes of the attestation report last built (R362) -/
  report : Option (List Byte × List Byte)
deriving DecidableEq, Repr

structure Smb where
  /-- telemetry frame SEQ and contents (R404) -/
  seq : Byte
  frame : List Byte
  /-- the frame latched by the latest Block Read -/
  latched : List Byte
deriving DecidableEq, Repr

structure Tap where
  ir : Byte
  boundary : BitVec 205
  /-- an EXTEST instruction holds the pairs (R407) -/
  extest : Bool
  /-- the Miller cores are under debug (R363) -/
  millerDebug : Bool
deriving DecidableEq, Repr

/-- A Tailrace test in progress (R346, R347): operation code, lane selector, end time. -/
structure LaneTest where
  op : Byte
  sel : BitVec 16
  arg : Word64
  endAt : Nat
deriving DecidableEq, Repr

/-- What stands on a port's transmitters (R382). -/
inductive LaneDrive where
  | undriven | idle | active
deriving DecidableEq, Repr

/-- What the block has sent. -/
inductive Output where
  /-- a Leat datagram: port, TYPE, SESSION, SEQ, COMMAND, STATUS, payload, tag (R326) -/
  | leat (port : Fin 2) (typ : Byte) (session : Word32) (seq : Nat) (command : BitVec 16) (status : Nat)
      (payload tag : List Byte)
  /-- a Tailrace reply: port, destination, OPCODE, TAG, STATUS, ARG, payload (R345) -/
  | tailrace (port : Fin 2) (dst : BitVec 48) (opcode : Byte) (tag : BitVec 16) (status : Nat) (arg : Word64)
      (payload : List Byte)
  | arpReply (port : Fin 2) (dstMac : BitVec 48) (dstIp : Word32) (mac : BitVec 48) (ip : Word32)
  | icmpReply (port : Fin 2) (v6 : Bool) (src dst : BitVec 128) (payload : List Byte)
  | neighbourAdvert (port : Fin 2) (dst target : BitVec 128) (mac : BitVec 48)
  /-- a DHCPv4 message of the module: port, client identifier (the serial number), and the address it requests; none in a
  DISCOVER (R325) -/
  | dhcp (port : Fin 2) (clientId : Word64) (request : Option Word32)
  /-- an RDMA READ or SEND request: QPN, the queue pair's descriptor (port, DSCP, remote QPN and GID), PSN, read, remote address,
  key, length, payload (R325, R340) -/
  | roce (qpn : Nat) (desc : QpDesc) (psn : BitVec 24) (read : Bool) (addr : Nat) (rkey : Word32) (len : Nat)
      (payload : List Byte)
  | smbByte (b : Byte) (pec : Option Byte)
  | smbBlock (bs : List Byte) (pec : Option Byte)
  | smbNack (code : Byte)
  /-- what the test port shifts out: bit count and value -/
  | tdo (bits : Nat) (value : Nat)
  /-- a Flume flit: port and code words (R235) -/
  | flit (port : Fin 12) (words : List (BitVec 72))
  /-- what a read or an operation at the memory returns to its requester: PORT code, lane, bytes (R84, R88, R89) -/
  | returned (port lane : Nat) (data : List Byte)
  /-- lanes of a port driven as signals: electrically idle, or training -/
  | lanes (port : Fin 12) (active : Bool)
deriving DecidableEq, Repr

end Sys2Proof.Machine
end

