-- ==== Sys2Proof/Machine/State.lean ====
section
/-! DEFINITION. The state of the module, its value right after reset, and the reasons for which a command can stop. -/
namespace Sys2Proof.Machine

/-- Reasons for a fault. The block has no exception entry and no address that stops it (R101, R105): the one reason
is raised by no command, and would be safe. -/
inductive Fault where
  /-- raised by no command; safe, since the block then stops where the hardware goes on -/
  | stuck
deriving DecidableEq, Repr

/-- Reasons for a refusal. -/
inductive Refusal where
  /-- the command has no meaning yet; raised by an arm of exec alone; safe -/
  | notModelled (mnemonic : String)
deriving DecidableEq, Repr

/-- The state: every register, buffer, counter, mode and pin, and the queue of commands. -/
structure State where
  /-- the commands waiting, first in first out (the block interface) -/
  pending : List Instr
  /-- draws of free values so far; the model's own field, DESIGN CHOICE 0, log 4 -/
  fresh : Nat
  /-- what the block has sent, newest first; the model's record of its outputs -/
  out : List Output
  pwr : Pwr
  clk : Clk
  time : Time
  nv : Nv
  boot : Boot
  /-- Ethernet ports 0 and 1 -/
  eth : NMap Eth
  leat : Leat
  /-- records of the long operations, newest first (R334) -/
  ops : List Op
  /-- serial number of the latest handle -/
  opSerial : Nat
  work : Work
  /-- queue pairs by local QPN (R340) -/
  qps : NMap (Option Qp)
  sec : Sec
  smb : Smb
  tap : Tap
  /-- Tailrace tests in progress (R346, R347) -/
  tests : List LaneTest
  /-- length named by FW_BEGIN (R358); DESIGN CHOICE 0, log 2 -/
  fwLen : Nat
  /-- 64-bit source count of every event counter, by offset in the COUNTER block (R366) -/
  cnt : NMap Nat
  /-- baselines (R366) -/
  base : NMap Nat
  /-- presented values (R24, R366) -/
  mirror : NMap Word32
  /-- COUNTER_CLEAR as last written (R369) -/
  ctrClear : Word32
  /-- retirement state by physical Mill (R20, R318-R320) -/
  mills : NMap MillRec
  /-- bytes of the data address space; an unlisted byte is 0, log 1 -/
  mem : NMap Byte
  /-- syndrome of the stored word at address 8 × key (R125, R126); an unlisted word has a valid check, log 5 -/
  syn : NMap Byte
  /-- FP32 of Kettle slots, by ((Mill × 2 + side) × 8 + slot) × 16384 + 128 × row + column; 0 at reset, log 6 -/
  kettle : NMap Nat
  /-- syndrome of a pair of adjacent Kettle elements, by half the key of kettle (R127) -/
  kettleSyn : NMap Byte
  memctl : MemCtl
  /-- Hopper banks, by 16 × physical Mill + bank; OFF at reset (R99) -/
  banks : NMap Bank
  /-- Race pointers by raceKey (R91) -/
  races : NMap RaceSt
  /-- kept K indices that Carders have sent to Shoes and no pass has taken yet, each with its rank in the values tensor, by
  raceKey, oldest first (R166, R167, R411) -/
  feeds : NMap (List (List (Nat × Nat)))
  /-- parts of a FOLDS list drained since its last fold, by list × 2^32 + row block × 2^16 + column block: place in the list
  and the descriptors of the tile's clearing pass (R144) -/
  folds : NMap (List (Nat × Nat × Nat))
  /-- turn sequence positions by PORT code (R199, R200) -/
  ports : NMap PortPos
  /-- presentations that wait for their turns, by dueKey (R201) -/
  due : NMap (List Due)
  /-- routers, by class × 512 + index as in their PORT codes, whose next word comes with an error on its link: 1 correctable, 2
  uncorrectable (R127, R134); the model's own field for what the links do -/
  noc : NMap Nat
  /-- streams by 8 × owner + kind (R203) -/
  streams : NMap Stream
  /-- shape registers that differ from 0xFFFF_FFFF, by 256 × logical Mill + register (R205) -/
  shapes : NMap Nat
  /-- TENTER_STATUS by Floor (R148) -/
  tenters : NMap Tenter
  /-- CARDER_STATUS by physical Mill (R177) -/
  carders : NMap Nat
  /-- the installed image (R209) -/
  image : Option Image
  /-- an image whose load checks have passed, before its commit point (R210) -/
  loading : Option Image
  img : ImgStatus
  shapeLog : ShapeLog
  /-- Weirs by physical number (R214) -/
  weirs : NMap WeirSt
  weirLog : WeirLog
  deadLog : DeadLog
  ctx : Ctx
  /-- Flume ports 0-11 (R233-R246, R267) -/
  flume : NMap FlumePort
  wheel : Wheel
  run : Run
  snap : Snap
  restore : Restore
  health : Health
deriving DecidableEq, Repr

/-- Power manager at reset: input present, PWR_EN low; log 2. -/
def Pwr.init : Pwr :=
  { pwrEn := false, auxOn := true, inRange := true, pwrGood := false, resetLow := false, pdOn := 1, startStep := 0
    thermTrip := false, railLock := false, tripped := false, railFaulted := false, targetC := 100, baseMv := 700
    capW := 700, inputMv := 0, windowW := 0, peakHist := [], alert := 0, thermHot := false, plCur := 0, plBusy := false
    plResult := 0xFF, plReq := 0, floors := [], borrowMv := 0, spineTj := 0 }
def Clk.init : Clk := ⟨false, false, 0, [], [], 0, 0⟩
def Time.init : Time := ⟨0, false, false, false, 0⟩
/-- Flash erased and fuses as a module leaves the factory, with stand-in contents; log 3. -/
def Nv.init : Nv := ⟨[], 0, [], 0, [], 0, 0, none, false, []⟩
def Boot.init : Boot := ⟨false, false, false, 0, 0, 0, [], false, []⟩
def Leat.init : Leat := ⟨false, false, false, [], 1, [], 1⟩
def Work.init : Work := ⟨0, 0, 0⟩
def Fw.init : Fw := ⟨false, 0, 0, 0, 0, 0, []⟩
def Sec.init : Sec := ⟨0, 0xFF, 0, 0, 0, 0, Fw.init, none⟩
def Smb.init : Smb := ⟨0, [], []⟩
def Tap.init : Tap := ⟨0x01, 0, false, false⟩
def MemCtl.init : MemCtl := ⟨0, 0, 0, false, 0, false, 0, 0, [], []⟩
def ImgStatus.init : ImgStatus := ⟨0xFF, 0, 0⟩

/-- The module right after reset. -/
def State.reset : State :=
  { pending := []
    fresh := 0
    out := []
    pwr := Pwr.init
    clk := Clk.init
    time := Time.init
    nv := Nv.init
    boot := Boot.init
    eth := []
    leat := Leat.init
    ops := []
    opSerial := 0
    work := Work.init
    qps := []
    sec := Sec.init
    smb := Smb.init
    tap := Tap.init
    tests := []
    fwLen := 0
    cnt := []
    base := []
    mirror := []
    ctrClear := 0
    mills := []
    mem := []
    syn := []
    kettle := []
    kettleSyn := []
    memctl := MemCtl.init
    banks := []
    races := []
    feeds := []
    folds := []
    ports := []
    due := []
    noc := []
    streams := []
    shapes := []
    tenters := []
    carders := []
    image := none
    loading := none
    img := ImgStatus.init
    shapeLog := ⟨false, 0, 0, 0, 0⟩
    weirs := []
    weirLog := ⟨false, 0, 0⟩
    deadLog := ⟨false, 0, 0, 0⟩
    ctx := ⟨false, 0, 0, 0, false⟩
    flume := []
    wheel := Wheel.init
    run := Run.init
    snap := Snap.init
    restore := Restore.init
    health := Health.init }

end Sys2Proof.Machine
end

