-- ==== Sys2Proof/Machine/Flags.lean ====
section
/-! DEFINITION. Event counters, their mirror, alert bits and timestamps (R24, R366, R367, R393). -/
namespace Sys2Proof.Machine

/-! ### Counter offsets in the COUNTER block -/

/-- NAN_COUNT, INF_COUNT, SAT_COUNT, CODE_FAULT_COUNT of a tensor group: k = 0-3 (R50). -/
def cGroup (g k : Nat) : Nat := 0x1000 + 0x10 * g + 4 * k
/-- PASS_COUNT, BUSY_UNITS, HOLD_UNITS, GATED_UNITS of a Stone (R79). -/
def cStone (m : Nat) (sideB : Bool) (k : Nat) : Nat := 0x10000 + 0x20 * m + 0x10 * b2n sideB + 4 * k
/-- BANK_CONFLICT, NARROW_DEFER, WRITE_OVERLAP, RACE_PROD_STALL, RACE_CONS_STALL, OFF_BANK_ACCESS, WINDOW_REFUSED,
CAS_MISS of a Hopper (R103). -/
def cHopper (m k : Nat) : Nat := 0x14000 + 0x20 * m + 4 * k
/-- DRAM_CE, DRAM_UE, SCRUB_CE, SCRUB_UE of a package (R134). -/
def cPkg (p k : Nat) : Nat := 0x18000 + 0x10 * p + 4 * k
/-- PROTECTED_ACCESS, UNMAPPED_ACCESS, CACHE_HIT_UNITS, CACHE_FILL_UNITS (R134). -/
def cMem (k : Nat) : Nat := 0x18100 + 4 * k
/-- POND_CE, POND_UE, HOPPER_CE, HOPPER_UE, KETTLE_CE, KETTLE_UE, NOC_CE, NOC_UE of a Mill (R134). -/
def cMill (m k : Nat) : Nat := 0x19000 + 0x20 * m + 4 * k
/-- CLAMPED_ELEMENTS, MISALIGNED_UNITS of a Mill (R149). -/
def cLayout (m k : Nat) : Nat := 0x1C000 + 0x10 * m + 4 * k
/-- TENTER_TILE_UNITS, TENTER_SERIAL, TENTER_CLAMPED of a Floor (R149). -/
def cTenter (f k : Nat) : Nat := 0x1D000 + 0x10 * f + 4 * k
/-- INDEX_CLAMP_NEG, INDEX_CLAMP_HIGH, DUP_REUSE_UNITS, MERGE_ORDER_FAULT, PACK_DISCARD, MASK_FAULT, AUDIT_TOKENS,
AUDIT_MISSED of a Carder (R178). -/
def cCarder (m k : Nat) : Nat := 0x1E000 + 0x20 * m + 4 * k
/-- ROUTE_CASCADE, ROUTE_SLOT_UNPLACED, ROUTE_DROPPED, ROUTE_NONFINITE of a router (R191). -/
def cRouter (r k : Nat) : Nat := 0x20000 + 0x10 * r + 4 * k
/-- ROUTE_TAG_MISMATCH (R191). -/
def cTagMismatch : Nat := 0x20400
/-- SHAPE_OVERRUN, ZERO_SHAPE of a Mill (R213). -/
def cShape (m k : Nat) : Nat := 0x21000 + 8 * m + 4 * k
/-- WEIR_EARLY, WEIR_FAULT, WEIR_ABANDONED, DEADLOCK_REPORTS, LEND_EVENTS (R232). -/
def cWeir (k : Nat) : Nat := 0x22000 + 4 * k
/-- CE_UNITS, UE_FLITS, REPLAY, RETRAIN, LANE_SPARE, LANE_READMIT, LINK_DOWN, WINDOW_REJECT of a Flume port (R269). -/
def cFlume (p k : Nat) : Nat := 0x23000 + 0x20 * p + 4 * k
/-- RING_RESCALE, RING_SATURATE, DIGEST_MISMATCH, STEP_RESTART (R269). -/
def cWheel (k : Nat) : Nat := 0x23200 + 4 * k
/-- MB_WITHDRAWN, STEP_SKIPPED, LATE_VOTE, LOSS_SPIKE, LOSS_SCALE_FLOOR, DATA_BAD_RECORD, DATA_FETCH_RETRY,
DATA_FETCH_FAIL (R301). -/
def cRun (k : Nat) : Nat := 0x24000 + 4 * k
/-- HEALTH_TRIGGERS, SNAP_OPENED, SNAP_CLOSED, SNAP_FAILED, FIRST_TOUCH_COPIES, TOUCH_STALL_UNITS, SNAP_UE_PAGES,
RESTORE_MISMATCH, MILL_RETIRED (R322). -/
def cSnap (k : Nat) : Nat := 0x25000 + 4 * k
/-- RX_FRAME, TX_FRAME, FCS_ERRORS, FEC_CE, FEC_UE, ETH_LINK_DOWN, ROCE_RETRY, ROCE_UNEXPECTED, CNP_RECEIVED (R351). -/
def cEth (p k : Nat) : Nat := 0x26000 + 0x40 * p + 4 * k
/-- LEAT_AUTH_FAIL, LEAT_REPLAY, LEAT_EVENT_LOST, TAILRACE_REFUSED (R351). -/
def cLeat (k : Nat) : Nat := 0x26100 + 4 * k
/-- DROOP_EVENTS, ENVELOPE_CUT, THERMAL_CUT, FLOOR_BREACH, PLL_UNLOCK, INPUT_EXCURSIONS (R395). -/
def cPower (k : Nat) : Nat := 0x27000 + 4 * k

/-- Whether `off` is word `k` of one of `n` records of `stride` bytes from `b`. -/
def inRecords (off b stride n : Nat) (ks : List Nat) : Bool :=
  decide (b ≤ off) && decide (off < b + stride * n) && ks.any fun k => (off - b) % stride == 4 * k

/-- The unit of a counter: one presented count per so many source counts (R366 and the chapters' layouts). -/
def counterUnit (off : Nat) : Nat :=
  if inRecords off 0x10000 0x10 304 [3] then 2 ^ 32
  else if inRecords off 0x10000 0x10 304 [1, 2] || inRecords off 0x14000 0x20 152 [3, 4]
      || inRecords off 0x18100 0x10 1 [2, 3] || inRecords off 0x1C000 0x10 152 [1] || inRecords off 0x1D000 0x10 8 [0]
      || inRecords off 0x1E000 0x20 152 [2] || inRecords off 0x23000 0x20 12 [0]
      || inRecords off 0x26000 0x40 2 [0, 1, 3] || inRecords off 0x27000 0x18 1 [1, 2] then 65536
  else 1

/-- Add to a source count. -/
def State.countN (s : State) (off n : Nat) : State :=
  { s with cnt := NMap.set 0 s.cnt off (NMap.get 0 s.cnt off + n) }
/-- Count once. -/
def State.count (s : State) (off : Nat) : State := s.countN off 1
/-- The source count of a counter. -/
def State.source (s : State) (off : Nat) : Nat := NMap.get 0 s.cnt off

/-- The value a refresh presents (R366): saturated values stay. -/
def State.presented (s : State) (off : Nat) : Word32 :=
  let old := NMap.get (0 : Word32) s.mirror off
  let d := (NMap.get 0 s.cnt off - NMap.get 0 s.base off) / counterUnit off
  if old = 0xFFFFFFFF ∨ 0x7FFFFFFF < d then 0xFFFFFFFF else BitVec.ofNat 32 d

/-- Set bits of GOV_ALERT (R393). -/
def State.setAlert (s : State) (b : Nat) : State := { s with pwr.alert := s.pwr.alert ||| BitVec.ofNat 5 (2 ^ b) }
/-- ALERT_N is low while any GOV_ALERT bit is set, during a thermal trip, and while rails are held off (R393, R388,
R389). -/
def State.alertLow (s : State) : Bool := decide (s.pwr.alert ≠ 0) || s.pwr.thermTrip || s.pwr.railLock

/-- What stands on the transmitters of Flume port `p` (R382): nothing while its domain is unpowered, electrical idle during a
reset, at the levels QUIET and COLD and while the port is DISABLED, DOWN or in DETECT (R242), and signals otherwise, as under
a Tailrace test or EXTEST. -/
def State.flumeDrive (s : State) (p : Nat) : LaneDrive :=
  if 2 ≤ s.pwr.plCur.toNat then .idle
  else if !s.pwr.pdOn.getLsbD (2 + p / 4) then .undriven
  else if !s.pwr.pwrGood || s.pwr.resetLow then .idle
  else if s.tap.extest || s.tests.any (fun x => decide (x.sel.toNat / 256 = 0x10 + p)) then .active
  else match (NMap.get FlumePort.init s.flume p).st with
    | .disabled => .idle
    | .down => .idle
    | .detect => .idle
    | _ => .active
/-- What stands on the transmitters of Ethernet port `p` (R382): as for a Flume port, and idle while ENABLE is 0 (R349). The
lanes that a mode does not use are idle besides (Eth.lanes, R323). -/
def State.ethDrive (s : State) (p : Nat) : LaneDrive :=
  if !s.pwr.pdOn.getLsbD 1 then .undriven
  else if !s.pwr.pwrGood || s.pwr.resetLow || !(NMap.get Eth.init s.eth p).live.getLsbD 31 then .idle
  else .active

/-- The timebase as the 64 bits that reports carry. -/
def State.now (s : State) : Nat := s.time.ns

end Sys2Proof.Machine
end

