-- ==== Sys2Proof/Machine/Ops.lean ====
section
/-! DEFINITION. The operations shared by every family: outputs, Leat datagrams, events and long-operation records (R326, R327, R333, R334). -/
namespace Sys2Proof.Machine

/-- Send something. -/
def State.emit (s : State) (o : Output) : State := { s with out := o :: s.out }

/-- One frame received on an Ethernet port (RX_FRAME_UNITS, R351). -/
def State.rx (s : State) (p : Fin 2) : State := s.count (cEth p.val 0)
/-- One frame sent on an Ethernet port (TX_FRAME_UNITS, R351). -/
def State.tx (s : State) (p : Fin 2) : State := s.count (cEth p.val 1)

/-- The 32 header bytes of a Leat datagram (R326). -/
def leatHeader (magic : BitVec 16) (version typ : Byte) (session : Word32) (seq : Nat) (command : BitVec 16)
    (status len : Nat) : List Byte :=
  leBytes 2 magic.toNat ++ [version, typ] ++ leBytes 4 session.toNat ++ leBytes 8 seq ++ leBytes 2 command.toNat ++
    leBytes 2 status ++ leBytes 4 len ++ leBytes 8 0

/-- Send a datagram in a session, tagged under its device-to-host key (R327). -/
def State.sendLeat (s : State) (ses : Session) (typ : Byte) (seq : Nat) (command : BitVec 16) (status : Nat)
    (payload : List Byte) : State :=
  (s.emit (.leat ses.port typ ses.id seq command status payload
    (hmac512 ses.keyOut (leatHeader 0x4C54 1 typ ses.id seq command status payload.length ++ payload)))).tx ses.port

/-- The session that holds control. -/
def State.controlSession (s : State) : Option Session := (s.leat.sessions.filter (·.control)).head?

/-- The 40 payload bytes of an event (R333). -/
def eventPayload (e : Event) : List Byte :=
  leBytes 2 e.code ++ leBytes 2 0 ++ leBytes 4 e.handle.toNat ++ leBytes 8 e.timeNs ++ leBytes 4 e.ordinal ++
    leBytes 4 1 ++ padTo 16 0 e.detail

/-- Send a queued event to a session. -/
def State.sendEvent (s : State) (ses : Session) (e : Event) : State :=
  s.sendLeat ses 0x05 e.seq 0 0 (eventPayload e)

/-- Mark an event as sent now. -/
def State.markSent (s : State) (seq : Nat) : State :=
  { s with leat.events := s.leat.events.map fun e => if e.seq = seq then { e with sentAt := some s.time.ns } else e }

/-- Queue an event, merged with an unacknowledged one of the same code and DETAIL; a full queue loses its oldest
(R333). The event goes to the control session at once. DETAIL is given as 32-bit words, low word first (log 10). -/
def State.raise (s : State) (code : Nat) (handle : Word32) (detail : List Nat) : State :=
  let d := padTo 16 0 (detail.flatMap (leBytes 4))
  if s.leat.events.any (fun e => e.code == code && e.detail == d) then s
  else
    let e : Event := ⟨s.leat.nextEvent, code, handle, s.time.ns, s.time.ordinal, d, none⟩
    let lost := decide (256 ≤ s.leat.events.length)
    let evs := if lost then s.leat.events.drop 1 else s.leat.events
    let s1 := { s with leat.events := evs ++ [e], leat.nextEvent := s.leat.nextEvent + 1 }
    let s2 := if lost then s1.count (cLeat 2) else s1
    match s2.controlSession with
    | none => s2
    | some ses => (s2.sendEvent ses e).markSent e.seq

/-- ACCESS_FAULT with the mirror address of the counter that rose (R101, R105). -/
def State.accessFault (s : State) (off : Nat) : State := (s.count off).raise 0x0007 0 [0x300000 + off]

/-- The mirror takes one counter's presented value (R366). -/
def State.sampleOne (s : State) (off : Nat) : State := { s with mirror := NMap.set 0 s.mirror off (s.presented off) }
/-- A counter saturates for the first time against the mirror before the refresh (R366). -/
def State.saturates (s : State) (off : Nat) : Bool :=
  s.presented off == 0xFFFFFFFF && NMap.get (0 : Word32) s.mirror off != 0xFFFFFFFF

/-- Refresh every counter: all are sampled at one boundary, and those that saturate there raise COUNTER_OVERFLOW after it, so
that what the events themselves count is seen at the next refresh (R24, R366). -/
def State.refreshAll (s : State) : State :=
  let offs := s.cnt.map (·.1)
  (offs.filter s.saturates).foldl (fun t o => t.raise 0x0008 0 [0x300000 + o]) (offs.foldl State.sampleOne s)

/-- Clear one counter: the baseline takes the source count and the presented value is refreshed (R367). -/
def State.clearOne (s : State) (off : Nat) : State :=
  { s with base := NMap.set 0 s.base off (NMap.get 0 s.cnt off), mirror := NMap.set 0 s.mirror off 0 }

/-- A write to COUNTER_CLEAR (R367). -/
def State.counterClear (s : State) (v : Nat) : State :=
  let off := bitsOf v 17 2 * 4
  let n := bitsOf v 30 18 + 1
  let sel := s.cnt.map (·.1) |>.filter fun o => bitOf v 31 || (decide (off ≤ o) && decide (o < off + 4 * n))
  sel.foldl State.clearOne s

/-! ### Long operations (R334, R335) -/

def OpKind.code : OpKind → Nat
  | .job => 1 | .image => 2 | .snapshot => 3 | .restore => 4 | .scrub => 5 | .selfTest => 6
def OpState.code : OpState → Nat
  | .running => 0 | .suspending => 1 | .suspended => 2 | .cancelling => 3 | .done => 4 | .failed => 5 | .cancelled => 6
def OpState.terminal : OpState → Bool
  | .done => true | .failed => true | .cancelled => true | _ => false

/-- The operation with a handle. -/
def State.op (s : State) (h : Word32) : Option Op := (s.ops.filter fun o => o.handle == h).head?
/-- The latest operation of a kind that is not terminal. -/
def State.opOf (s : State) (k : OpKind) : Option Op :=
  (s.ops.filter fun o => o.kind == k && !o.state.terminal).head?
def State.busyOp (s : State) (k : OpKind) : Bool := (s.opOf k).isSome
/-- The handle of the latest operation of a kind that is not terminal, or 0. -/
def State.handleOf (s : State) (k : OpKind) : Word32 :=
  match s.opOf k with
  | some o => o.handle
  | none => 0

/-- Keep at most 64 records of terminal operations, dropping the oldest (R334). -/
def keepTerminal : Nat → List Op → List Op
  | _, [] => []
  | n, o :: os =>
    if o.state.terminal then (if n = 0 then keepTerminal 0 os else o :: keepTerminal (n - 1) os)
    else o :: keepTerminal n os

/-- Issue a new operation; its handle is the kind in [31:28] and the serial number in [27:0]. -/
def State.newOp (s : State) (k : OpKind) : State × Word32 :=
  let n := s.opSerial + 1
  let h := BitVec.ofNat 32 (k.code * 2 ^ 28 + n % 2 ^ 28)
  ({ s with ops := ⟨h, k, .running, 0, 0, s.time.ns, s.time.ordinal⟩ :: s.ops, opSerial := n }, h)

/-- Change an operation's state; each change raises OP_STATE (R334). -/
def State.opMove (s : State) (h : Word32) (st : OpState) (status : Nat) : State :=
  match s.op h with
  | none => s
  | some o =>
    if o.state = st ∧ o.status = status then s
    else
      let upd := s.ops.map fun x =>
        if x.handle = h then
          (if x.state = st then { x with status := status }
           else { x with state := st, status := status, timeNs := s.time.ns, ordinal := s.time.ordinal }) else x
      let s1 := { s with ops := keepTerminal 64 upd }
      if o.state = st then s1 else s1.raise 0x0001 h [st.code, status]

/-- The packages are in self-refresh: the module is configured and waits for work, with no operation that is not terminal and no
open snapshot (01_architecture.md, Where idle power goes; log 84). -/
def State.selfRefresh (s : State) : Bool :=
  s.image.isSome && !s.ctx.active && s.ops.all (·.state.terminal) && decide (s.snap.st = .idle)

/-- Set an operation's PROGRESS. -/
def State.opProgress (s : State) (h : Word32) (p : Nat) : State :=
  { s with ops := s.ops.map fun x => if x.handle = h then { x with progress := p } else x }

/-- The 32-byte record that OP_QUERY returns (R334). -/
def opRecord (o : Op) : List Byte :=
  [BitVec.ofNat 8 o.state.code, BitVec.ofNat 8 o.kind.code, 0, 0] ++ leBytes 4 o.status ++ leBytes 8 o.progress ++
    leBytes 8 o.timeNs ++ leBytes 4 o.ordinal ++ leBytes 4 1

end Sys2Proof.Machine
end

