-- ==== Sys2Proof/Machine/Memory.lean ====
section
/-! DEFINITION. The data address space, the raw layout of the packages and the (72,64) code (R80, R104-R106, R121-R127). -/
namespace Sys2Proof.Machine

/-- Where a data address lies (R104). -/
inductive Region where
  | data
  | check
  | metadata
  | slice (m off : Nat)
  | hub
  | hopper (m off : Nat)
  | unassigned
deriving DecidableEq, Repr

def regionOf (a : Nat) : Region :=
  if a < 0x00A800000000 then .data
  else if a < 0x00BD00000000 then .check
  else if a < 0x00C000000000 then .metadata
  else if 0x010000000000 ≤ a ∧ a < 0x0100BE000000 then
    .slice ((a - 0x010000000000) / 0x1400000) ((a - 0x010000000000) % 0x1400000)
  else if 0x0100BE000000 ≤ a ∧ a < 0x0100C0000000 then .hub
  else if 0x020000000000 ≤ a ∧ a < 0x020013000000 then
    .hopper ((a - 0x020000000000) / 0x200000) ((a - 0x020000000000) % 0x200000)
  else .unassigned

/-- First address of the metadata region. -/
def metaBase : Nat := 0x00BD00000000
/-- Bytes of metadata payload; then its check bytes, then the reserved part (R122). -/
def metaPayload : Nat := 0x2A0000000
/-- Package of a region offset (R122). -/
def pkgOf (x : Nat) : Nat := x / 256 % 12

/-! ### The (72,64) code (R125, R126) -/

/-- The subsets of {0, …, 7} of `k` elements from `lo` up, as bit masks, in lexicographic order; `fuel` bounds the
depth. -/
def subsets : Nat → Nat → Nat → List Nat
  | _, 0, _ => [0]
  | 0, _, _ => []
  | fuel + 1, k + 1, lo =>
    if 8 ≤ lo then []
    else (subsets fuel k (lo + 1)).map (· + 2 ^ lo) ++ subsets fuel (k + 1) (lo + 1)

/-- H_i for i = 0-63 (R125). -/
def hSets : List Nat := subsets 16 3 0 ++ (subsets 16 5 0).take 8

/-- The exclusive OR of the sets of the data bits that are 1. -/
def checkAux : List Nat → Nat → Nat
  | [], _ => 0
  | h :: hs, d => (if d % 2 = 1 then h else 0) ^^^ checkAux hs (d / 2)
/-- The check byte of a 64-bit word (R125). -/
def checkOf (d : Nat) : Nat := checkAux hSets d

/-- What a syndrome says of a word (R126). -/
inductive Ecc where
  | ok
  /-- corrected; the word as corrected -/
  | ce (d : Nat)
  | ue
deriving DecidableEq, Repr

def eccOf (d syn : Nat) : Ecc :=
  if syn = 0 then .ok
  else if syn ∈ [1, 2, 4, 8, 16, 32, 64, 128] then .ce d
  else match findIdx (· == syn) hSets with
    | some i => .ce (d ^^^ 2 ^ i)
    | none => .ue

/-! ### Stored bytes -/

/-- The byte as stored. -/
def State.rawByte (s : State) (a : Nat) : Byte := NMap.get 0 s.mem a
/-- The 64-bit word at 8 × `w` as stored. -/
def State.rawWord (s : State) (w : Nat) : Nat := leNat ((List.range 8).map fun i => s.rawByte (8 * w + i))
/-- The syndrome of a stored word. -/
def State.synOf (s : State) (w : Nat) : Nat := (NMap.get (0 : Byte) s.syn w).toNat
/-- The word as it is delivered: corrected if it can be, as read if not (R127, R130). -/
def State.word (s : State) (w : Nat) : Nat :=
  match eccOf (s.rawWord w) (s.synOf w) with
  | .ce d => d
  | _ => s.rawWord w
/-- The byte as it is delivered. -/
def State.byte (s : State) (a : Nat) : Byte :=
  if s.synOf (a / 8) = 0 then s.rawByte a else BitVec.ofNat 8 (s.word (a / 8) / 256 ^ (a % 8))
/-- Bytes as they are delivered. -/
def State.bytes (s : State) (a n : Nat) : List Byte := (List.range n).map fun i => s.byte (a + i)
/-- A little-endian number of `n` bytes. -/
def State.num (s : State) (a n : Nat) : Nat := leNat (s.bytes a n)

/-- Store a byte, keeping the check valid. -/
def State.setByte (s : State) (a : Nat) (b : Byte) : State := { s with mem := NMap.set 0 s.mem a b }
def State.setBytes (s : State) (a : Nat) : List Byte → State
  | [] => s
  | b :: bs => (s.setByte a b).setBytes (a + 1) bs
/-- Write the delivered value of a word back with a valid check (the repair of R127, the merge of R82 and R119). -/
def State.settle (s : State) (w : Nat) : State :=
  if s.synOf w = 0 then s
  else { s.setBytes (8 * w) (leBytes 8 (s.word w)) with syn := NMap.set 0 s.syn w 0 }
/-- Write one byte: the word is read, merged and written (R82, R119). -/
def State.poke (s : State) (a : Nat) (b : Byte) : State := (s.settle (a / 8)).setByte a b
/-- Write bytes at ascending addresses. -/
def State.pokes (s : State) (a : Nat) : List Byte → State
  | [] => s
  | b :: bs => (s.poke a b).pokes (a + 1) bs
/-- Zero words with valid checks over a range. -/
def State.zeroRange (s : State) (a n : Nat) : State :=
  { s with mem := NMap.clearRange s.mem a n, syn := NMap.clearRange s.syn (a / 8) (n / 8) }

/-! ### Check bytes and the raw reads of the Miller (R105, R123) -/

/-- The check byte stored for the word at 8 × `w`. -/
def State.checkByte (s : State) (w : Nat) : Byte := BitVec.ofNat 8 (checkOf (s.rawWord w) ^^^ s.synOf w)
/-- The data word guarded by byte `x` of an area of check bytes: line and word of R123. -/
def guardedWord (x : Nat) : Nat :=
  let n := x / 256
  let q := 8 * (n / 12) + x % 256 / 32
  ((q * 12 + n % 12) * 256 + 8 * (x % 32)) / 8
/-- A byte that the Miller reads untranslated: data and metadata payload as delivered, check bytes as stored. -/
def State.millerByte (s : State) (a : Nat) : Byte :=
  match regionOf a with
  | .check => s.checkByte (guardedWord (a - 0x00A800000000))
  | .metadata =>
    let x := a - metaBase
    if x < metaPayload then s.byte a
    else if x < metaPayload + 0x54000000 then s.checkByte (metaBase / 8 + guardedWord (x - metaPayload))
    else Config.freeMetaByte a
  | _ => s.byte a
def State.millerBytes (s : State) (a n : Nat) : List Byte := (List.range n).map fun i => s.millerByte (a + i)

/-! ### Stores, counters and logs of errors (R127, R131, R134) -/

/-- STORE code and the CE counter of the word that holds address `a`; the UE counter is the next. -/
def eccStore (a : Nat) : Nat × Nat :=
  match regionOf a with
  | .slice m _ => (1, cMill m 0)
  | .hopper m _ => (2, cMill m 2)
  | .metadata => (0, cPkg (pkgOf (a - metaBase)) 0)
  | _ => (0, cPkg (pkgOf a) 0)

/-- Record the first uncorrectable error (R131). -/
def State.logUe (s : State) (store a : Nat) : State :=
  if s.memctl.ueValid then s
  else { s with memctl.ueValid := true, memctl.ueStore := store, memctl.ueAddr := a }

/-- Words with a non-zero syndrome in a byte range, ascending. -/
def State.badWords (s : State) (a n : Nat) : List Nat :=
  (s.syn.filter fun p => decide (a < 8 * p.1 + 8) && decide (8 * p.1 < a + n)).map (·.1)

/-- Verify one word that leaves its store: a correction counts and repairs; an uncorrectable word counts and is
logged (R127, R131). True when it is uncorrectable. -/
def State.verifyWord (s : State) (w : Nat) : State × Bool :=
  let st := eccStore (8 * w)
  match eccOf (s.rawWord w) (s.synOf w) with
  | .ok => (s, false)
  | .ce _ => ((s.settle w).count st.2, false)
  | .ue => ((s.count (st.2 + 4)).logUe st.1 (8 * w), true)

/-- Verify the words of a list; the addresses of those that are uncorrectable. -/
def State.verifyWords (s : State) : List Nat → State × List Nat
  | [] => (s, [])
  | w :: ws =>
    let r := s.verifyWord w
    let t := r.1.verifyWords ws
    (t.1, if r.2 then 8 * w :: t.2 else t.2)

/-- Verify every word of a byte range. -/
def State.verify (s : State) (a n : Nat) : State × List Nat := s.verifyWords (s.badWords a n)

/-! ### Homes and the cache (R110-R114) -/

/-- The physical Mill whose slice is the home of a data-region line (R111). -/
def homeOf (img : Image) (a : Nat) : Nat := img.phys (a / 256 % 144)

/-- One use of a data-region line by a read at its home: a hit or a fill (R112, R114); `alloc` is false for a no-allocate
read. A no-allocate read that misses is counted in CACHE_FILL_UNITS, and a write is no use, neither of which the spec states
(log 82). -/
def State.cacheUse (s : State) (a : Nat) (alloc : Bool) : State :=
  match s.image with
  | none => s
  | some img =>
    let sets := 256 * img.cacheMib
    if sets = 0 then s
    else
      let n := a / 256
      let key := homeOf img a * 4096 + n / 144 % sets
      let tag := n / 144 / sets
      let ways := NMap.get [] s.memctl.cache key
      if ways.contains tag then
        { s.count (cMem 2) with memctl.cache := NMap.set [] s.memctl.cache key (tag :: ways.filter (· != tag)) }
      else if alloc then
        { s.count (cMem 3) with memctl.cache := NMap.set [] s.memctl.cache key ((tag :: ways).take 16) }
      else s.count (cMem 3)

/-- Uses of the cache by the lines of a data-region range, while a context runs (R112, R332). While none runs the spec says
only that a cached copy is updated (R113); the model leaves the order and the counters of the cache as they are (log 82). -/
def State.cacheRange (s : State) (a n : Nat) (alloc : Bool) : State :=
  if s.ctx.active && decide (a + n ≤ 0xA800000000) && decide (0 < n) then
    (List.range ((a + n - 1) / 256 - a / 256 + 1)).foldl (fun t i => t.cacheUse (256 * (a / 256 + i)) alloc) s
  else s

/-- Bytes of scratch in a used slice (R110). -/
def Image.scratchBytes (img : Image) : Nat := 0x1400000 - img.cacheMib * 0x100000

end Sys2Proof.Machine
end

