-- ==== Sys2Proof/Machine/RoceOps.lean ====
section
/-! DEFINITION. Queue pairs: issuing, resending and completing RDMA READ and SEND requests (R340, R341). -/
namespace Sys2Proof.Machine

/-- PMTU in bytes. -/
def QpDesc.mtu (d : QpDesc) : Nat := if d.pmtu = 1 then 1024 else if d.pmtu = 2 then 2048 else 4096

/-- A descriptor from its 64 bytes. -/
def QpDesc.parse (bs : List Byte) : QpDesc :=
  { port := if fieldAt bs 0 1 % 2 = 1 then 1 else 0, pmtu := fieldAt bs 1 1, dscp := BitVec.ofNat 6 (fieldAt bs 2 1)
    remoteQpn := BitVec.ofNat 24 (fieldAt bs 4 4), localPsn := BitVec.ofNat 24 (fieldAt bs 8 4)
    remotePsn := BitVec.ofNat 24 (fieldAt bs 12 4), gid := slice bs 16 16 }

/-- The ranges of R340's table: PORT 0 or 1, PMTU 1 to 3, DSCP six bits, reserved bytes and high bits zero. -/
def qpDescValid (bs : List Byte) : Bool :=
  decide (fieldAt bs 0 1 ≤ 1) && decide (1 ≤ fieldAt bs 1 1) && decide (fieldAt bs 1 1 ≤ 3) &&
    decide (fieldAt bs 2 1 < 64) && decide (fieldAt bs 3 1 = 0) && decide (fieldAt bs 4 4 < 2 ^ 24) &&
    decide (fieldAt bs 8 4 < 2 ^ 24) && decide (fieldAt bs 12 4 < 2 ^ 24) && (slice bs 32 32).all (· == 0)

/-- Line rate of a port's mode in force, in bit/s (R323); 0 with no mode. -/
def lineRate (mode : BitVec 3) : Nat :=
  (if mode = 0 ∨ mode = 1 ∨ mode = 2 then 100 else if mode = 3 then 50 else if mode = 4 then 25 else 0) * 1000000000

/-- The queue pair with a local QPN. -/
def State.qp (s : State) (n : Nat) : Option Qp := NMap.get none s.qps n
def State.setQp (s : State) (n : Nat) (q : Option Qp) : State := { s with qps := NMap.set none s.qps n q }

/-- Open a queue pair from its descriptor bytes. -/
def State.openQp (s : State) (n : Nat) (bs : List Byte) : State :=
  let d := QpDesc.parse bs
  let e := NMap.get Eth.init s.eth d.port.val
  s.setQp n (some ⟨d, d.localPsn, [], lineRate e.mode, s.time.ns⟩)

/-- Packets of a message of `len` bytes. -/
def packets (mtu len : Nat) : Nat := if len = 0 then 1 else cdiv len mtu

/-- Send a request of a queue pair as it stands; a port without a link sends nothing, and the request times out (R341). -/
def State.roceSend (s : State) (n : Nat) (q : Qp) (r : Req) : State :=
  if (NMap.get Eth.init s.eth q.desc.port.val).linkUp then
    (s.emit (.roce n q.desc r.psn r.read r.addr r.rkey r.len r.payload)).countN (cEth q.desc.port.val 1)
      (if r.read then 1 else packets q.desc.mtu r.len)
  else s

/-- Issue a READ or a SEND; a queue pair keeps at most 16 READ requests outstanding (R341). -/
def State.roceIssue (s : State) (n : Nat) (owner : ReqOwner) (read : Bool) (addr : Nat) (rkey : Word32) (len : Nat)
    (payload : List Byte) (dest : Nat) : State :=
  match s.qp n with
  | none => s
  | some q =>
    if read && decide (16 ≤ (q.reqs.filter (·.read)).length) then s
    else
      let r : Req := ⟨q.nextPsn, owner, read, addr, rkey, len, payload, s.time.ns, 0, none, dest⟩
      let q' := { q with nextPsn := q.nextPsn + BitVec.ofNat 24 (packets q.desc.mtu len), reqs := q.reqs ++ [r] }
      (s.setQp n (some q')).roceSend n q' r

/-- The request of a queue pair that a packet's PSN belongs to. -/
def Qp.find (q : Qp) (psn : BitVec 24) : Option Req :=
  (q.reqs.filter fun r => decide ((psn - r.psn).toNat < packets q.desc.mtu r.len)).head?

/-- Replace a request, found by its first PSN. -/
def Qp.update (q : Qp) (psn : BitVec 24) (f : Req → Req) : Qp :=
  { q with reqs := q.reqs.map fun r => if r.psn = psn then f r else r }

/-- Drop a request. -/
def Qp.drop (q : Qp) (psn : BitVec 24) : Qp := { q with reqs := q.reqs.filter fun r => r.psn ≠ psn }

/-- Resend every request from a list, in order. -/
def State.roceResend (s : State) (n : Nat) (q : Qp) : List Req → State
  | [] => s
  | r :: rs => (s.roceSend n q r).roceResend n q rs

/-- Close the queue pairs of a job; the snapshot's lives until its snapshot closes or fails (R340). -/
def State.closeJobQps (s : State) : State :=
  { s with qps := s.qps.filter fun p =>
      !(decide (0x100 ≤ p.1) && decide (p.1 < 0x140)) || (decide (s.snap.st ≠ .idle) && decide (p.1 = s.snap.qpn)) }

end Sys2Proof.Machine
end

