-- ==== Sys2Proof/Machine/Turns.lean ====
section
/-! DEFINITION. Turns: the agents of the fabric, the ports and links that an access goes through, and the presentations that wait there for their turns (R3, R17, R69, R83, R84, R97, R98, R100, R107, R108, R111, R112, R192, R194, R199-R202). -/
namespace Sys2Proof.Machine

/-- The different numbers of a list, ascending. -/
def distinct (xs : List Nat) : List Nat :=
  (xs.foldl (fun (m : NMap Nat) x => if NMap.get 0 m x = 1 then m else NMap.set 0 m x 1) []).map (·.1)

/-! ### Who accesses (R83, R105) -/

/-- An agent that makes fabric accesses; Mills and Floors are physical. The engines of a Mill bear their requester code of
R83, and a Stone its side. -/
inductive Agent where
  | mill (m code : Nat)
  | shoe (m : Nat) (sideB : Bool)
  | drain (m : Nat) (sideB : Bool)
  | tenter (f : Nat)
  | wheel
  | eth
  | snapshot
deriving DecidableEq, Repr

/-- Stands for the stream of an agent that follows none. -/
def noStream : Nat := 0xFFFF
/-- Key of the stream of an engine's requester code (R203). -/
def codeKind (code : Nat) : Nat := if code = 5 then 3 else if code = 6 then 2 else 4
/-- Key of the stream that an agent's accesses follow. -/
def Agent.stream (img : Image) (ag : Agent) : Nat :=
  let own := fun (m kind : Nat) => match img.logical m with
    | some l => 8 * l + kind
    | none => noStream
  match ag with
  | .mill m code => own m (codeKind code)
  | .shoe m b => own m (b2n b)
  | .drain m b => own m (b2n b)
  | .tenter f => 8 * f + 5
  | _ => noStream

/-! ### The meshes (R3, R17, R97, R108) -/

/-- A position: die or row of Floors, row of the slot grid, and column of the row's 20 (R3, R4, R108). -/
structure Pos where
  die : Nat
  row : Nat
  col : Nat
deriving DecidableEq, Repr

/-- Position `p` of Floor `f`'s slot grid, row-major with the hub at 2. -/
def gridPos (f p : Nat) : Pos := ⟨f / 4, p / 5, 5 * (f % 4) + p % 5⟩
/-- Where a Mill sits: the slots skip the hub (R3). -/
def millPos (m : Nat) : Pos := gridPos (floorOf m) (if m % 19 < 2 then m % 19 else m % 19 + 1)
def hubPos (f : Nat) : Pos := gridPos f 2
/-- Router index (R199). -/
def Pos.router (p : Pos) : Nat := 20 * (4 * p.die + p.col / 5) + 5 * p.row + p.col % 5
/-- The Floor of a position. -/
def Pos.floor (p : Pos) : Nat := 4 * p.die + p.col / 5

/-- A turn that something takes: PORT, the code it takes it with, and how many. -/
structure TurnUse where
  port : Nat
  code : Nat
  n : Nat
deriving DecidableEq, Repr

/-- The router outputs that a flit takes from position `p`, which it enters by input code `inp`, along the row and then along
the column to `q`, which it leaves by output `out`: PORT and input code of each (R97, R108, R199). -/
def meshPath (cls : Nat) (q : Pos) (out : Nat) : Nat → Pos → Nat → List (Nat × Nat)
  | 0, _, _ => []
  | n + 1, p, inp =>
    let port := fun (o : Nat) => 4096 * cls + 8 * p.router + o
    if p.col < q.col then (port 1, inp) :: meshPath cls q out n { p with col := p.col + 1 } 4
    else if q.col < p.col then (port 3, inp) :: meshPath cls q out n { p with col := p.col - 1 } 2
    else if p.row < q.row then (port 2, inp) :: meshPath cls q out n { p with row := p.row + 1 } 1
    else if q.row < p.row then (port 0, inp) :: meshPath cls q out n { p with row := p.row - 1 } 3
    else [(port out, inp)]
/-- Steps that a path can have in one mesh. -/
def meshFuel : Nat := 24

/-- An end of a NoC path: a position of a Floor, or a unit at the spine by its output instance and its input code (R17, R199). -/
inductive NocEnd where
  | at (p : Pos)
  | spine (output input : Nat)
deriving DecidableEq, Repr
/-- The Wheel and the Ethernet ports at the spine. -/
def wheelEnd : NocEnd := .spine 8 9
def ethEnd : NocEnd := .spine 11 12

/-- The NoC's outputs from one end to another: within a Floor from router to router, else through the hub gateways and the
spine, with no other way out of a Floor (R17, R97). -/
def nocPath : NocEnd → NocEnd → List (Nat × Nat)
  | .at p, .at q =>
    if p.floor = q.floor then meshPath 4 q 4 meshFuel p 5
    else meshPath 4 (hubPos p.floor) 5 meshFuel p 5 ++ (0x6000 + q.floor, 1 + p.floor) :: meshPath 4 q 4 meshFuel (hubPos q.floor) 6
  | .at p, .spine o _ => meshPath 4 (hubPos p.floor) 5 meshFuel p 5 ++ [(0x6000 + o, 1 + p.floor)]
  | .spine _ i, .at q => (0x6000 + q.floor, i) :: meshPath 4 q 4 meshFuel (hubPos q.floor) 6
  | .spine _ i, .spine o _ => [(0x6000 + o, i)]

/-- The lateral mesh's outputs from one position to another: on one die along the row and the column, to the other die through
the crossing at the hub position of the target Floor's column group (R108). -/
def latPath (p q : Pos) : List (Nat × Nat) :=
  if p.die = q.die then meshPath 5 q 4 meshFuel p 5
  else
    let x : Pos := ⟨p.die, 0, q.col / 5 * 5 + 2⟩
    meshPath 5 x 5 meshFuel p 5 ++ meshPath 5 q 4 meshFuel { x with die := q.die } 6

/-- `k` flits at every output of a path. -/
def flits (k : Nat) (path : List (Nat × Nat)) : List TurnUse := if k = 0 then [] else path.map fun x => ⟨x.1, x.2, k⟩
/-- Request and reply of one access of `n` bytes of a quarter over the NoC: 64 B of payload a flit (R97). -/
def nocFlits (a b : NocEnd) (w : Bool) (n : Nat) : List TurnUse :=
  flits (if w then cdiv n 64 else 1) (nocPath a b) ++ flits (if w then 0 else cdiv n 64) (nocPath b a)
/-- Over the lateral mesh a flit carries a quarter (log 80). -/
def latFlits (p q : Pos) (w : Bool) : List TurnUse := flits 1 (latPath p q) ++ flits (if w then 0 else 1) (latPath q p)

/-! ### The turns of an access (R83, R84, R97, R107, R108, R112) -/

/-- At the Hopper of physical Mill `m`, logical `l`: the own engines in their turns, everyone else through the NoC and code 8;
the scalar core's and its kind's accesses are narrow (R84, R97). -/
def hopperTurns (ag : Agent) (w : Bool) (n m l : Nat) : List TurnUse :=
  let far := fun (a : NocEnd) (narrow : Bool) =>
    nocFlits a (.at (millPos m)) w n ++ [⟨(if narrow then 0x2000 else 0x1000) + l, 8, 1⟩]
  match ag with
  | .shoe m' b => if m' = m then [⟨0x1000 + l, 1 + b2n b, 1⟩] else []
  | .drain m' b => if m' = m then [⟨0x1000 + l, 3 + b2n b, 1⟩] else []
  | .mill m' c =>
    if m' = m then [⟨(if c = 0xA then 0x2000 else 0x1000) + l, c, 1⟩] else far (.at (millPos m')) (c == 0xA)
  | .tenter f => if floorOf m = f then [⟨0x1000 + l, 7, 1⟩] else far (.at (hubPos f)) false
  | .wheel => far wheelEnd false
  | .eth => far ethEnd false
  | .snapshot => []

/-- At the vertical port of physical Mill `m`, logical `l`: the own DMA engine and Carder, others over the lateral mesh (R107,
R108). -/
def pondTurns (ag : Agent) (w : Bool) (m l : Nat) : List TurnUse :=
  let port := 0x3000 + l
  match ag with
  | .mill m' c =>
    if m' = m then [⟨port, if c = 6 then 2 else 1, 1⟩] else latFlits (millPos m') (millPos m) w ++ [⟨port, 7, 1⟩]
  | .tenter f => latFlits (hubPos f) (millPos m) w ++ [⟨port, 3, 1⟩]
  | .wheel => [⟨port, 4, 1⟩]
  | .eth => [⟨port, 5, 1⟩]
  | _ => []

/-- The home of a data-region address, a logical Mill (R111). -/
def homeMill (a : Nat) : Nat := a / 256 % 144

/-- The turns that an access to `n` bytes of the 128 B quarter at `a` takes. -/
def Image.accessTurns (img : Image) (ag : Agent) (w : Bool) (a n : Nat) : List TurnUse := match regionOf a with
  | .data => pondTurns ag w (img.phys (homeMill a)) (homeMill a)
  | .slice m _ => (match img.logical m with
    | some l => pondTurns ag w m l
    | none => [])
  | .hopper m _ => (match img.logical m with
    | some l => hopperTurns ag w n m l
    | none => [])
  | _ => []

/-- The quarters that a set of bytes meets, each with how many of the bytes it holds (R81, R107). -/
def quartersOf (as : List Nat) : List (Nat × Nat) :=
  (as.foldl (fun (m : NMap Nat) a => NMap.set 0 m (a / 128) (NMap.get 0 m (a / 128) + 1)) []).map fun q => (128 * q.1, q.2)

/-! ### Presentations that wait (R194, R201) -/

/-- Key of the presentations that a holder has due at a port; a scale lane has its own. -/
def dueKey (port code : Nat) (scale : Bool) : Nat := 32 * port + 16 * b2n scale + code % 16

/-- Add a run to those that wait. -/
def addDue (d : Due) : List Due → List Due
  | [] => [d]
  | x :: xs => if xs.isEmpty ∧ x.key = d.key ∧ x.bank = d.bank then [{ x with n := x.n + d.n, acc := x.acc + d.acc }] else x :: addDue d xs
/-- A stream presents at a port (R201). -/
def State.present (s : State) (key : Nat) (d : Due) : State :=
  if d.n = 0 then s else { s with due := NMap.set [] s.due key (addDue d (NMap.get [] s.due key)) }

/-- The bank of a Hopper that a write reaches; 16 otherwise. -/
def writtenBank (w : Bool) (a : Nat) : Nat := match regionOf a with
  | .hopper _ off => if w then off / 0x20000 else 16
  | _ => 16
/-- Present one access's turns. -/
def State.presentOne (s : State) (img : Image) (ag : Agent) (w : Bool) (a n : Nat) : State :=
  (img.accessTurns ag w a n).foldl (fun t u =>
    t.present (dueKey u.port u.code false)
      ⟨ag.stream img, u.n, u.n, if u.port / 4096 = 1 ∨ u.port / 4096 = 2 then writtenBank w a else 16⟩) s
/-- The presentations of an access to a set of bytes: one for each quarter that it meets, in ascending order. -/
def State.presentAll (s : State) (img : Image) (ag : Agent) (w : Bool) (as : List Nat) : State :=
  (quartersOf as).foldl (fun t q => t.presentOne img ag w q.1 q.2) s

/-- A run of its own, as each drain in the queue has (R69). -/
def State.presentRun (s : State) (key : Nat) (d : Due) : State :=
  if d.n = 0 then s else { s with due := NMap.set [] s.due key (NMap.get [] s.due key ++ [d]) }

/-- Turns that wait at a port for a code. -/
def dueTurns (ds : List Due) : Nat := ds.foldl (fun n d => n + d.n) 0
/-- Take the first turn of those that wait, true when it is an access and no pass; none when nothing waits. -/
def takeDue : List Due → Option (List Due × Bool)
  | [] => none
  | d :: ds => some (if d.n ≤ 1 then ds else { d with n := d.n - 1, acc := d.acc - 1 } :: ds, decide (0 < d.acc))

/-- Writes to a bank of a Hopper that have been accepted and wait for their turn (R100). -/
def State.inflight (s : State) (img : Image) (m b : Nat) : Nat := match img.logical m with
  | none => 0
  | some l => (s.due.filter fun p => p.1 / 32 == 0x1000 + l || p.1 / 32 == 0x2000 + l).foldl (fun n p =>
      n + dueTurns (p.2.filter fun d => d.bank == b)) 0

/-- The turn position of a port. -/
def State.portPos (s : State) (p : Nat) : PortPos := NMap.get PortPos.init s.ports p
/-- The segments of a port's sequence. -/
def PortRec.seg (r : PortRec) (i : Nat) : Option Segment := r.segs[i]?
/-- A port at segment 0, entry FIRST (R200). -/
def PortRec.rest (r : PortRec) : PortPos := match r.seg 0 with
  | some g => { PortPos.init with entry := g.first }
  | none => PortPos.init
/-- Every port of an image at segment 0, entry FIRST. -/
def Image.portsAtRest (img : Image) : NMap PortPos := img.ports.foldl (fun m r => NMap.set PortPos.init m r.port r.rest) []

/-- A port serves presentations: it has a sequence and has not stopped (R199, R200). -/
def State.portServes (s : State) (img : Image) (port : Nat) : Bool := (img.port port).isSome && !(s.portPos port).stopped
/-- Where a stream presents at a port that serves nobody: PORT and code (R200, R211). -/
def State.stalledTurn (s : State) (img : Image) (k : Nat) : Option (Nat × Nat) :=
  ((s.due.filter fun p => (p.2.any fun d => d.key == k) && !s.portServes img (p.1 / 32)).head?).map fun p => (p.1 / 32, p.1 % 16)

/-- A key is that of a Drain's lanes, whose runs are the drains in the queue (R69). -/
def drainKey (key : Nat) : Bool := key / 131072 == 1 && (key % 32 == 3 || key % 32 == 4)
/-- The presentations of a stream have filled their turns, so that its next instruction may issue (R192, R201, R215): a Stone
has up to eight drains in its queue meanwhile, which a WEIR and a STEP_END wait for (R69). -/
def State.turnsFilled (s : State) (k opcode : Nat) : Bool :=
  s.due.all fun p =>
    let n := (p.2.filter fun d => d.key == k).length
    n == 0 || (drainKey p.1 && decide (n < 8) && opcode != 2 && opcode != 3)

end Sys2Proof.Machine
end

