-- ==== Sys2Proof/Machine/SnapOps.lean ====
section
/-! DEFINITION. The snapshot engine: page protection, the capture set, opening, streaming and failing (R305-R313). -/
namespace Sys2Proof.Machine

/-- Bytes of a page (R305). -/
def pageBytes : Nat := 0x200000
/-- Page-protection and first-touch bitmaps (R124, R307). -/
def protBase : Nat := metaBase + 0x100000000
def touchBase : Nat := metaBase + 0x100400000

/-- Bit `p` of a bitmap. -/
def State.bitmap (s : State) (base p : Nat) : Bool := bitOf (s.byte (base + p / 8)).toNat (p % 8)
/-- Write bit `p` of a bitmap, whose word is read and verified (R127). -/
def State.setBitmap (r : State) (base p : Nat) (v : Bool) : State :=
  let s := (r.verifyWord ((base + p / 8) / 8)).1
  let old := (s.byte (base + p / 8)).toNat
  let cleared := if bitOf old (p % 8) then old - 2 ^ (p % 8) else old
  s.poke (base + p / 8) (BitVec.ofNat 8 (cleared + b2n v * 2 ^ (p % 8)))
/-- Clear both bitmaps. -/
def State.clearBitmaps (s : State) : State := (s.zeroRange protBase 0x400000).zeroRange touchBase 0x400000
/-- A page of the data region is protected. -/
def State.protectedPage (s : State) (p : Nat) : Bool := decide (s.snap.st ≠ .idle) && s.bitmap protBase p
/-- The words of the bitmap that a write to a set of bytes looks at are verified (R127, R308). -/
def State.seeBitmap (s : State) (as : List Nat) : State :=
  if s.snap.st = .idle then s
  else (s.verifyWords ((distinct ((as.filter fun a => decide (a < 0xA800000000)).map fun a => (protBase + a / pageBytes / 8) / 8)).filter
    fun w => decide (s.synOf w ≠ 0))).1
/-- The protected pages that a byte range of the data region meets (R308). -/
def State.protectedIn (s : State) (a n : Nat) : List Nat :=
  if s.snap.st = .idle ∨ n = 0 then []
  else (List.range ((a + n - 1) / pageBytes - a / pageBytes + 1)).map (· + a / pageBytes) |>.filter fun p =>
    decide (p < 344064) && s.protectedPage p
/-- The lowest free slot (R309). -/
def State.freeSlot (s : State) : Option Nat :=
  findIdx (fun k => !s.snap.slots.contains k) (List.range s.snap.slotCount)
/-- The time from which a waiting page waits for a slot, kept while none is free. -/
def Touched.wanted (t : Touched) (now : Nat) (full : Bool) : Touched :=
  if full ∧ t.slotSince = none then { t with slotSince := some now } else t
/-- Record that a write waits on a page (R308, R309). -/
def State.touchOne (s : State) (p : PageWait) : State :=
  let full := s.freeSlot.isNone
  match s.snap.touched.find? (fun t => t.wait.page == p.page) with
  | some _ => { s with snap.touched := s.snap.touched.map fun t => if t.wait.page = p.page then t.wanted s.time.ns full else t }
  | none => { s with snap.touched := s.snap.touched ++ [⟨p, s.time.ns, if full then some s.time.ns else none⟩] }
/-- Record that a write waits on protected pages (R308, R309). -/
def State.touch (s : State) (ps : List PageWait) : State := ps.foldl State.touchOne s
/-- A page is no longer protected: the writes that waited for a slot have waited so long (TOUCH_STALL_UNITS, R309). -/
def State.unprotect (s : State) (p : Nat) : State :=
  let t := s.setBitmap protBase p false
  let u := match (s.snap.touched.find? (fun t => t.wait.page == p)).bind (·.slotSince) with
    | some since => t.countN (cSnap 5) ((s.time.ns - since) / 1000)
    | none => t
  { u with snap.touched := u.snap.touched.filter fun t => t.wait.page != p }

/-! ### The capture set (R305) -/

/-- Pages that a byte range meets. -/
def pagesOf (a n : Nat) : List Nat :=
  if n = 0 then [] else (List.range ((a + n - 1) / pageBytes - a / pageBytes + 1)).map (· + a / pageBytes)

/-- Committed residual copy of a bucket in modes 1 and 2 (R260, R261). -/
def State.committedResidual (s : State) (b : BucketDef) (i : Nat) : Nat :=
  if bitOf (s.num (indexAddr i) 8) 0 then b.resB else b.resA

/-- Ranges of the data region that a snapshot holds besides the capture list. -/
def State.captureRanges (s : State) (img : Image) : List (Nat × Nat) :=
  (if img.hasRt then
    [(img.rtState, 256), (img.rtPhilox, 32 * img.rtStreams), (img.rtLoss, 8 * img.rtM), (img.rtShardList, 32 * img.rtShards)]
   else []) ++
  ((List.range (((img.sec 9).length - 8) / 16)).map fun i => (fieldAt ((img.sec 9).drop 8) (16 * i + 8) 6, 72)) ++
  (img.routers.map fun r => (r.stats, 64 * r.e)) ++
  ((List.range img.bucketCount).filterMap fun i =>
    let b := img.bucket i
    if b.mode = 1 ∨ b.mode = 2 then some (s.committedResidual b i, 4 * b.n) else none)

/-- Pages of the committed window, without those wholly within DERIVED. -/
def State.windowPages (s : State) (img : Image) : List Nat :=
  if img.hasRt then
    let base := if s.run.set then img.rtSetB else img.rtSetA
    let d := if img.rtDerivedLen = 0 then 0 else img.rtDerived - img.rtSetA + base
    (pagesOf base img.rtWin).filter fun p =>
      !(decide (d ≤ p * pageBytes) && decide ((p + 1) * pageBytes ≤ d + img.rtDerivedLen))
  else []

/-- Data-region pages of the capture set, ascending. -/
def State.captureData (s : State) (img : Image) : List Nat :=
  let all := s.windowPages img ++ (s.captureRanges img ++ s.run.capture).flatMap fun r => pagesOf r.1 r.2
  (all.foldl (fun (m : NMap Bool) p => if p < 344064 then NMap.set false m p true else m) []).map (·.1)

/-- Millpond pages of the capture list: logical Mill and slice offset, ascending. -/
def State.capturePond (s : State) (img : Image) : List (Nat × Nat) :=
  let all := s.run.capture.flatMap fun r => (pagesOf r.1 r.2).filterMap fun p =>
    match regionOf (p * pageBytes) with
    | .slice m off => (img.logical m).map fun l => l * 0x2000000 + off
    | _ => none
  (all.foldl (fun (m : NMap Bool) k => NMap.set false m k true) []).map fun k => (k.1 / 0x2000000, k.1 % 0x2000000)

/-- Hopper pages of the capture list, by logical Mill, ascending. -/
def State.captureHop (s : State) (img : Image) : List Nat :=
  let all := s.run.capture.flatMap fun r => (pagesOf r.1 r.2).filterMap fun p =>
    match regionOf (p * pageBytes) with
    | .hopper m _ => img.logical m
    | _ => none
  (all.foldl (fun (m : NMap Bool) k => NMap.set false m k true) []).map (·.1)

/-- A page not yet copied or sent. -/
def snapPage (store addr phys : Nat) : SnapPage := ⟨store, addr, phys, none, false, 0, [], false, false⟩

/-- The capture set in the order of R311: by STORE, then by ADDRESS. -/
def State.captureSet (s : State) (img : Image) : List SnapPage :=
  (s.captureData img).map (fun p => snapPage 0 (p * pageBytes) (p * pageBytes)) ++
    (s.capturePond img).map (fun q => snapPage 1 (q.1 * 2 ^ 40 + q.2) (sliceBase (img.phys q.1) + q.2)) ++
    (s.captureHop img).map (fun l => snapPage 2 (l * 2 ^ 40) (hopperBase (img.phys l))) ++ [snapPage 3 indexBase indexBase]

/-! ### Reading a page (R311) -/

/-- An address lies in a Hopper of a Floor whose rail has failed (R389). -/
def State.deadHopper (s : State) (a : Nat) : Bool := match regionOf a with
  | .hopper m _ => !s.pwr.pdOn.getLsbD (7 + floorOf m)
  | _ => false
/-- The engine reads a page: words are verified, and uncorrectable ones delivered as read; such a word in a Hopper makes its
Mill suspect, which is settled when the engine's step ends (R318). Its reads of data lines use the cache at their homes (R112). -/
def State.readPage (s : State) (a : Nat) : State × List Byte × Bool :=
  let v := s.verify a pageBytes
  let r := (v.1.cacheRange a pageBytes true, v.2)
  let t := match regionOf a with
    | .hopper m _ => { r.1 with run.millFound := r.1.run.millFound ++ r.2.map fun _ => m }
    | _ => r.1
  (t, t.bytes a pageBytes, !r.2.isEmpty || s.deadHopper a)

/-- Address of slot `k` of the snapshot region. -/
def State.slotAddr (s : State) (k : Nat) : Nat := s.snap.base + k * pageBytes

/-- Replace page `i`. -/
def State.setPage (s : State) (i : Nat) (p : SnapPage) : State := { s with snap.pages := setAt s.snap.pages i p }

/-- Copy page `i` into the lowest free slot; without one the page is left as it is. -/
def State.copyPage (s : State) (i : Nat) : State :=
  match s.snap.pages[i]?, s.freeSlot with
  | some p, some k =>
    let r := s.readPage p.phys
    ((r.1.pokes (r.1.slotAddr k) r.2.1).setPage i { p with slot := some k, ue := p.ue || r.2.2 }) |> fun t =>
      { t with snap.slots := k :: t.snap.slots }
  | _, _ => s

/-- Copy a list of pages in order. -/
def State.copyPages (s : State) : List Nat → State
  | [] => s
  | i :: is => (s.copyPage i).copyPages is

/-- Indices of the pages that satisfy a test. -/
def Snap.indices (sn : Snap) (f : SnapPage → Bool) : List Nat :=
  (List.range sn.pages.length).filter fun i => match sn.pages[i]? with
    | some p => f p
    | none => false

/-! ### Streaming (R310, R311) -/

/-- The 96 bytes of a digest-table entry. -/
def snapEntry (p : SnapPage) : List Byte :=
  leBytes 8 (p.addr + p.store * 2 ^ 48 + b2n p.slot.isSome * 2 ^ 56 + b2n p.ue * 2 ^ 57) ++
    leBytes 4 (match p.slot with | some k => k | none => 0xFFFFFFFF) ++ leBytes 4 p.order ++ padTo 64 0 p.digest ++
    List.replicate 16 0

/-- The page to send next: those in slots first, in slot order, then the rest in ascending order. -/
def Snap.nextPage (sn : Snap) : Option Nat :=
  match (List.range sn.slotCount).filterMap (fun k => (sn.indices fun p => !p.sent && p.slot == some k).head?) |>.head? with
  | some i => some i
  | none => (sn.indices fun p => !p.sent && p.slot.isNone).head?

/-- Send page `i`: it is read, its digest computed, and one SEND carries its entry and its bytes. A page read where it
lies is protected no longer (R308). -/
def State.sendPage (s : State) (i : Nat) : State :=
  match s.snap.pages[i]? with
  | none => s
  | some p =>
    let r := s.readPage (match p.slot with | some k => s.slotAddr k | none => p.phys)
    let q := { p with ue := p.ue || r.2.2, order := s.snap.sendOrder, digest := sha512 r.2.1, sent := true }
    let t := { r.1.setPage i q with snap.sendOrder := s.snap.sendOrder + 1 }
    let u := if p.store = 0 ∧ p.slot.isNone = true ∧ s.snap.final = false then t.unprotect (p.addr / pageBytes) else t
    (if q.ue then u.count (cSnap 6) else u).roceIssue s.snap.qpn (.snapPage i) false 0 0 (96 + pageBytes) (snapEntry q ++ r.2.1) 0

/-- Whether a page SEND is on its way. -/
def Snap.inFlight (sn : Snap) : Bool := sn.pages.any fun p => p.sent && !p.acked
/-- Pages not yet acknowledged. -/
def Snap.pagesLeft (sn : Snap) : Nat := (sn.pages.filter fun p => !p.acked).length

/-- Page `i` has been copied into a slot. -/
def Snap.inSlot (sn : Snap) (i : Nat) : Bool := match sn.pages[i]? with
  | some p => p.slot.isSome
  | none => false
/-- Send the next page while the stream runs and none is on its way (one page at a time, log 30). An opening that waits for
slots streams what it holds in them. -/
def State.snapPump (s : State) : State :=
  if (s.snap.st = .streaming ∨ s.snap.st = .opening) ∧ s.snap.inFlight = false then
    (match s.snap.nextPage with
     | some i => if s.snap.st = .opening ∧ s.snap.inSlot i = false then s else s.sendPage i
     | none => s)
  else s

/-! ### Opening (R307, R315) -/

/-- Set the protection bits of a list of data-region pages. -/
def State.protectPages (s : State) : List SnapPage → State
  | [] => s
  | p :: ps => (s.setBitmap protBase (p.addr / pageBytes) true).protectPages ps

/-- Enter STREAMING once every page that must be copied at the opening has its slot (R307). -/
def State.snapStart (s : State) : State :=
  let todo := s.snap.indices fun p => decide (p.store ≠ 0) && p.slot.isNone && !p.sent
  let t := s.copyPages todo
  if t.snap.final || (t.snap.indices fun p => decide (p.store ≠ 0) && p.slot.isNone && !p.sent).isEmpty then
    let u := if t.snap.final then t
      else (t.zeroRange touchBase 0x400000).protectPages (t.snap.pages.filter fun p => decide (p.store = 0))
    ({ u with snap.st := .streaming }).snapPump
  else t.snapPump

/-- Open a snapshot of the boundary the device stands at. -/
def State.snapOpen (s : State) (img : Image) (final : Bool) (handle : Word32) : State :=
  let s1 := s.count (cSnap 1)
  let sn : Snap :=
    { s1.snap with
      st := .opening, held := false, heldHandle := 0, final := final, seq := s1.run.snapSeq, step := s1.run.step
      handle := handle, timeNs := s1.time.ns, ordinal := s1.time.ordinal, set := s1.run.set, device := s1.wheel.device
      p := s1.wheel.p, pages := s1.captureSet img, slots := [], slotCount := s1.run.snapLen / pageBytes
      base := s1.run.snapBase, sendOrder := 0, touched := [], boundary := s1.run.boundary, qpn := 0x100 + s1.run.snapQp }
  ({ s1 with snap := sn, run.snapSeq := (s1.run.snapSeq + 1) % 2 ^ 32 }).snapStart

/-! ### Ending (R312, R313, R315) -/

/-- The class word and log words of DEVICE_FAILED (R333). -/
def State.reportFailed (s : State) : State :=
  s.raise 0x0004 0 [s.run.failClass,
    b2n s.memctl.ueValid * 2 ^ 31 + s.memctl.ueStore * 2 ^ 28 + s.memctl.ueAddr / 2 ^ 32 % 2 ^ 16, s.memctl.ueAddr % 2 ^ 32]

/-- The table slot of the open snapshot (R312). -/
def State.tableAddr (s : State) : Nat := metaBase + s.snap.seq % 128 * 0x2000000

/-- Every write that waited for a slot has waited so long. -/
def State.stallsEnd (s : State) : State :=
  s.countN (cSnap 5) (s.snap.touched.foldl (fun n t => match t.slotSince with
    | some since => n + (s.time.ns - since) / 1000
    | none => n) 0)

/-- The engine is idle again; a failed device then reports and holds (R315). -/
def State.snapIdle (s : State) (last : Nat) : State :=
  let fin := s.snap.final
  let t : State := { s.stallsEnd with snap := { s.snap with
    st := .idle, back := .idle, final := false, last := last, pages := [], slots := [], touched := [] } }
  let u := if t.run.job = 0 then { t with qps := NMap.erase t.qps t.snap.qpn } else t
  if fin && u.run.failed then u.reportFailed else u

/-- The snapshot fails or is cancelled (R313). -/
def State.snapFail (s : State) (cancelled : Bool) : State :=
  if s.snap.st = .idle then s
  else
    let h := s.snap.handle
    let t := ((s.clearBitmaps.pokes s.tableAddr (leBytes 4 0)).count (cSnap 3)).raise 0x0005 h [s.snap.seq]
    let dropReqs := fun (r : Req) => match r.owner with
      | .snapPage _ => false
      | .snapTable => false
      | _ => true
    let u := match t.qp t.snap.qpn with
      | some q => t.setQp t.snap.qpn (some { q with reqs := q.reqs.filter dropReqs })
      | none => t
    (u.snapIdle (if cancelled then 3 else 2)).opMove h (if cancelled then .cancelled else .failed) (if cancelled then 3 else 2)

end Sys2Proof.Machine
end

