-- ==== Sys2Proof/Machine/Failure.lean ====
section
/-! DEFINITION. Owner reset, lending, the failing of the device, suspect and retired Mills and the outcome of an uncorrectable error (R130, R224, R226, R229, R230, R315, R318, R320). -/
namespace Sys2Proof.Machine

/-! ### Streams by key -/

def sidKey (i : Sid) : Nat := 8 * i.owner + i.kind
def State.stream (s : State) (k : Nat) : Stream := NMap.get Stream.init s.streams k
def State.setStream (s : State) (k : Nat) (t : Stream) : State := { s with streams := NMap.set Stream.init s.streams k t }

/-! ### Lending (R229, R230) -/

def State.floorGov (s : State) (f : Nat) : FloorGov := NMap.get FloorGov.init s.pwr.floors f
def State.setFloor (s : State) (f : Nat) (g : FloorGov) : State :=
  { s with pwr.floors := NMap.set FloorGov.init s.pwr.floors f g }

/-- The mode of a Floor: 1 lending, 2 borrowing while another lends, else 0 (R393). -/
def lendMode (lending : BitVec 8) (f : Nat) : BitVec 2 :=
  if lending.getLsbD f then 1 else if lending = 0 then 0 else 2

/-- A Floor's mode changes: the setting from before the lending is kept as it begins, and a lender that stops is restored
after the borrowers (R230). -/
def FloorGov.setMode (g : FloorGov) (m : BitVec 2) : FloorGov :=
  { g with
    mode := m
    back := if g.mode = 0 ∧ m ≠ 0 then g.setMv else g.back
    late := if g.mode = 1 ∧ m ≠ 1 then true else if m = 1 then false else g.late }
/-- Put the modes of the eight Floors in agreement with the lenders. -/
def State.setLending (s : State) (l : BitVec 8) : State :=
  (List.range 8).foldl (fun t f => t.setFloor f ((t.floorGov f).setMode (lendMode l f))) { s with ctx.lending := l }

/-- A Floor stops lending (R229). -/
def State.stopLending (s : State) (f : Nat) : State :=
  if s.ctx.lending.getLsbD f then s.setLending (s.ctx.lending &&& ~~~(BitVec.ofNat 8 (2 ^ f))) else s

/-- The Floor that hosts a stream. -/
def Image.streamFloor (img : Image) (k : Nat) : Nat := if k % 8 = 5 then k / 8 else floorOf (img.phys (k / 8))

/-! ### Owner reset (R224, R226) -/

/-- Participants that wait: those counted in WAIT form and those with a held early WAIT entry (R215, R217). -/
def WeirSt.waiters (w : WeirSt) : List Nat := w.waiting ++ (w.held.filter (·.2)).map (·.1)
/-- Waiters abandoned over all Weirs. -/
def abandonedCount (ws : NMap WeirSt) : Nat := ws.foldl (fun n w => n + w.2.waiters.length) 0

/-- A stream stopped and returned to its start; a halt of the test port stays (R363). -/
def Stream.stopped (t : Stream) : Stream := { Stream.init with halted := t.halted }

/-- The streams after a stop: those a test port has halted stay listed. -/
def stopStreams (m : NMap Stream) : NMap Stream :=
  m.filterMap fun p => if p.2.halted then some (p.1, p.2.stopped) else none

/-- The Wheel without a step. -/
def Wheel.stopped (w : Wheel) : Wheel :=
  { w with active := false, nextLaunch := 0, nextGather := 0, buckets := [], exchanges := [], heldFrames := []
           suspected := false, digestsSent := false, digestVote := false, atCommit := false, exchanging := false }

/-- The owner reset of the running context (R224, R226). -/
def State.ownerReset (s : State) : State :=
  let t := s.setLending 0
  { t.countN (cWeir 2) (abandonedCount s.weirs) with
    weirs := [], races := [], feeds := [], folds := [], due := [], carders := [], tenters := []
    ports := match s.image with
      | some img => img.portsAtRest
      | none => []
    streams := stopStreams s.streams
    shapes := match s.image with
      | some img => img.shapesMap
      | none => []
    ctx := { t.ctx with active := false, progress := 0, reported := false }
    wheel := s.wheel.stopped
    run := { s.run with
      inStep := false, phase := 0, backward := false, mbUe := false, replicaUe := false, late := false, data := DataSvc.init } }

/-! ### The end of a job and of the device (R315, R337) -/

/-- A trigger that is still held when its job ends has no boundary to open at: its operation fails (log 48). -/
def State.dropHeld (s : State) : State :=
  if s.snap.held then State.opMove { s with snap.held := false, snap.heldHandle := 0 } s.snap.heldHandle .failed s.snap.last else s

/-- A training job reaches a terminal state: its queue pairs close (R340). -/
def State.endJob (s : State) (st : OpState) (status : Nat) : State :=
  if s.run.job = 0 then s
  else (((({ s with run.job := 0, run.suspendAt := none, run.millErrs := [], wheel.valid := false }).closeJobQps).opMove s.run.job st status).dropHeld)

/-- Whether a port's lanes are driven. -/
def FlumeState.driven : FlumeState → Bool
  | .disabled => false | .down => false | _ => true

/-- Every Flume lane goes electrically idle. -/
def State.idleLanes (s : State) : State :=
  (List.range 12).foldl (fun t n =>
    let p := NMap.get FlumePort.init t.flume n
    if p.st.driven then
      ({ t with flume := NMap.set FlumePort.init t.flume n { p with st := .disabled, downAt := t.time.ns } }).emit
        (.lanes (Fin.ofNat 12 n) false)
    else t) s

/-- The final snapshot of the latest boundary (R315). -/
def State.finalSnapshot (s : State) : State :=
  if s.snap.st ≠ .idle ∧ s.snap.boundary = s.run.boundary then { s with snap.final := true }
  else
    let t := s.snapFail false
    match t.image with
    | some img => let r := t.newOp .snapshot
                  r.1.snapOpen img true r.2
    | none => t

/-- The step in progress is dropped and the lanes go idle. -/
def State.withdraw (s : State) (cls : Nat) : State :=
  ({ s with run := { s.run with failed := true, failClass := cls } }).ownerReset.idleLanes

/-- A failed device ends its job, if it has one, with a final snapshot, and reports once that has ended. -/
def State.lastRites (s : State) : State :=
  if s.run.job = 0 then s.reportFailed
  else
    let u := s.dropHeld.finalSnapshot.endJob .failed 4
    match u.snap.st with
    | .idle => u.reportFailed
    | _ => u

/-- The device declares itself failed in a class of R130 (R315); it reports once its final snapshot has ended. -/
def State.declareFailed (s : State) (cls : Nat) : State :=
  if s.run.failed then s else (s.withdraw cls).lastRites

/-! ### Retirement (R318-R320) -/

def State.mill (s : State) (m : Nat) : MillRec := NMap.get MillRec.init s.mills m

/-- The record byte of a Mill (R320). -/
def MillRec.byte (r : MillRec) : Byte :=
  BitVec.ofNat 8 (b2n r.retired * 128 + b2n r.suspect * 64 + b2n r.permanent * 32 + r.count % 4)

/-- Flash offset of the retirement record (R353). -/
def retireOff : Nat := 0x3F40000
/-- Write bytes to the flash; 0xFF is the erased value. -/
def flashWrite (f : NMap Byte) (off : Nat) : List Byte → NMap Byte
  | [] => f
  | b :: bs => flashWrite (NMap.set 0xFF f off b) (off + 1) bs
/-- Read bytes of the flash. -/
def flashRead (f : NMap Byte) (off n : Nat) : List Byte := (List.range n).map fun i => NMap.get 0xFF f (off + i)

/-- Rewrite the retirement record. -/
def State.rewriteRecord (s : State) : State :=
  let bs := (List.range 152).map fun m => (s.mill m).byte
  { s with nv.flash := flashWrite s.nv.flash retireOff (bs ++ leBytes 4 (crc32c bs)) }

/-- Change a Mill's record and rewrite the flash. -/
def State.setMill (s : State) (m : Nat) (r : MillRec) : State :=
  ({ s with mills := NMap.set MillRec.init s.mills m r }).rewriteRecord

/-- The installed image uses a physical Mill. -/
def State.usesMill (s : State) (m : Nat) : Bool := match s.image with
  | some img => img.uses m
  | none => false

/-- Retire a Mill; when the installed image uses it the device declares itself failed. -/
def State.retireMill (s : State) (m cls : Nat) : State :=
  let t := (s.setMill m { s.mill m with retired := true }).count (cSnap 8)
  if t.usesMill m then t.declareFailed cls else t

/-- An uncorrectable error in a Mill's Hopper, Kettles or router: the Mill becomes suspect, and the second such error of a
suspect Mill within the same job retires it (R318). -/
def State.millError (s : State) (m cls : Nat) : State :=
  let n := NMap.get 0 s.run.millErrs m
  let t := if s.run.job = 0 then s else { s with run.millErrs := NMap.set 0 s.run.millErrs m (n + 1) }
  if (s.mill m).suspect then (if n = 0 then t else t.retireMill m cls)
  else t.setMill m { s.mill m with suspect := true }

/-- The errors that the snapshot engine has met in Hoppers make their Mills suspect (R318); an access without a tensor group
is of the control class (R130). -/
def State.millsFound (s : State) : State :=
  s.run.millFound.foldl (fun t m => t.millError m 3) { s with run.millFound := [] }

/-! ### The outcome of an uncorrectable error (R130, R284, R286) -/

/-- Class of an access: that of its tensor group, or control with none (R130). -/
def State.classOf (s : State) (group : Option Nat) : Nat := match group, s.image with
  | some g, some img => img.groupClass g
  | _, _ => 3

/-- The outcome that a class gives an uncorrectable error; in the backward phase it is a backward event. -/
def State.classOutcome (s : State) (cls : Nat) : State :=
  if 2 ≤ cls then s.declareFailed cls
  else
    let t := if s.run.phase = 2 ∨ s.run.phase = 3 then { s with run.backward := true } else s
    if cls = 0 then { t with run.mbUe := true } else { t with run.replicaUe := true }

/-- The Mill whose Hopper holds an address. -/
def hopperMill (a : Nat) : Option Nat := match regionOf a with
  | .hopper m _ => some m
  | _ => none

/-- Outcomes of the uncorrectable words found by one access. -/
def State.ueOutcome (s : State) (group : Option Nat) : List Nat → State
  | [] => s
  | a :: as =>
    let cls := s.classOf group
    let t := match hopperMill a with
      | some m => s.millError m cls
      | none => s
    (t.classOutcome cls).ueOutcome group as

/-! ### Words received at routers (R127, R130, R133, R134, R318) -/

/-- The Mill at a router's position; none at a hub (R3, R199). -/
def routerMill (r : Nat) : Option Nat :=
  if r % 20 = 2 then none else some (19 * (r / 20) + if r % 20 < 2 then r % 20 else r % 20 - 1)
/-- The next word received at a router whose link brings an error: a correction counts, and an uncorrectable word counts, is
logged, has the outcome of the access's class and makes the router's Mill suspect. A hub has no Mill: nothing counts there, and
the Mill that the log shows is free (log 83). -/
def State.routerWord (s : State) (cls k : Nat) : State :=
  let e := NMap.get 0 s.noc k
  let t := { s with noc := NMap.set 0 s.noc k 0 }
  match routerMill (k % 512) with
  | none =>
    if e ≤ 1 then t
    else (State.logUe { t with fresh := t.fresh + 1 } 4 (Config.freeByte t.fresh k).toNat).classOutcome cls
  | some m =>
    if e = 0 then s
    else if e = 1 then t.count (cMill m 6)
    else (((t.count (cMill m 7)).logUe 4 m).millError m cls).classOutcome cls
/-- The words of an access are received at these routers in order. -/
def State.routerWords (s : State) (cls : Nat) (ks : List Nat) : State := ks.foldl (fun t k => t.routerWord cls k) s

/-- The runtime or the Miller reads a range: its words are verified, with the outcome of the control class, and its lines use the
cache (R112, R127, R130). -/
def State.readRange (s : State) (a n : Nat) : State :=
  let r := s.verify a n
  (r.1.cacheRange a n true).ueOutcome none r.2

/-- A read by the Miller: words are verified, and an uncorrectable one has the outcome of the control class (R130). -/
def State.millerRead (s : State) (a n : Nat) : State × List Byte :=
  (s.readRange a n, (s.verify a n).1.millerBytes a n)

end Sys2Proof.Machine
end

