-- ==== Sys2Proof/Machine/Power.lean ====
section
/-! DEFINITION. Power sequencing, power-on reset and the reset pin (R344, R364, R370, R372, R373, R381, R389, R401). -/
namespace Sys2Proof.Machine

/-- The answer of a command that always completes. -/
def done (s : State) : Host.Outcome State Fault Refusal := .next s

/-- PWR_GOOD is high and MOD_RESET_N is not held low: every unit runs. -/
def State.up (s : State) : Bool := s.pwr.pwrGood && !s.pwr.resetLow

/-- The firmware region is left erased by a reset during phases 2 to 4 of an update (R358). -/
def Nv.interrupted (n : Nv) (fw : Fw) : Nv :=
  if fw.busy && decide (2 ≤ fw.phase) then { n with flash := NMap.clearRange n.flash 0 0x2000000 } else n

/-- A power-on reset: every register returns to its reset value and memory is lost; the pins, the rails, the flash and
fuses, the auxiliary rail's buffer and the test port stay (R364, R373, R381, R405, R406). -/
def State.powerOnReset (s : State) : State :=
  { State.reset with
    pending := s.pending, fresh := s.fresh, out := s.out, nv := s.nv.interrupted s.sec.fw, tap := s.tap, smb := s.smb
    boot := { Boot.init with fruValid := s.boot.fruValid, fruBuf := s.boot.fruBuf }
    clk := { Clk.init with strap := s.clk.strap }
    pwr := { Pwr.init with
      pwrEn := s.pwr.pwrEn, auxOn := s.pwr.auxOn, inRange := s.pwr.inRange, pwrGood := s.pwr.pwrGood
      resetLow := s.pwr.resetLow, pdOn := s.pwr.pdOn, startStep := s.pwr.startStep, thermTrip := s.pwr.thermTrip
      railLock := s.pwr.railLock, tripped := s.pwr.tripped, railFaulted := s.pwr.railFaulted } }

/-- PWR_GOOD falls, which is a power-on reset, and every rail but the auxiliary one goes off; the telemetry frame and its SEQ
are lost with PD_ALWAYS, and the responder keeps what it has latched (R372, R404). -/
def State.railsOff (s : State) : State :=
  ({ s with
    pwr := { s.pwr with pwrGood := false, pdOn := 0, startStep := 0 }, clk.strap := 0
    smb := { Smb.init with latched := s.smb.latched } }).powerOnReset

/-- The rails come up in the order of R372. -/
def State.railsUp (s : State) : State := { s with pwr := { s.pwr with pdOn := BitVec.allOnes 20, startStep := 2 } }

def State.pwrEnRise (s : State) : State :=
  if !s.pwr.pwrEn && s.pwr.inRange && s.pwr.auxOn && !s.pwr.thermTrip then
    State.railsUp { s with pwr := { s.pwr with pwrEn := true, railLock := false, railFaulted := false, tripped := false } }
  else s
/-- PWR_EN_RISE (R372). -/
def execPwrEnRise (s : State) : Host.Outcome State Fault Refusal := done s.pwrEnRise

def State.pwrGoodAssert (s : State) : State :=
  if s.pwr.pwrEn && !s.pwr.pwrGood && decide (s.pwr.startStep = 2) then
    { s with pwr := { s.pwr with pwrGood := true, startStep := 3 } }
  else s
/-- PWR_GOOD_ASSERT (R372). -/
def execPwrGoodAssert (s : State) : Host.Outcome State Fault Refusal := done s.pwrGoodAssert

def State.pwrEnFall (s : State) : State :=
  if s.pwr.pwrEn then State.railsOff { s with pwr := { s.pwr with pwrEn := false, tripped := false } } else s
/-- PWR_EN_FALL (R373). -/
def execPwrEnFall (s : State) : Host.Outcome State Fault Refusal := done s.pwrEnFall

def State.inputRange (s : State) (mv : Nat) : State :=
  if s.up && (decide (mv < 46000) || decide (58000 < mv)) then
    ((({ s with pwr := { s.pwr with inRange := false, inputMv := mv } }).setAlert 2).count (cPower 5)).raise 0x0044 0 [mv]
  else s
/-- INPUT_RANGE (R370). -/
def execInputRange (mv : Nat) (s : State) : Host.Outcome State Fault Refusal := done (s.inputRange mv)

/-- Below 44 V the auxiliary rail is gone, and with it the responder's buffer (R372, R405). -/
def State.auxCheck (s : State) (mv : Nat) : State :=
  if mv ≤ 44000 then { s with pwr.auxOn := false, boot := { s.boot with fruValid := false, fruBuf := [] } } else s

def State.inputTrip (s : State) (mv : Nat) : State :=
  if decide (mv < 44000) || decide (60000 < mv) then
    (State.railsOff { s with pwr := { s.pwr with tripped := s.pwr.pwrEn, inRange := false } }).auxCheck mv
  else s
/-- INPUT_UNDERVOLT_TRIP (R370). -/
def execInputUndervoltTrip (mv : Nat) (s : State) : Host.Outcome State Fault Refusal := done (s.inputTrip mv)

/-- The auxiliary rail comes up again and resets the test port (R406). -/
def State.auxUp (s : State) : State :=
  if s.pwr.auxOn then s else { s with pwr.auxOn := true, tap := Tap.init }

def State.inputRecovered (s : State) : State :=
  if s.pwr.tripped || !s.pwr.inRange then
    let t := State.auxUp { s with pwr := { s.pwr with tripped := false, inRange := true } }
    if s.pwr.tripped && s.pwr.pwrEn && !s.pwr.thermTrip && !s.pwr.railLock then t.railsUp else t
  else s
/-- INPUT_RECOVERED (R370): after a trip the rails come up again, but not during a thermal trip or while rail faults hold them
off (R388, R389). -/
def execInputRecovered (s : State) : Host.Outcome State Fault Refusal := done s.inputRecovered

/-- Whether a low pulse resets the module: at least 100 ns does, below 20 ns does not, and between the two the spec
leaves it open, so it is a free value (R381, R401; log 4). -/
def State.pulseResets (s : State) (lowNs : Nat) : Bool :=
  if lowNs < 20 then false else if 100 ≤ lowNs then true else Config.freeBit s.fresh

def State.modResetAssert (s : State) (lowNs : Nat) : State :=
  let t := { s with fresh := s.fresh + 1 }
  if s.pwr.pwrGood && s.pulseResets lowNs then
    State.powerOnReset { t with pwr := { t.pwr with resetLow := true, startStep := 3 } }
  else t
/-- MOD_RESET_N_ASSERT (R381). -/
def execModResetNAssert (lowNs : Nat) (s : State) : Host.Outcome State Fault Refusal := done (s.modResetAssert lowNs)

/-- Pulses counted after a pulse of a given length and the high interval after it (R344): the strap sequence is
three pulses of 1 to 10 ms at intervals of 1 to 10 ms, then 100 ms high. -/
def strapCount (n lowNs highNs : Nat) : Nat :=
  if 1000000 ≤ lowNs ∧ lowNs ≤ 10000000 then
    (if n = 2 then (if 100000000 ≤ highNs then 3 else 0)
     else if 1000000 ≤ highNs ∧ highNs ≤ 10000000 then n + 1 else 0)
  else 0

def State.modResetRelease (s : State) (lowNs highNs : Nat) : State :=
  if s.pwr.resetLow then
    let n := strapCount s.clk.strap lowNs highNs
    { s with
      pwr := { s.pwr with resetLow := false, startStep := 3 }
      clk := { s.clk with strap := if n = 3 then 0 else n }
      boot := { s.boot with recovery := decide (n = 3) } }
  else s
/-- MOD_RESET_N_RELEASE (R381). -/
def execModResetNRelease (lowNs highNs : Nat) (s : State) : Host.Outcome State Fault Refusal :=
  done (s.modResetRelease lowNs highNs)

end Sys2Proof.Machine
end

