-- ==== Sys2Proof/Machine/Boot.lean ====
section
/-! DEFINITION. Start-up: fuse load, the power-on ordinal, the firmware check, the FRU copy, LPDDR5X training and zeroing (R20, R109, R120, R320, R354, R356, R365, R380, R405). -/
namespace Sys2Proof.Machine

/-! ### Firmware check (R354, R356) -/

/-- The key slot whose digest is that of a firmware key and is not revoked. -/
def Nv.keySlot (n : Nv) (pub : List Byte) : Option Nat :=
  let d := sha512 pub
  findIdx (fun k => !n.fwRevoked.getLsbD k && (NMap.get [] n.fwKeys k == d)) (List.range 4)

/-- LENGTH of a firmware image. -/
def fwLength (bs : List Byte) : Nat := fieldAt bs 0x10 8
/-- Digest of a firmware image before its trailer. -/
def fwDigest (bs : List Byte) : List Byte := sha512 (bs.take (fwLength bs - 144))

/-- The RESULT of the checks of R356 in order: 1 OK, 2 BAD_HEADER, 3 BAD_KEY, 4 BAD_SIGNATURE, 5 ROLLBACK. -/
def fwCheck (n : Nv) (bs : List Byte) : Nat :=
  let len := fwLength bs
  let trailer := slice bs (len - 144) 144
  let pub := slice bs 0x40 133
  if fieldAt bs 0 4 ≠ 0xF1A30008 ∨ len % 8 ≠ 0 ∨ len < 400 ∨ 0x2000000 < len ∨ bs.length < len then 2
  else if (n.keySlot pub).isNone || trailer.take 8 != keyId pub then 3
  else if !ecdsaVerify pub (fwDigest bs) (slice trailer 8 132) then 4
  else if fieldAt bs 8 4 < n.rollback then 5 else 1

/-! ### The ordinal logs (R365) -/

/-- Flash offset of an ordinal log: A, then B. -/
def ordLog (b : Bool) : Nat := if b then 0x3F60000 else 0x3F50000
/-- Record `i` of a log. -/
def ordRecord (f : NMap Byte) (b : Bool) (i : Nat) : List Byte := flashRead f (ordLog b + 16 * i) 16
/-- The ordinal of a valid record: the complement and the CRC agree. -/
def ordOf (r : List Byte) : Option Nat :=
  let o := fieldAt r 0 4
  if fieldAt r 4 4 = 0xFFFFFFFF - o ∧ fieldAt r 8 4 = crc32c (r.take 8) then some o else none
/-- Largest valid ordinal of a log, among its first `n` records; 0 without one. -/
def ordMax (f : NMap Byte) (b : Bool) : Nat → Nat
  | 0 => 0
  | n + 1 => max (ordMax f b n) ((ordOf (ordRecord f b n)).getD 0)
/-- The first erased record of a log, of 4,096. -/
def ordFree (f : NMap Byte) (b : Bool) : Option Nat :=
  findIdx (fun i => (ordRecord f b i).all (· == 0xFF)) (List.range 4096)
/-- The 16 bytes of a record. -/
def ordBytes (o : Nat) : List Byte :=
  let h := leBytes 4 o ++ leBytes 4 (0xFFFFFFFF - o)
  h ++ leBytes 4 (crc32c h) ++ leBytes 4 0
/-- Append a record to the log that holds the latest; a full log makes the ROM erase the other and append there. -/
def ordAppend (f : NMap Byte) (o : Nat) : NMap Byte :=
  let b := decide (ordMax f false 4096 < ordMax f true 4096)
  match ordFree f b with
  | some i => flashWrite f (ordLog b + 16 * i) (ordBytes o)
  | none => flashWrite (NMap.clearRange f (ordLog (!b)) 0x10000) (ordLog (!b)) (ordBytes o)
/-- The next ordinal; 0xFFFF_FFFF is never exceeded. -/
def nextOrdinal (f : NMap Byte) : Nat := min 0xFFFFFFFF (max (ordMax f false 4096) (ordMax f true 4096) + 1)

/-! ### The retirement record (R320) -/

/-- The record of a Mill from its byte. -/
def MillRec.ofByte (b : Nat) : MillRec := ⟨bitOf b 7, bitOf b 6, bitOf b 5, b % 4⟩
/-- The retirement states that fuse load takes: a record whose CRC fails marks every Mill suspect. -/
def loadMills (f : NMap Byte) : NMap MillRec :=
  let bs := flashRead f retireOff 152
  let ok := decide (fieldAt (flashRead f (retireOff + 152) 4) 0 4 = crc32c bs)
  (List.range 152).filterMap fun m =>
    let r := if ok then MillRec.ofByte (bs.getD m 0).toNat else ⟨false, true, false, 0⟩
    if r = MillRec.init then none else some (m, r)

/-! ### Step 5 and step 6 -/

/-- The ROM appends the ordinal, or uses it unrecorded. -/
def State.appendOrdinal (s : State) (appendOk : Bool) : State :=
  let o := nextOrdinal s.nv.flash
  { s with
    time := { s.time with ordinal := o, ordFault := !appendOk }
    nv := if appendOk then { s.nv with flash := ordAppend s.nv.flash o } else s.nv }

/-- The ROM checks the firmware in flash and starts it, or enters recovery mode. -/
def State.startFirmware (s : State) : State :=
  let head := flashRead s.nv.flash 0 0x100
  let bs := flashRead s.nv.flash 0 (fwLength head)
  if s.boot.recovery || decide (fwCheck s.nv bs ≠ 1) then { s with boot.recovery := true }
  else
    { s with boot := { s.boot with
      fwRunning := true, fwVersion := BitVec.ofNat 32 (fieldAt bs 4 4), fwSvn := BitVec.ofNat 8 (fieldAt bs 8 4)
      fwSlot := BitVec.ofNat 2 ((s.nv.keySlot (slice bs 0x40 133)).getD 0), fwDigest := fwDigest bs } }

/-- The ROM copies the 2 KiB FRU record to the responder (R405). -/
def State.copyFru (s : State) : State :=
  { s with boot := { s.boot with fruValid := true, fruBuf := flashRead s.nv.flash 0x3F10000 2048 } }

/-- Start-up can go on: REFCLK is not lost before Leat listens (R377). -/
def State.starting (s : State) (step : Nat) : Bool := s.up && !s.clk.lost && decide (s.pwr.startStep = step)

def State.fuseLoad (s : State) (appendOk : Bool) : State :=
  if s.starting 4 && s.time.running then
    let t := { s with boot.fusesLoaded := true, mills := loadMills s.nv.flash, pwr.startStep := 6 }
    ((t.appendOrdinal appendOk).startFirmware).copyFru
  else s
/-- FUSE_LOAD (R20, R356, R365, R405). -/
def execFuseLoad (appendOk : Bool) (s : State) : Host.Outcome State Fault Refusal := done (s.fuseLoad appendOk)

/-- Ports that start in DETECT: those enabled, outside recovery mode (R344, R380). -/
def State.startPorts (s : State) : State :=
  if s.boot.recovery || s.run.failed then s
  else
    (List.range 12).foldl (fun t n =>
      let p := NMap.get FlumePort.init t.flume n
      if p.st = .disabled ∧ p.cfg.getLsbD 31 = true ∧ p.held = false ∧ s.pwr.pdOn.getLsbD (2 + n / 4) = true then
        { t with flume := NMap.set FlumePort.init t.flume n { p with st := .detect, live := p.cfg } }
      else t) s

/-- The packages that have trained, with the fail bits of the others, at the data rate that the firmware image sets (R116, R120,
R133). -/
def State.trainDram (s : State) (fails : BitVec 12) : State :=
  { s with memctl := { s.memctl with rate := BitVec.ofNat 2 (Config.firmwareRate s.boot.fwDigest).val, pkgTrained := ~~~fails, pkgFail := fails, patrolOn := ~~~fails } }

def State.trainingDone (s : State) (fails : BitVec 12) : State :=
  if s.starting 6 then ({ s with pwr.startStep := 7 }.trainDram fails).startPorts
  else if s.up && decide (7 ≤ s.pwr.startStep) && s.pwr.pdOn.getLsbD 5 && decide (s.memctl.pkgTrained = 0) && decide (s.memctl.pkgFail = 0) then
    s.trainDram fails
  else s
/-- LPDDR5X_TRAINING_DONE (R120), at start-up or on the way back from COLD (R390). -/
def execLpddr5xTrainingDone (fails : BitVec 12) (s : State) : Host.Outcome State Fault Refusal :=
  done (s.trainingDone fails)

/-- Zero words over the data region, the metadata payload and every slice (R109, R120). -/
def State.zeroAll (s : State) : State :=
  ((s.zeroRange 0 0xA800000000).zeroRange metaBase metaPayload).zeroRange 0x010000000000 0xBE000000

def State.zeroingDone (s : State) : State :=
  if s.up && decide (7 ≤ s.pwr.startStep) && !s.memctl.zeroed &&
      (decide (s.memctl.pkgTrained ≠ 0) || decide (s.memctl.pkgFail ≠ 0)) then
    { s.zeroAll with memctl.zeroed := true }
  else s
/-- STARTUP_ZEROING_DONE (R109, R120). -/
def execStartupZeroingDone (s : State) : Host.Outcome State Fault Refusal := done s.zeroingDone

end Sys2Proof.Machine
end

