-- ==== Sys2Proof/Machine/Formats.lean ====
section
/-! DEFINITION. Number formats, rounding, saturation and block scales (R29-R49, R410): exact values and their codes. -/
namespace Sys2Proof.Machine

/-- An exact value: (−1)^neg · num / den · 2^e, with a signed zero, or a non-finite value. -/
inductive FV where
  | nan
  | inf (neg : Bool)
  | fin (neg : Bool) (num den : Nat) (e : Int)
deriving DecidableEq, Repr

/-- Zero with a sign. -/
def FV.zero (neg : Bool) : FV := .fin neg 0 1 0
/-- An integer. -/
def FV.ofNat (n : Nat) : FV := .fin false n 1 0
def FV.isFinite : FV → Bool
  | .fin _ _ _ _ => true
  | _ => false
def FV.isZero : FV → Bool
  | .fin _ n _ _ => n == 0
  | _ => false
def FV.isNan : FV → Bool
  | .nan => true
  | _ => false
def FV.isInf : FV → Bool
  | .inf _ => true
  | _ => false
/-- The sign bit; NaN has none (R31). -/
def FV.sign : FV → Bool
  | .nan => false
  | .inf s => s
  | .fin s _ _ _ => s
def FV.negate : FV → FV
  | .nan => .nan
  | .inf s => .inf !s
  | .fin s n d e => .fin (!s) n d e
def FV.abs : FV → FV
  | .nan => .nan
  | .inf _ => .inf false
  | .fin _ n d e => .fin false n d e

/-- The exact product (IEEE 754 rules for non-finite values, R41). -/
def FV.mul : FV → FV → FV
  | .nan, _ => .nan
  | _, .nan => .nan
  | .inf s, .inf t => .inf (s ^^ t)
  | .inf s, .fin t n _ _ => if n = 0 then .nan else .inf (s ^^ t)
  | .fin t n _ _, .inf s => if n = 0 then .nan else .inf (s ^^ t)
  | .fin s n d e, .fin t n' d' e' => .fin (s ^^ t) (n * n') (d * d') (e + e')

/-- The sum of two signed magnitudes at one exponent; an exact zero is positive unless both are −0. -/
def addMag (s : Bool) (a : Nat) (t : Bool) (b d : Nat) (e : Int) : FV :=
  if s = t then .fin s (a + b) d e
  else if a = b then .fin false 0 1 0
  else if b < a then .fin s (a - b) d e
  else .fin t (b - a) d e

/-- The exact sum. -/
def FV.add : FV → FV → FV
  | .nan, _ => .nan
  | _, .nan => .nan
  | .inf s, .inf t => if s = t then .inf s else .nan
  | .inf s, .fin _ _ _ _ => .inf s
  | .fin _ _ _ _, .inf t => .inf t
  | .fin s n d e, .fin t n' d' e' =>
    let m := min e e'
    addMag s (n * d' * 2 ^ (e - m).toNat) t (n' * d * 2 ^ (e' - m).toNat) (d * d') m

/-- The exact quotient; a finite non-zero value over zero is the infinity that IEEE 754 gives, and 0 / 0 is NaN. -/
def FV.div : FV → FV → FV
  | .nan, _ => .nan
  | _, .nan => .nan
  | .inf _, .inf _ => .nan
  | .inf s, .fin t _ _ _ => .inf (s ^^ t)
  | .fin s _ _ _, .inf t => .fin (s ^^ t) 0 1 0
  | .fin s n d e, .fin t n' d' e' =>
    if n' = 0 then (if n = 0 then .nan else .inf (s ^^ t)) else .fin (s ^^ t) (n * d') (d * n') (e - e')

/-- Compare magnitudes of finite values: `|a| < |b|`. -/
def FV.magLt : FV → FV → Bool
  | .fin _ n d e, .fin _ n' d' e' =>
    let m := min e e'
    decide (n * d' * 2 ^ (e - m).toNat < n' * d * 2 ^ (e' - m).toNat)
  | .fin _ _ _ _, .inf _ => true
  | _, _ => false

/-- `a < b` for numbers that are not NaN. -/
def FV.lt (a b : FV) : Bool :=
  match a.sign, b.sign with
  | false, false => a.magLt b
  | true, true => b.magLt a
  | true, false => !(a.isZero && b.isZero)
  | false, true => false

/-- A rounding mode: nearest even (R44), stochastic with its word (R45), upwards in magnitude (R37), towards zero. -/
inductive Rnd where
  | rne
  | stoch (r : Nat)
  | up
  | down
deriving DecidableEq, Repr

/-- Whether `u + r / d` goes to the upper neighbour. -/
def Rnd.goesUp : Rnd → Nat → Nat → Nat → Bool
  | .rne, u, r, d => decide (d < 2 * r) || (decide (2 * r = d) && decide (u % 2 = 1))
  | .stoch w, _, r, d => decide (2 ^ 32 ≤ r * 2 ^ 32 / d + w)
  | .up, _, r, _ => decide (0 < r)
  | .down, _, _, _ => false

/-- The numerator and denominator of `num / den · 2^s`. -/
def scaled (num den : Nat) (s : Int) : Nat × Nat :=
  if 0 ≤ s then (num * 2 ^ s.toNat, den) else (num, den * 2 ^ (-s).toNat)

/-- Round `num / den · 2^s` to an integer. -/
def roundInt (m : Rnd) (num den : Nat) (s : Int) : Nat :=
  let p := scaled num den s
  let u := p.1 / p.2
  if m.goesUp u (p.1 % p.2) p.2 then u + 1 else u

/-- floor(log2(num / den · 2^e)) of a positive value. -/
def floorLog2 (num den : Nat) (e : Int) : Int :=
  let d : Int := (Nat.log2 num : Int) - (Nat.log2 den : Int)
  let p := scaled num den (-d)
  if p.2 ≤ p.1 then d + e else d - 1 + e

/-- A floating-point element (R30): special codes are 0 IEEE, 1 as E4M3, 2 none. -/
structure FFmt where
  ebits : Nat
  mbits : Nat
  bias : Nat
  special : Nat
  nanCode : Nat
deriving DecidableEq, Repr

def ffFP32 : FFmt := ⟨8, 23, 127, 0, 0x7FC00000⟩
def ffBF16 : FFmt := ⟨8, 7, 127, 0, 0x7FC0⟩
def ffFP16 : FFmt := ⟨5, 10, 15, 0, 0x7E00⟩
def ffE5M2 : FFmt := ⟨5, 2, 15, 0, 0x7F⟩
def ffE4M3 : FFmt := ⟨4, 3, 7, 1, 0x7F⟩
def ffE3M2 : FFmt := ⟨3, 2, 3, 2, 0⟩
def ffE2M3 : FFmt := ⟨2, 3, 1, 2, 0⟩
def ffE2M1 : FFmt := ⟨2, 1, 1, 2, 0⟩

/-- The code of the largest finite magnitude. -/
def FFmt.maxMag (f : FFmt) : Nat :=
  if f.special = 0 then (2 ^ f.ebits - 1) * 2 ^ f.mbits - 1
  else if f.special = 1 then 2 ^ (f.ebits + f.mbits) - 2
  else 2 ^ (f.ebits + f.mbits) - 1

/-- The exponent of the least subnormal. -/
def FFmt.emin (f : FFmt) : Int := 1 - (f.bias : Int) - (f.mbits : Int)

/-- The value of a code (R30, R31). -/
def FFmt.decode (f : FFmt) (code : Nat) : FV :=
  let neg := bitOf code (f.ebits + f.mbits)
  let ef := bitsOf code (f.ebits + f.mbits - 1) f.mbits
  let man := code % 2 ^ f.mbits
  let ones := 2 ^ f.ebits - 1
  if f.special = 0 ∧ ef = ones then (if man = 0 then .inf neg else .nan)
  else if f.special = 1 ∧ ef = ones ∧ man = 2 ^ f.mbits - 1 then .nan
  else if ef = 0 then .fin neg man 1 f.emin
  else .fin neg (2 ^ f.mbits + man) 1 (f.emin + (ef : Int) - 1)

/-- Round a positive magnitude to a code, saturating at the largest finite one (R44, R45, R47); true when it saturates. -/
def FFmt.roundMag (f : FFmt) (m : Rnd) (num den : Nat) (e : Int) : Nat × Bool :=
  if num = 0 then (0, false)
  else
    let q := max (floorLog2 num den e - (f.mbits : Int)) f.emin
    let low := (q - f.emin).toNat * 2 ^ f.mbits + roundInt .down num den (e - q)
    let high := (q - f.emin).toNat * 2 ^ f.mbits + roundInt .up num den (e - q)
    if f.maxMag < high then (f.maxMag, true)
    else if low = high then (low, false)
    else ((q - f.emin).toNat * 2 ^ f.mbits + roundInt m num den (e - q), false)

/-- The sign bit of a code in place. -/
def FFmt.signed (f : FFmt) (neg : Bool) (mag : Nat) : Nat := if neg then 2 ^ (f.ebits + f.mbits) + mag else mag

/-- The code of a value; NaN and infinities as R48 gives them for a target without blocks. True when it saturates. -/
def FFmt.encode (f : FFmt) (m : Rnd) : FV → Nat × Bool
  | .nan => (f.nanCode, false)
  | .inf neg => if f.special = 0 then (f.signed neg ((2 ^ f.ebits - 1) * 2 ^ f.mbits), false) else (f.nanCode, false)
  | .fin neg num den e =>
    let r := f.roundMag m num den e
    (f.signed neg r.1, r.2)

/-- round_fp32: the FP32 code and whether the rounding saturated (R41, R47). -/
def round32 (x : FV) : Nat × Bool := ffFP32.encode .rne x
/-- The value of an FP32 code. -/
def dec32 (c : Nat) : FV := ffFP32.decode c
/-- round_fp32 as a value. -/
def round32v (x : FV) : FV := dec32 (round32 x).1

/-- FP32 arithmetic of the scalar cores and Carders (R47): a result that IEEE 754 makes infinite from finite
operands saturates and counts. -/
def arith32 (finiteIn : Bool) (x : FV) : Nat × Bool :=
  match x with
  | .inf neg => if finiteIn then (ffFP32.signed neg ffFP32.maxMag, true) else round32 x
  | _ => round32 x
def add32 (a b : Nat) : Nat × Bool := arith32 ((dec32 a).isFinite && (dec32 b).isFinite) ((dec32 a).add (dec32 b))
def sub32 (a b : Nat) : Nat × Bool := arith32 ((dec32 a).isFinite && (dec32 b).isFinite) ((dec32 a).add (dec32 b).negate)
def mul32 (a b : Nat) : Nat × Bool := arith32 ((dec32 a).isFinite && (dec32 b).isFinite) ((dec32 a).mul (dec32 b))
def div32 (a b : Nat) : Nat × Bool := arith32 ((dec32 a).isFinite && (dec32 b).isFinite) ((dec32 a).div (dec32 b))

/-- FP32 1.0. -/
def one32 : Nat := 0x3F800000

/-! ### Format codes (R29) -/

/-- A reserved format code, treated as FP32 (R29). -/
def fmtReserved (f : Nat) : Bool := decide (0x0E ≤ f)
/-- Element bits. -/
def fmtBits (f : Nat) : Nat :=
  if f = 1 ∨ f = 2 then 16
  else if f = 3 ∨ f = 4 ∨ f = 5 ∨ f = 6 ∨ f = 0x0A then 8
  else if f = 7 ∨ f = 8 then 6
  else if f = 9 ∨ f = 0x0B then 4
  else if f = 0x0C then 2
  else 32
/-- Block size; 0 for a format without block scales. -/
def fmtBlock (f : Nat) : Nat :=
  if 5 ≤ f ∧ f ≤ 0x0A then 32 else if f = 0x0B ∨ f = 0x0C then 16 else 0
/-- An MX format, with E8M0 scales. -/
def fmtMX (f : Nat) : Bool := decide (5 ≤ f) && decide (f ≤ 0x0A)
/-- A format with a tensor scale from a history (R51). -/
def fmtHist (f : Nat) : Bool := decide (f = 3) || decide (f = 4) || decide (f = 0x0B)
/-- The floating-point element of a format that has one. -/
def fmtElem (f : Nat) : FFmt :=
  if f = 1 then ffBF16
  else if f = 2 then ffFP16
  else if f = 3 ∨ f = 5 then ffE4M3
  else if f = 4 ∨ f = 6 then ffE5M2
  else if f = 7 then ffE2M3
  else if f = 8 then ffE3M2
  else if f = 9 ∨ f = 0x0B then ffE2M1
  else ffFP32
/-- emax of R36. -/
def fmtEmax (f : Nat) : Int :=
  if f = 5 then 8 else if f = 6 then 15 else if f = 8 then 4 else if f = 0x0A then 0 else 2
/-- f_max of R52. -/
def fmtFmax (f : Nat) : Nat := if f = 3 then 448 else if f = 4 then 57344 else 2688

/-- The value of an element code, without its scales, and whether it is a code fault (R29, R32, R34). -/
def decodeElem (f code : Nat) : FV × Bool :=
  if f = 0x0D then (.ofNat (code % 2 ^ 32), false)
  else if f = 0x0A then
    (if 128 ≤ code % 256 then .fin true (256 - code % 256) 1 (-6) else .fin false (code % 256) 1 (-6), false)
  else if f = 0x0C then
    (if code % 4 = 1 then .ofNat 1 else if code % 4 = 3 then .fin true 1 1 0 else .zero false, code % 4 == 2)
  else ((fmtElem f).decode code, fmtReserved f)

/-- The value of a block-scale code: E8M0 of an MX format (R33), else the magnitude of an E4M3 code. -/
def decodeScale (f code : Nat) : FV :=
  if fmtMX f then (if code % 256 = 255 then .nan else .fin false 1 1 ((code % 256 : Nat) - 127 : Int))
  else ffE4M3.decode (code % 128)

/-- A value as an unsigned integer (R410): the code and whether it counts a saturation. -/
def toUint32 (m : Rnd) : FV → Nat × Bool
  | .nan => (0, false)
  | .inf neg => (if neg then 0 else 0xFFFFFFFF, true)
  | .fin neg num den e =>
    let n := roundInt m num den e
    if neg ∧ 0 < n then (0, true)
    else if 0xFFFFFFFF < n then (0xFFFFFFFF, true)
    else (if neg then 0 else n, false)

/-- A value as MXINT8 (R32): −127 to +127 steps of 2^−6. -/
def toInt8 (m : Rnd) : FV → Nat × Bool
  | .nan => (0, false)
  | .inf _ => (0, false)
  | .fin neg num den e =>
    let sat := 127 < roundInt .up num den (e + 6)
    let n := if sat then 127 else roundInt m num den (e + 6)
    (if neg then (256 - n) % 256 else n, sat)

/-- The code of a value in an element format, scales apart. -/
def encodeElem (f : Nat) (m : Rnd) (x : FV) : Nat × Bool :=
  if f = 0x0D then toUint32 m x
  else if f = 0x0A then toInt8 m x
  else (fmtElem f).encode m x

/-! ### Conversions -/

/-- What a conversion gives: codes, block-scale codes and counts (R49), with the largest finite magnitude of its
inputs as an FP32 code (R51). -/
structure Conv where
  codes : List Nat
  scales : List Nat
  nan : Nat
  inf : Nat
  sat : Nat
  amax : Nat
deriving DecidableEq, Repr

/-- The rounding mode of an element: its stochastic word, or nearest even. -/
def rndOf : Option Nat → Rnd
  | none => .rne
  | some w => .stoch w

/-- Sum of exact magnitudes. -/
def sumAbs (xs : List FV) : FV := xs.foldl (fun a x => a.add x.abs) (.zero false)

/-- The largest magnitude among finite values. -/
def maxAbs (xs : List FV) : FV :=
  xs.foldl (fun a x => if x.isFinite && a.magLt x.abs then x.abs else a) (.zero false)

/-- Numbers of saturations among results. -/
def satCount (rs : List (Nat × Bool)) : Nat := (rs.filter (·.2)).length

/-- A block of an MX format (R36): scale code and elements. -/
def convMX (f : Nat) (xs : List (FV × Option Nat)) : Nat × List (Nat × Bool) :=
  match maxAbs (xs.map (·.1)) with
  | .fin _ num den e =>
    if num = 0 then (0x7F, xs.map fun _ => (0, false))
    else
      let x := max (-127) (min 127 (floorLog2 num den e - fmtEmax f))
      ((x + 127).toNat, xs.map fun p => encodeElem f (rndOf p.2) (p.1.mul (.fin false 1 1 (-x))))
  | _ => (0x7F, xs.map fun _ => (0, false))

/-- round_fp32(x / y) of a conversion. The quotient of a finite non-zero value by zero is an overflow and saturates, as R47
says of that division on the scalar cores and Carders (DEDUCED for a conversion whose scale has rounded to zero, log 63);
0 / 0 is NaN. -/
def divScale (x y : FV) : Nat × Bool := arith32 (x.isFinite && y.isFinite) (x.div y)

/-- The block scale of R37 as an E4M3 code, and whether the quotient q saturated. -/
def scaleDS (amax st : FV) : Nat × Bool :=
  let q := divScale amax (round32v ((FV.ofNat 6).mul st))
  match dec32 q.1 with
  | .fin _ num den e => (max 1 ((ffE4M3.roundMag .up num den e).1), q.2)
  | _ => (ffE4M3.maxMag, q.2)

/-- An FP4-DS block (R37): scale, elements, and the saturations of q. An element over a product of scales that has rounded
to zero saturates, or is NaN when it is zero itself, and a NaN makes the block that of R48 (DEDUCED, log 63). -/
def convDS (st : FV) (xs : List (FV × Option Nat)) : Nat × List (Nat × Bool) × Nat :=
  let amax := maxAbs (xs.map (·.1))
  if amax.isZero then (0, xs.map fun _ => (0, false), 0)
  else
    let sb := scaleDS amax st
    let den := round32v ((ffE4M3.decode sb.1).mul st)
    let ys := xs.map fun p => (divScale p.1 den, p.2)
    if ys.any fun y => !(dec32 y.1.1).isFinite then (0x7F, xs.map fun _ => (0, false), b2n sb.2)
    else (sb.1, ys.map fun y =>
      let c := ffE2M1.encode (rndOf y.2) (dec32 y.1.1)
      (c.1, y.1.2 || c.2), b2n sb.2)

/-- A T2 block of `n` inputs (R38): 16, or those present in the short last block of a compressed vector. The inputs that are
there are summed; the scale's own saturation counts on the first element. -/
def convT2 (n : Nat) (xs : List FV) : Nat × List (Nat × Bool) × Bool :=
  match (sumAbs xs).div (.ofNat n) with
  | .fin _ num den e =>
    let sb := ffE4M3.roundMag .rne num den e
    let half := (ffE4M3.decode sb.1).mul (.fin false 1 1 (-1))
    if sb.1 = 0 then (0, xs.map (fun _ => (0, false)), sb.2)
    else (sb.1, xs.map (fun x => (if x.magLt half then 0 else if x.sign then 3 else 1, false)), sb.2)
  | _ => (0, xs.map (fun _ => (0, false)), false)

/-- One block of any block-scaled format, with the non-finite rule of R48: scale, elements, extra saturations. A T2 block has
`n` inputs. -/
def convBlock (f n : Nat) (st : FV) (xs : List (FV × Option Nat)) : Nat × List (Nat × Bool) × Nat :=
  if xs.any (fun p => !p.1.isFinite) then (if fmtMX f then 0xFF else 0x7F, xs.map (fun _ => (0, false)), 0)
  else if f = 0x0C then
    let r := convT2 n (xs.map (·.1))
    (r.1, r.2.1, b2n r.2.2)
  else if f = 0x0B then convDS st xs
  else
    let r := convMX f xs
    (r.1, r.2, 0)

/-- An element of a format without blocks; with a tensor scale the value is divided by it first (R42). -/
def convPlain (f : Nat) (st : FV) (p : FV × Option Nat) : Nat × Bool :=
  if fmtHist f then
    let y := divScale p.1 st
    let c := encodeElem f (rndOf p.2) (dec32 y.1)
    (c.1, y.2 || c.2)
  else encodeElem f (rndOf p.2) p.1

/-- Convert elements that share one block of `n` inputs (or any number of elements of a format without blocks). `st` is the
target's tensor scale; each element carries its stochastic word, if the mode is stochastic. -/
def convertOf (f n : Nat) (st : FV) (xs : List (FV × Option Nat)) : Conv :=
  let nan := (xs.filter fun p => p.1.isNan).length
  let inf := (xs.filter fun p => p.1.isInf).length
  let amax := (round32 (maxAbs (xs.map (·.1)))).1
  if fmtBlock f = 0 then
    let rs := xs.map (convPlain f st)
    ⟨rs.map (·.1), [], nan, inf, satCount rs, amax⟩
  else
    let r := convBlock f n st xs
    ⟨r.2.1.map (·.1), [r.1], nan, inf, satCount r.2.1 + r.2.2, amax⟩

/-- Convert elements that share one whole block; a block that lies partly beyond the elements converted still has its 16 or
32 inputs (R38). -/
def convert (f : Nat) (st : FV) (xs : List (FV × Option Nat)) : Conv := convertOf f (fmtBlock f) st xs

/-- The scale in force of a history (R52): round_fp32(h × 2^m / f_max), 1.0 when h is zero. -/
def histScale (f : Nat) (h : Nat) (m : Int) : Nat :=
  if (dec32 h).isZero then one32
  else (round32 (((dec32 h).mul (.fin false 1 1 m)).div (.ofNat (fmtFmax f)))).1

/-! ### Square root and exponential -/

/-- floor(sqrt n) by bits from `fuel` down. -/
def isqrtAux (n : Nat) : Nat → Nat → Nat
  | 0, r => r
  | fuel + 1, r =>
    let c := r + 2 ^ fuel
    isqrtAux n fuel (if c * c ≤ n then c else r)

/-- FP32 square root, correctly rounded: 80 extra bits of an exact integer root, with a sticky bit. -/
def sqrt32 (a : Nat) : Nat × Bool :=
  match dec32 a with
  | .nan => (ffFP32.nanCode, false)
  | .inf neg => if neg then (ffFP32.nanCode, false) else (a, false)
  | .fin neg num den e =>
    if num = 0 then (a, false)
    else if neg then (ffFP32.nanCode, false)
    else
      let odd := (e % 2).toNat
      let n := num * 2 ^ odd * 2 ^ 80 / den
      let r := isqrtAux n 80 0
      round32 (.fin false (2 * r + b2n (r * r ≠ n)) 1 ((e - odd) / 2 - 41))

end Sys2Proof.Machine
end

