-- ==== Sys2Proof/Machine/Random.lean ====
section
/-! DEFINITION. Philox-4x32-10, the stream table and the shard permutation (R46, R279, R282, R283). -/
namespace Sys2Proof.Machine

/-- The state of a Philox block: four counter words. -/
structure P4 where
  c0 : Nat
  c1 : Nat
  c2 : Nat
  c3 : Nat
deriving DecidableEq, Repr

/-- One round of Philox-4x32; the multipliers are the generator's own (log 9). -/
def philoxRound (k0 k1 : Nat) (p : P4) : P4 :=
  let a := 0xD2511F53 * p.c0
  let b := 0xCD9E8D57 * p.c2
  ⟨(b / 2 ^ 32) ^^^ p.c1 ^^^ k0, b % 2 ^ 32, (a / 2 ^ 32) ^^^ p.c3 ^^^ k1, a % 2 ^ 32⟩

/-- `n` rounds; the key words advance by the Weyl constants between rounds. -/
def philoxRounds : Nat → Nat → Nat → P4 → P4
  | 0, _, _, p => p
  | n + 1, k0, k1, p =>
    philoxRounds n ((k0 + 0x9E3779B9) % 2 ^ 32) ((k1 + 0xBB67AE85) % 2 ^ 32) (philoxRound k0 k1 p)

/-- Word `j` of Philox-4x32-10 under a 64-bit key, split as k0 = [31:0] and k1 = [63:32] (R279). -/
def philoxWord (key : Nat) (c : P4) (j : Nat) : Nat :=
  let r := philoxRounds 10 (key % 2 ^ 32) (key / 2 ^ 32 % 2 ^ 32) c
  if j = 0 then r.c0 else if j = 1 then r.c1 else if j = 2 then r.c2 else r.c3

/-- The draw of element `index` at a site (R283). -/
def draw (key site epoch index : Nat) : Nat :=
  philoxWord key ⟨index / 4 % 2 ^ 32, site, epoch % 2 ^ 32, epoch / 2 ^ 32 % 2 ^ 32⟩ (index % 4)

/-- Swap entries i and j of a list. -/
def swapAt (l : List Nat) (i j : Nat) : List Nat := setAt (setAt l i (l.getD j 0)) j (l.getD i 0)

/-- The swaps of R279, for i = n down to 1, with word counter w. -/
def permSwaps (seed eps : Nat) : Nat → Nat → List Nat → List Nat
  | 0, _, pi => pi
  | i + 1, w, pi =>
    let r := philoxWord seed ⟨w / 4 % 2 ^ 32, 0, eps % 2 ^ 32, eps / 2 ^ 32 % 2 ^ 32⟩ (w % 4)
    permSwaps seed eps i (w + 1) (swapAt pi (i + 1) (r * (i + 2) / 2 ^ 32))

/-- The permutation of 0 .. ns - 1 for an epoch (R279). -/
def shardPerm (shuffle : Bool) (seed eps ns : Nat) : List Nat :=
  if shuffle then permSwaps seed eps (ns - 1) 0 (List.range ns) else List.range ns

/-- What the stream table says of a Philox stream: its key (with the device number for a PER_DEVICE stream) and its
epoch; none when the stream is invalid (R282). -/
def State.philoxStream (s : State) (img : Image) (n : Nat) : Option (Nat × Nat) :=
  if img.hasRt && decide (n < img.rtStreams) then
    let a := img.rtPhilox + 32 * n
    let w2 := s.num (a + 16) 8
    if bitOf w2 0 then
      let key := s.num a 8
      some (if bitOf w2 1 then key ^^^ (s.wheel.device % 2 ^ 13 * 2 ^ 32) else key, s.num (a + 8) 8)
    else none
  else none

/-- The site word c1 of a conversion (R283): high byte, stream kind, ordinal. -/
def siteWord (hi kind ord : Nat) : Nat := hi % 256 * 2 ^ 24 + kind % 8 * 2 ^ 21 + ord % 2 ^ 21

end Sys2Proof.Machine
end

