-- ==== Sys2Proof/Machine/Ethernet.lean ====
section
/-! DEFINITION. The Ethernet ports: negotiation, addresses, echoes and priority flow control (R323-R325, R343, R349). -/
namespace Sys2Proof.Machine

def State.port (s : State) (p : Nat) : Eth := NMap.get Eth.init s.eth p
def State.setPort (s : State) (p : Nat) (e : Eth) : State := { s with eth := NMap.set Eth.init s.eth p e }

def Eth.enabled (e : Eth) : Bool := e.live.getLsbD 31

/-- The power domain that feeds a clocked domain: the Miller and the timebase PD_ALWAYS, the PHYs their controllers' domains,
the ports PD_ETH and PD_FLUME_A to C (R372, R390; log 86). -/
def clockFeed (n : Nat) : Nat := if n < 2 then 0 else if n < 4 then n + 3 else if n < 6 then 1 else 2 + (n - 6) / 4

/-- A clocked domain's controls. -/
def State.ctrl (s : State) (n : Nat) : ClkCtrl := NMap.get ClkCtrl.init s.clk.ctrl n
/-- Whether a domain receives clock (R378, R379, R390): its power domain is on, RUN is set without SLEEP or DEEP, and its PLL is
locked or, in bypass, REFCLK is present. -/
def State.clocked (s : State) (n : Nat) : Bool :=
  let c := s.ctrl n
  s.pwr.pdOn.getLsbD (clockFeed n) && c.run && !c.sleep && !c.deep && (if c.src then s.clk.refStable && !s.clk.lost else s.clk.locked.getLsbD n)
/-- A port trains only while its domain is clocked from its PLL (R378). -/
def State.canTrain (s : State) (n : Nat) : Bool := s.clocked n && !(s.ctrl n).src

/-- The partner runs mode `c` in the medium that MEDIUM selects: bits 0 to 4 are its backplane (KR) modes and bits 5 to 9 its
cable (CR) modes. -/
def partnerMode (cfg : Word32) (partner : BitVec 10) (c : Nat) : Bool := partner.getLsbD (if cfg.getLsbD 29 then 5 + c else c)
/-- The mode that a negotiation gives: the first both ends share in the order of R324, or the forced one. -/
def ethMode (cfg : Word32) (partner : BitVec 10) : Option Nat :=
  if cfg.getLsbD 30 then [2, 1, 0, 3, 4].find? fun c => cfg.getLsbD (16 + c) && partnerMode cfg partner c
  else
    let c := (cfg.toNat / 2 ^ 12) % 16
    if c ≤ 4 ∧ partnerMode cfg partner c = true then some c else none

/-- Lanes of a mode (R323). -/
def ethLanes (mode : Nat) : BitVec 4 := if mode = 0 then 0xF else if mode = 1 then 0x3 else if mode ≤ 4 then 0x1 else 0

/-- FEC code of a mode (R323, R349); mode 0x4 takes the one negotiated. -/
def ethFec (mode : Nat) (fec4 : Fin 3) : BitVec 2 :=
  if mode = 0 then 2 else if mode = 4 then BitVec.ofNat 2 fec4.val else 3

/-- The first link up: Leat listens, or the recovery loader answers Tailrace (R326, R343, R344, R365, R380). -/
def State.firstLink (s : State) : State :=
  let t := { s with leat.tailraceOpen := s.boot.recovery || !s.leat.tailraceDone }
  if s.boot.recovery || s.leat.listening then t
  else
    let u := { t with leat.listening := true, pwr.startStep := 9 }
    if u.time.ordFault then u.raise 0x0062 0 [u.time.ordinal] else u

/-- Flash offset of a port's network setting (R353): MODE, PREFIX, 2 bytes reserved, ADDRESS, GATEWAY; log 34. -/
def netOff (p : Nat) : Nat := 0x3F30000 + 16 * p
/-- SET_NET has stored a static address for the port. -/
def State.netStatic (s : State) (p : Nat) : Bool := decide (NMap.get 0xFF s.nv.flash (netOff p) = (1 : Byte))

/-- The static address stored for a port. -/
def State.staticAddr (s : State) (p : Nat) : Word32 := BitVec.ofNat 32 (leNat (flashRead s.nv.flash (netOff p + 4) 4))

/-- A port whose link is up and for which no static address is stored asks for an address (R325). -/
def State.dhcpStart (s : State) (p : Fin 2) : State :=
  if (s.port p.val).linkUp && !s.netStatic p.val then (s.emit (.dhcp p s.nv.serial none)).tx p else s

/-- A Tailrace test or an EXTEST instruction holds the port (R347, R407). -/
def State.ethHeld (s : State) (p : Nat) : Bool :=
  s.tap.extest || s.tests.any fun x => decide (x.sel.toNat / 256 = p)

def State.ethLinkUp (s : State) (p : Fin 2) (partner : BitVec 10) (fec4 : Fin 3) : State :=
  let e := s.port p.val
  if s.up && decide (7 ≤ s.pwr.startStep) && (s.leat.listening || !s.clk.lost) && e.enabled && !e.linkUp &&
      e.downAt.isNone && s.canTrain (4 + p.val) && !s.ethHeld p.val then
    match ethMode e.live partner with
    | none => s
    | some m => (s.setPort p.val { e with
        linkUp := true, mode := BitVec.ofNat 3 m, fec := ethFec m fec4, lanes := ethLanes m, cable := e.live.getLsbD 29, anDone := e.live.getLsbD 30
        ipv4 := if s.netStatic p.val then s.staticAddr p.val else e.ipv4 }).firstLink.dhcpStart p
  else s
/-- ETH_LINK_UP (R324). -/
def execEthLinkUp (p : Fin 2) (partner : BitVec 10) (fec4 : Fin 3) (s : State) : Host.Outcome State Fault Refusal :=
  done (s.ethLinkUp p partner fec4)

/-- A port without a link. -/
def Eth.dropped (e : Eth) : Eth := { e with linkUp := false, mode := 7, lanes := 0, cable := false, fec := 0, anDone := false, pause := [] }

/-- The link is lost or has failed training; negotiation runs again after 100 ms (R324). -/
def State.ethLost (s : State) (p : Nat) : State :=
  (s.setPort p { (s.port p).dropped with downAt := some s.time.ns }).count (cEth p 5)

def State.ethLinkDown (s : State) (p : Fin 2) : State :=
  let e := s.port p.val
  if s.up && decide (7 ≤ s.pwr.startStep) && e.enabled && e.downAt.isNone then s.ethLost p.val else s
/-- ETH_LINK_DOWN (R324). -/
def execEthLinkDown (p : Fin 2) (s : State) : Host.Outcome State Fault Refusal := done (s.ethLinkDown p)

def State.ethRenegotiate (s : State) (p : Fin 2) : State :=
  let e := s.port p.val
  match e.downAt with
  | none => s
  | some t => if t + 100000000 ≤ s.time.ns then s.setPort p.val { e with downAt := none, live := e.cfg } else s
/-- ETH_RENEGOTIATE (R324). -/
def execEthRenegotiate (p : Fin 2) (s : State) : Host.Outcome State Fault Refusal := done (s.ethRenegotiate p)

/-! ### Addresses and answers (R325) -/

/-- MAC address of port `p`: the base of the FRU record plus the port number; 0 before fuse load (R325, R349). -/
def State.mac (s : State) (p : Nat) : BitVec 48 :=
  if s.boot.fusesLoaded then BitVec.ofNat 48 (leNat (flashRead s.nv.flash 0x3F10010 6) + p) else 0

/-- The IPv6 link-local address of a port, from its MAC address in modified EUI-64 form (log 33). -/
def State.linkLocal (s : State) (p : Nat) : BitVec 128 :=
  let m := (s.mac p).toNat
  BitVec.ofNat 128 (0xFE80 * 2 ^ 112 + ((m / 2 ^ 24) ^^^ 0x020000) * 2 ^ 40 + 0xFFFE * 2 ^ 24 + m % 2 ^ 24)

def State.arpRequest (s : State) (p : Fin 2) (srcMac : BitVec 48) (srcIp target : Word32) : State :=
  let e := s.port p.val
  if e.linkUp then
    let t := s.rx p
    if e.ipv4 ≠ 0 ∧ target = e.ipv4 then (t.emit (.arpReply p srcMac srcIp (s.mac p.val) e.ipv4)).tx p else t
  else s
/-- ARP_REQUEST (R325). -/
def execArpRequest (p : Fin 2) (srcMac : BitVec 48) (srcIp target : Word32) (s : State) :
    Host.Outcome State Fault Refusal := done (s.arpRequest p srcMac srcIp target)

/-- The global address that a port forms from a prefix, with the interface identifier of its link-local address (log 33). -/
def State.globalAddr (s : State) (p : Nat) (pfx : BitVec 64) : BitVec 128 :=
  BitVec.ofNat 128 (pfx.toNat * 2 ^ 64 + (s.linkLocal p).toNat % 2 ^ 64)

/-- Whether an address is one of a port's own. -/
def State.ownAddress (s : State) (p : Fin 2) (v6 : Bool) (a : BitVec 128) : Bool :=
  if v6 then decide (a = s.linkLocal p.val) || (s.port p.val).prefixes.any fun x => a == s.globalAddr p.val x
  else decide ((s.port p.val).ipv4 ≠ 0) && decide (a.toNat = (s.port p.val).ipv4.toNat)

def State.icmpEcho (s : State) (p : Fin 2) (kind : EchoKind) (src dst : BitVec 128) (payload : List Byte) : State :=
  if (s.port p.val).linkUp && decide (payload.length + (if kind.v6 then 66 else 46) ≤ 9216) then
    let t := s.rx p
    if s.ownAddress p kind.v6 dst && !kind.fragment then (t.emit (.icmpReply p kind.v6 dst src payload)).tx p else t
  else s
/-- ICMP_ECHO (R325): a fragment is received and discarded. -/
def execIcmpEcho (p : Fin 2) (kind : EchoKind) (src dst : BitVec 128) (payload : List Byte) (s : State) :
    Host.Outcome State Fault Refusal := done (s.icmpEcho p kind src dst payload)

def State.neighbour (s : State) (p : Fin 2) (src : BitVec 128) (m : NdMsg) : State :=
  if (s.port p.val).linkUp then
    let t := s.rx p
    match m with
    | .solicit target => if s.ownAddress p true target then (t.emit (.neighbourAdvert p src target (s.mac p.val))).tx p else t
    | .prefixAdvert pfx =>
      let e := s.port p.val
      if e.prefixes.contains pfx then t else t.setPort p.val { e with prefixes := e.prefixes ++ [pfx] }
  else s
/-- NEIGHBOUR_DISCOVERY (R325): a solicitation is answered, and an advertised prefix gives a global address. -/
def execNeighbourDiscovery (p : Fin 2) (src : BitVec 128) (m : NdMsg) (s : State) : Host.Outcome State Fault Refusal :=
  done (s.neighbour p src m)

def State.dhcp (s : State) (p : Fin 2) (kind : DhcpKind) (clientId : Word64) (yiaddr : Word32) : State :=
  let e := s.port p.val
  if e.linkUp then
    let t := s.rx p
    if s.netStatic p.val || decide (clientId ≠ s.nv.serial) then t
    else match kind with
      | .offer => if e.ipv4 = 0 then (t.emit (.dhcp p s.nv.serial (some yiaddr))).tx p else t
      | .ack => t.setPort p.val { e with ipv4 := yiaddr }
      | .nak => (t.setPort p.val { e with ipv4 := 0 }).dhcpStart p
  else s
/-- DHCP_MESSAGE (R325): an offer is requested, an ACK gives the address, and a NAK takes it away and begins again. -/
def execDhcpMessage (p : Fin 2) (kind : DhcpKind) (clientId : Word64) (yiaddr : Word32) (s : State) :
    Host.Outcome State Fault Refusal := done (s.dhcp p kind clientId yiaddr)

def State.pfcPause (s : State) (p : Fin 2) (prios : Byte) (quanta : BitVec 16) : State :=
  let e := s.port p.val
  if e.linkUp then
    let t := s.rx p
    let prio := (e.live.toNat / 32) % 8
    if e.live.getLsbD 4 && prios.getLsbD prio then
      t.setPort p.val { e with pause := if quanta = 0 then NMap.erase e.pause prio
                                        else NMap.set (0, 0) e.pause prio (quanta.toNat, s.time.ns) }
    else t
  else s
/-- PFC_PAUSE (R325). -/
def execPfcPause (p : Fin 2) (prios : Byte) (quanta : BitVec 16) (s : State) : Host.Outcome State Fault Refusal :=
  done (s.pfcPause p prios quanta)

end Sys2Proof.Machine
end

