-- ==== Sys2Proof/Machine/FlumeLink.lean ====
section
/-! DEFINITION. Flume ports: flits, the replay buffer, credits, training, the spare lane and returning lanes (R233-R246). -/
namespace Sys2Proof.Machine

def State.fport (s : State) (p : Nat) : FlumePort := NMap.get FlumePort.init s.flume p
def State.setFport (s : State) (p : Nat) (q : FlumePort) : State :=
  { s with flume := NMap.set FlumePort.init s.flume p q }

/-! ### Flits (R235, R236) -/

/-- A word with its check bits (R234). -/
def codeWord (d : Nat) : BitVec 72 := BitVec.ofNat 72 (d + checkOf d * 2 ^ 64)

/-- The bytes of a flit that the CRC covers: 0-503 and 508-511 (R236). -/
def crcBytes (ws : List Nat) : List Byte :=
  let bs := ws.flatMap (leBytes 8)
  bs.take 504 ++ slice bs 508 4

/-- A flit as sent: header, 62 payload words and trailer with its CRC. -/
def flitWords (typ cls first seq ack crCls credits : Nat) (payload : List Nat) : List (BitVec 72) :=
  let n := payload.length
  let head := typ * 2 ^ 60 + cls * 2 ^ 58 + n * 2 ^ 48 + seq % 2 ^ 16 * 2 ^ 32 + first
  let tail := ack % 2 ^ 16 * 2 ^ 48 + crCls * 2 ^ 46 + credits * 2 ^ 36
  let ws := head :: payload ++ List.replicate (62 - n) 0 ++ [tail]
  (head :: payload ++ List.replicate (62 - n) 0 ++ [tail + crc32c (crcBytes ws)]).map codeWord

/-- A received flit after correction. -/
structure FlitIn where
  /-- no word is uncorrectable and the CRC matches -/
  ok : Bool
  /-- corrected words -/
  ce : Nat
  /-- codeword positions of the corrected bits (R234) -/
  bits : List Nat
  /-- the header word was delivered -/
  headOk : Bool
  typ : Nat
  cls : Nat
  count : Nat
  seq : Nat
  ack : Nat
  crCls : Nat
  credits : Nat
  payload : List Nat

/-- One word after correction, whether it was corrected, and whether it is uncorrectable (R126). -/
def rxWord (w : BitVec 72) : Nat × Bool × Bool :=
  let d := w.toNat % 2 ^ 64
  match eccOf d (w.toNat / 2 ^ 64 ^^^ checkOf d) with
  | .ok => (d, false, false)
  | .ce x => (x, true, false)
  | .ue => (d, false, true)

/-- Codeword position of the bit that is corrected in a word (R125, R234). -/
def wrongBit (w : BitVec 72) : Option Nat :=
  let d := w.toNat % 2 ^ 64
  let syn := w.toNat / 2 ^ 64 ^^^ checkOf d
  match eccOf d syn with
  | .ce x => some (if x = d then 64 + Nat.log2 syn else Nat.log2 (d ^^^ x))
  | _ => none

def flitIn (words : List (BitVec 72)) : FlitIn :=
  let rs := words.map rxWord
  let ws := rs.map (·.1)
  let head := ws.getD 0 0
  let tail := ws.getD 63 0
  { ok := decide (words.length = 64) && !rs.any (·.2.2) && decide (tail % 2 ^ 32 = crc32c (crcBytes ws))
    ce := (rs.filter (·.2.1)).length, bits := words.filterMap wrongBit, headOk := !(rs.getD 0 (0, false, true)).2.2
    typ := bitsOf head 63 60, cls := bitsOf head 59 58, count := min 62 (bitsOf head 53 48), seq := bitsOf head 47 32
    ack := bitsOf tail 63 48, crCls := bitsOf tail 47 46, credits := bitsOf tail 45 36
    payload := (ws.drop 1).take 62 }

/-! ### Suspicion (R266) -/

/-- Role of a port in the running job (R250, R316). -/
def State.role (s : State) (p : Nat) : Nat := s.wheel.roles.getD p 0
/-- A replay or retrain on a role port during a step makes a fault suspected. -/
def State.suspect (s : State) (p : Nat) : State :=
  if s.wheel.active && decide (1 ≤ s.role p) && decide (s.role p ≤ 6) then { s with wheel.suspected := true } else s

/-! ### Sending (R235, R237, R238) -/

/-- Take the credit return of a class that has buffers to return. -/
def FlumePort.credit (q : FlumePort) : Nat × Nat :=
  match findIdx (fun n => decide (0 < n)) q.freed with
  | some c => (c, min 1023 (q.freed.getD c 0))
  | none => (0, 0)

/-- Send one flit with the port's ACK and a credit return. -/
def State.sendFlit (s : State) (p typ cls first seq : Nat) (payload : List Nat) : State :=
  let q := s.fport p
  let c := q.credit
  let ack := (q.rxSeq + 65535) % 65536
  (s.setFport p { q with freed := setAt q.freed c.1 (q.freed.getD c.1 0 - c.2), told := ack }).emit
    (.flit (Fin.ofNat 12 p) (flitWords typ cls first seq ack c.1 c.2 payload))

/-- Send a sequenced flit for the first time and keep it for replay. -/
def State.sendSequenced (s : State) (p typ cls first : Nat) (payload : List Nat) : State :=
  let q := s.fport p
  let f : SentFlit := ⟨q.txSeq, typ, cls, first, payload.map (BitVec.ofNat 64), 0⟩
  (s.setFport p { q with replay := q.replay ++ [f], txSeq := (q.txSeq + 1) % 65536 }).sendFlit p typ cls first q.txSeq payload

/-- Send a REQ flit (R235). -/
def State.sendReq (s : State) (p cmd logical phys seq : Nat) : State :=
  s.sendFlit p 0x3 0 0 0 [cmd * 2 ^ 60 + logical * 2 ^ 58 + phys * 2 ^ 55 + seq % 65536 * 2 ^ 32]

/-- The class to send next: control first, then the others in turn after the one sent last (R238). -/
def FlumePort.nextClass (q : FlumePort) : Option Nat :=
  let ready := fun c => !(q.txBuf.getD c []).isEmpty && decide (0 < q.credits.getD c 0)
  if ready 3 then some 3
  else ([1, 2, 3].map fun k => (q.lastClass + k) % 3).find? ready

/-- Words of a byte list. -/
def toWords : Nat → List Byte → List Nat
  | 0, _ => []
  | n + 1, bs => if bs.isEmpty then [] else leNat (bs.take 8) :: toWords n (bs.drop 8)

/-- Send up to 496 bytes of a class as one DATA flit. -/
def State.sendData (s : State) (p c : Nat) : State :=
  let q := s.fport p
  let bs := (q.txBuf.getD c []).take 496
  let nx := q.txNext.getD c []
  let first := match nx.find? (fun o => decide (o < 496)) with
    | some o => o / 8 + 1
    | none => 0
  let q' := { q with
    txBuf := setAt q.txBuf c ((q.txBuf.getD c []).drop 496)
    txNext := setAt q.txNext c ((nx.filter fun o => decide (496 ≤ o)).map (· - 496))
    credits := setAt q.credits c (q.credits.getD c 0 - 1), lastClass := if c = 3 then q.lastClass else c }
  (s.setFport p q').sendSequenced p 0x1 c first (toWords 62 bs)

/-- Send the oldest MARK that waits. -/
def State.sendMark (s : State) (p : Nat) (w : Word64) : State :=
  let q := s.fport p
  (s.setFport p { q with marks := q.marks.drop 1 }).sendSequenced p 0x2 3 0 [w.toNat]

/-- Send what is ready: MARKs, then data against a credit, with room in the replay buffer (R237, R238). -/
def State.pump (s : State) (p : Nat) : Nat → State
  | 0 => s
  | n + 1 =>
    let q := s.fport p
    if q.st = .active ∧ q.replay.length < 512 then
      (match q.marks with
       | w :: _ => (s.sendMark p w).pump p n
       | [] => match q.nextClass with
         | some c => (s.sendData p c).pump p n
         | none => s)
    else s

/-- An ACTIVE port has an ACK or buffers that the far end has not been told of. -/
def FlumePort.untold (q : FlumePort) : Bool :=
  q.freed.any (fun n => decide (0 < n)) || decide (q.told ≠ (q.rxSeq + 65535) % 65536)
/-- With no other flit ready, IDLE flits carry the ACK and the credits (R235). The IDLE flits that say nothing new are left out
of the record of what is sent (log 59). -/
def State.tell (s : State) (p : Nat) : Nat → State
  | 0 => s
  | n + 1 => if (s.fport p).st = .active ∧ (s.fport p).untold = true then (s.sendFlit p 0 0 0 0 []).tell p n else s

/-- More flits than one call can need. -/
def pumpFuel : Nat := 1024
/-- Send what is ready; then one IDLE for each class that has credits to return, and one for the ACK at the least. -/
def State.pumpAll (s : State) (p : Nat) : State := (s.pump p pumpFuel).tell p 5

/-- The bytes of a frame on a link: two header words and the body, padded to a whole word (R239; log 31). -/
def frameBytes (f : Frame) : List Byte :=
  let n := f.body.length
  leBytes 8 (n * 2 ^ 40 + f.kind.toNat * 2 ^ 32 + f.id.toNat) ++
    leBytes 8 (f.dest.toNat + f.src.toNat * 2 ^ 13 + f.count.toNat * 2 ^ 26 + f.pos.toNat * 2 ^ 42) ++
    padTo (roundUp n 8) 0 f.body

/-- Traffic class of a frame kind (R235, R239). -/
def frameClass (kind : Byte) : Nat :=
  if kind = 1 ∨ kind = 2 ∨ kind = 3 then 0 else if kind = 4 ∨ kind = 5 ∨ kind = 6 then 1
  else if kind = 7 ∨ kind = 8 then 2 else 3

/-- Queue a frame on a port and send what can be sent. -/
def State.queueFrame (s : State) (p : Nat) (f : Frame) : State :=
  let q := s.fport p
  let c := frameClass f.kind
  let b := q.txBuf.getD c []
  (s.setFport p { q with
    txBuf := setAt q.txBuf c (b ++ frameBytes f), txNext := setAt q.txNext c (q.txNext.getD c [] ++ [b.length]) }).pumpAll p

/-! ### Entering states -/

/-- Nothing of a link's traffic is left. -/
def FlumePort.cleared (q : FlumePort) : FlumePort :=
  { q with
    txSeq := 0, rxSeq := 0, acked := 0xFFFF, replay := [], nakSent := false, rxFails := 0, credits := [128, 128, 128, 128]
    freed := [0, 0, 0, 0], rxBuf := [[], [], [], []], txBuf := [[], [], [], []], txNext := [[], [], [], []], req := none
    retraining := false, mode := 0, rxBefore := none, cancelled := false, txBefore := none, marks := [], told := 0xFFFF, ceLog := [] }

/-- The health monitor notes that a port with a role from 1 to 6 has entered DOWN (R302). -/
def State.noteNeighbour (s : State) (p : Nat) : State :=
  if 1 ≤ s.role p ∧ s.role p ≤ 6 then { s with health.lastNeighbour := some s.time.ns } else s
/-- The port enters DOWN; each entry counts once in LINK_DOWN (R242). -/
def State.portDown (s : State) (p : Nat) : State :=
  (((s.setFport p { (s.fport p).cleared with st := .down, downAt := s.time.ns }).count (cFlume p 6)).noteNeighbour p).emit
    (.lanes (Fin.ofNat 12 p) false)

/-- The port enters DISABLED. -/
def State.portOff (s : State) (p : Nat) : State :=
  (s.setFport p { (s.fport p).cleared with st := .disabled }).emit (.lanes (Fin.ofNat 12 p) false)

/-- The port enters RETRAIN, keeping its replay buffer (R242); R241 will map its lanes, so a return in progress ends, and a MARK
that the far end still resends for it changes nothing (R246). -/
def State.retrain (s : State) (p : Nat) : State :=
  let q := s.fport p
  ((s.setFport p { q with
    st := .retrain, nakSent := false, rxFails := 0, req := none, rx := { q.rx with shadow := none, released := none }
    tx := { q.tx with shadow := none, released := none }, cancelled := q.cancelled || q.rxBefore.isSome, rxBefore := none
    txBefore := none, marks := [] }).count (cFlume p 3)).suspect p

/-- Our CAP flit (R240), with the lanes that the latest training left good. -/
def State.sendCap (s : State) (p : Nat) : State :=
  let q := s.fport p
  let vers := if q.live.getLsbD 30 then 1 else 3
  s.sendFlit p 0x4 0 0 0
    [0x08 * 2 ^ 56 + vers * 2 ^ 48 + p * 2 ^ 44 + (~~~q.rx.retired).toNat * 2 ^ 39, (if s.boot.fusesLoaded then s.nv.serial.toNat else 0)]

/-- An enabled port may leave DISABLED: its domain is powered, no test holds it and the device has not failed (R315,
R343, R390). -/
def State.portRuns (s : State) (p : Nat) : Bool :=
  s.up && s.pwr.pdOn.getLsbD (2 + p / 4) && !s.tap.extest && !(s.fport p).held && !s.run.failed && !s.boot.recovery
/-- It trains only while its domain is clocked from its PLL (R378). -/
def State.portTrains (s : State) (p : Nat) : Bool := s.portRuns p && s.canTrain (6 + p)

/-! ### Lane maps (R241) -/

/-- Good lanes, ascending. -/
def goodLanes (g : BitVec 5) : List Nat := (List.range 5).filter fun i => g.getLsbD i

/-- The map of one direction at the end of training; none when fewer than two lanes are good. -/
def mapLanes (g : BitVec 5) : Option LaneMap :=
  let l := goodLanes g
  let n := if 4 ≤ l.length then 4 else 2
  if l.length < 2 then none
  else some ⟨l.take n, l.getD n 7, ~~~g, l.take n, none, none⟩

/-- Lanes mapped in both directions, with a state to enter; DOWN when a direction has fewer than two. -/
def State.mapPort (s : State) (p : Nat) (rx tx : BitVec 5) (k : FlumePort → FlumePort) : State × Bool :=
  match mapLanes rx, mapLanes tx with
  | some r, some t => (s.setFport p (k { s.fport p with rx := r, tx := t, ceLog := [] }), true)
  | _, _ => (s.portDown p, false)

def State.signalDetect (s : State) (p : Nat) (lanes : BitVec 5) : State :=
  let q := s.fport p
  if q.st = .detect ∧ s.portTrains p = true ∧ 2 ≤ (goodLanes lanes).length then
    (s.setFport p { q with st := .train2, live := q.cfg, mode := 0 }).emit (.lanes (Fin.ofNat 12 p) true)
  else s
/-- FLUME_SIGNAL_DETECT (R242). -/
def execFlumeSignalDetect (p : Fin 12) (lanes : BitVec 5) (s : State) : Host.Outcome State Fault Refusal :=
  done (s.signalDetect p.val lanes)

/-- TRAIN_3 left fewer than four good lanes in a direction where TRAIN_2 had four (R241). -/
def worse (g2 g3 : BitVec 5) : Bool := decide (4 ≤ (goodLanes g2).length) && decide ((goodLanes g3).length < 4)

def State.trainDone (s : State) (p : Nat) (rx tx : BitVec 5) : State :=
  let q := s.fport p
  if !s.canTrain (6 + p) then s
  else if q.st = .train2 then
    let r := s.mapPort p rx tx fun q => { q with st := .caps, mode := 1, good2 := (rx, tx), retraining := false }
    if r.2 then r.1.sendCap p else r.1
  else if q.st = .train3 then
    if (goodLanes rx).length < 2 ∨ (goodLanes tx).length < 2 then s.portDown p
    else if worse q.good2.1 rx || worse q.good2.2 tx then State.retrain (s.setFport p { q with mode := 1 }) p
    else (s.mapPort p rx tx fun q => { q with st := .active, mode := 2 }).1
  else s
/-- FLUME_TRAIN_DONE (R241). -/
def execFlumeTrainDone (p : Fin 12) (goodRx goodTx : BitVec 5) (s : State) : Host.Outcome State Fault Refusal :=
  done (s.trainDone p.val goodRx goodTx)

/-- Resend kept flits in order (R237, R242). -/
def State.resend (s : State) (p : Nat) : List SentFlit → State
  | [] => s
  | f :: fs => (s.sendFlit p f.typ f.cls f.first f.seq (f.words.map (·.toNat))).resend p fs

/-- A CAP flit that has not failed (R240, R242). -/
def State.capIn (s : State) (p : Nat) (f : FlitIn) : State :=
  let q := s.fport p
  let w := f.payload.getD 0 0
  let serial := BitVec.ofNat 64 (f.payload.getD 1 0)
  let q1 := { q with
    peerGm6 := decide (bitsOf w 63 56 = 6), peerPort := bitsOf w 47 44, nowSerial := serial
    peerSerial := match q.peerSerial with | some x => some x | none => some serial }
  if q.retraining then
    (if q.peerSerial = some serial then
       ((s.setFport p { q1 with st := .active, retraining := false }).resend p q1.replay).pumpAll p
     else State.portDown (s.setFport p q1) p)
  else if bitOf (bitsOf w 55 48) 1 && !q.live.getLsbD 30 && !q1.peerGm6 then s.setFport p { q1 with st := .train3 }
  else s.setFport p { q1 with st := .active, mode := 1 }

def State.cap (s : State) (p : Nat) (words : List (BitVec 72)) : State :=
  let f := flitIn words
  if (s.fport p).st = .caps then
    let t := s.countN (cFlume p 0) f.ce
    if f.ok && decide (f.typ = 4) then t.capIn p f else t.count (cFlume p 1)
  else s
/-- CAP (R240). -/
def execCap (p : Fin 12) (words : List (BitVec 72)) (s : State) : Host.Outcome State Fault Refusal := done (s.cap p.val words)

/-- A RETRAIN lasts until its CAPS have ended (R242). -/
def FlumePort.inRetrain (q : FlumePort) : Bool := decide (q.st = .retrain) || (decide (q.st = .caps) && q.retraining)
def State.retrainTimeout (s : State) (p : Nat) : State := if (s.fport p).inRetrain then s.portDown p else s
/-- RETRAIN_TIMEOUT (R242). -/
def execRetrainTimeout (p : Fin 12) (s : State) : Host.Outcome State Fault Refusal := done (s.retrainTimeout p.val)

/-- Receive lanes that have all gone idle take a port down from every state in which its lanes train or carry flits. -/
def State.rxIdle (s : State) (p : Nat) : State :=
  match (s.fport p).st with
  | .disabled => s
  | .detect => s
  | .down => s
  | _ => s.portDown p
/-- FLUME_RX_IDLE (R242). -/
def execFlumeRxIdle (p : Fin 12) (s : State) : Host.Outcome State Fault Refusal := done (s.rxIdle p.val)

def State.downTimeout (s : State) (p : Nat) : State :=
  let q := s.fport p
  if q.st = .down ∧ s.portRuns p = true ∧ q.downAt + 10000000 ≤ s.time.ns then
    s.setFport p { q with st := .detect, live := q.cfg }
  else s
/-- FLUME_DOWN_TIMEOUT (R242). -/
def execFlumeDownTimeout (p : Fin 12) (s : State) : Host.Outcome State Fault Refusal := done (s.downTimeout p.val)

def State.retrainDone (s : State) (p : Nat) (rx tx : BitVec 5) : State :=
  if (s.fport p).st = .retrain ∧ s.canTrain (6 + p) = true then
    let r := s.mapPort p rx tx fun q => { q with st := .caps, retraining := true }
    if r.2 then r.1.sendCap p else r.1
  else s
/-- RETRAIN_DONE (R242). -/
def execRetrainDone (p : Fin 12) (goodRx goodTx : BitVec 5) (s : State) : Host.Outcome State Fault Refusal :=
  done (s.retrainDone p.val goodRx goodTx)

/-! ### Retiring a lane (R243, R244) -/

/-- Good lanes of a direction. -/
def LaneMap.good (m : LaneMap) : List Nat := goodLanes (~~~m.retired)
/-- The direction with a lane retired: its logical lane goes to the spare, or the direction goes narrow. -/
def LaneMap.retire (m : LaneMap) (lane : Nat) : LaneMap :=
  let r := { m with retired := m.retired ||| BitVec.ofNat 5 (2 ^ lane), shadow := none, released := none }
  match findIdx (· == lane) m.map with
  | none => if m.spare = lane then { r with spare := 7 } else r
  | some l => if m.spare ≠ 7 then { r with map := setAt m.map l m.spare, spare := 7 } else { r with map := r.good.take 2 }

/-- The receiver reads by a new map, counts the remapping and asks for it (R244). -/
def State.remap (s : State) (p : Nat) (m : LaneMap) (req : LaneReq) : State :=
  if m.map.length < 2 then s.portDown p
  else ((s.setFport p { s.fport p with rx := m, req := some req }).count (cFlume p 4)).sendReq p req.cmd req.logical req.phys req.seq

/-- The receiver retires a lane. A return in progress is cancelled, and R244 applies as though its lane were still retired: so
the returning lane itself, when it is the one lost after the switch, gives its logical lane back to the lane it was to
release (R246). -/
def State.retireLane (s : State) (p lane : Nat) : State :=
  let q := s.fport p
  let base := q.rxBefore.getD q.rx
  let t := s.setFport p { q with
    rxBefore := none, cancelled := q.cancelled || q.rxBefore.isSome, ceLog := q.ceLog.filter fun e => e.2 != lane
    rx := base.retire lane, req := match q.req with
      | some r => if r.cmd = 5 then none else some r
      | none => none }
  match findIdx (· == lane) base.map with
  | some l =>
    t.remap p (base.retire lane) (if base.spare ≠ 7 then ⟨2, l, base.spare, q.rxSeq⟩ else ⟨3, l % 4, lane, q.rxSeq⟩)
  | none =>
    if q.rxBefore.isSome && decide (base.shadow = some lane) then
      (match findIdx (· == lane) q.rx.map with
       | some l => t.remap p (base.retire lane) ⟨2, l, base.map.getD l 7, q.rxSeq⟩
       | none => t.remap p (base.retire lane) ⟨3, 0, lane, q.rxSeq⟩)
    else t

def State.laneLockLoss (s : State) (p : Nat) (lanes : BitVec 5) : State :=
  let q := s.fport p
  if q.st = .active then
    let lost := goodLanes (lanes &&& ~~~q.rx.retired)
    let used := lost.filter fun i => q.rx.map.contains i
    if 2 ≤ used.length then s.retrain p else lost.foldl (fun t i => t.retireLane p i) s
  else s
/-- LANE_LOCK_LOSS (R243, R242). -/
def execLaneLockLoss (p : Fin 12) (lanes : BitVec 5) (s : State) : Host.Outcome State Fault Refusal :=
  done (s.laneLockLoss p.val lanes)

/-- Corrected bits count for the lane they came on: four lanes carry 18 bits of a codeword each, two carry 36 (R234). -/
def FlumePort.corrected (q : FlumePort) (now : Nat) (bits : List Nat) : FlumePort :=
  if bits.isEmpty then q
  else { q with ceLog := (bits.map fun b => (now, q.rx.map.getD (b / (if q.rx.map.length = 4 then 18 else 36)) 7)) ++
      q.ceLog.filter fun e => decide (now < e.1 + 1000000) }
/-- Corrected bits of a lane within 1 ms of link time. -/
def FlumePort.laneBits (q : FlumePort) (lane : Nat) : Nat := (q.ceLog.filter fun e => e.2 == lane).length
/-- LANE_CE_LIMIT in force (R267). -/
def FlumePort.ceLimit (q : FlumePort) : Nat := bitsOf q.live.toNat 15 0

def State.laneCeLimit (s : State) (p : Nat) (lane : Nat) : State :=
  let q := s.fport p
  if q.st = .active ∧ q.rx.map.contains lane = true ∧ q.ceLimit < q.laneBits lane then s.retireLane p lane else s
/-- LANE_CE_LIMIT (R243). -/
def execLaneCeLimit (p : Fin 12) (lane : Fin 5) (s : State) : Host.Outcome State Fault Refusal :=
  done (s.laneCeLimit p.val lane.val)

def State.reqRepeat (s : State) (p : Nat) : State :=
  let q := s.fport p
  match q.req with
  | some r => if q.st = .active then s.sendReq p r.cmd r.logical r.phys r.seq else s
  | none => s
/-- REQ_REPEAT (R244, R245). -/
def execReqRepeat (p : Fin 12) (s : State) : Host.Outcome State Fault Refusal := done (s.reqRepeat p.val)

/-! ### A returning lane (R245) -/

def State.prbsPassed (s : State) (p : Nat) (lane : Nat) : State :=
  let q := s.fport p
  if q.st = .active ∧ q.rx.retired.getLsbD lane = true ∧ q.rx.shadow = none ∧ q.req = none then
    State.sendReq (s.setFport p { q with rx := { q.rx with shadow := some lane } }) p 4 0 lane 0
  else s
/-- LANE_PRBS_PASSED (R245). -/
def execLanePrbsPassed (p : Fin 12) (lane : Fin 5) (s : State) : Host.Outcome State Fault Refusal :=
  done (s.prbsPassed p.val lane.val)

/-- The home logical lane of a physical lane: the one it carried at training; lane 0 for one that carried none. -/
def LaneMap.homeOf (m : LaneMap) (lane : Nat) : Nat := (findIdx (· == lane) m.home).getD 0

/-- The direction after the switch: at full width the logical lane moves to the returning lane and the old one is
released; in narrow mode the lane is only good again. -/
def LaneMap.switch (m : LaneMap) (lane : Nat) : LaneMap :=
  let r := { m with retired := m.retired &&& ~~~(BitVec.ofNat 5 (2 ^ lane)), shadow := none }
  if m.map.length = 4 then
    { r with released := m.map[m.homeOf lane]?, map := setAt m.map (m.homeOf lane) lane }
  else r

def State.shadowMatch (s : State) (p : Nat) (lane : Nat) (at_ : Nat) : State :=
  let q := s.fport p
  if q.st = .active ∧ q.rx.shadow = some lane then
    let req : LaneReq := ⟨5, q.rx.homeOf lane, lane, at_⟩
    ((s.setFport p { q with rx := q.rx.switch lane, req := some req, rxBefore := some q.rx, cancelled := false }).count
      (cFlume p 5)).sendReq p 5 req.logical lane at_
  else s
/-- LANE_SHADOW_MATCH (R245). -/
def execLaneShadowMatch (p : Fin 12) (lane : Fin 5) (at_ : BitVec 16) (s : State) :
    Host.Outcome State Fault Refusal := done (s.shadowMatch p.val lane.val at_.toNat)

/-! ### Every received flit (R237, R238) -/

/-- A flit fails: it is discarded, and the first discard since the last acceptance sends REQ NAK, unless a remap is
awaited; the eighth failure in succession of the flit expected next makes the port retrain (R237, R244). -/
def State.flitFail (s : State) (p : Nat) (same : Bool) : State :=
  let q := s.fport p
  let n := if same then q.rxFails + 1 else q.rxFails
  let t := s.setFport p { q with rxFails := n, nakSent := true }
  let quiet := q.nakSent || (match q.req with | some r => decide (r.cmd = 2 ∨ r.cmd = 3) | none => false)
  let u := if quiet then t else t.sendReq p 1 0 0 q.rxSeq
  if 8 ≤ n then u.retrain p else u

/-- The flits still to be acknowledged after an ACK. -/
def ackReplay (ack : Nat) (fs : List SentFlit) : List SentFlit :=
  if fs.any (fun f => f.seq == ack) then (fs.dropWhile fun f => f.seq != ack).drop 1 else fs

/-- ACK and credits of a flit that has not failed. -/
def State.flitTrailer (s : State) (p : Nat) (f : FlitIn) : State :=
  let q := s.fport p
  (s.setFport p { q with
    acked := f.ack, replay := ackReplay f.ack q.replay
    credits := setAt q.credits f.crCls (min 128 (q.credits.getD f.crCls 0 + f.credits)) })

/-- A flit arrives on an ACTIVE port: corrections are counted, for the link and for their lanes, a failed one is discarded, and one that has not failed
delivers its ACK and credits and is handed on. -/
def State.flitArrive (s : State) (p : Nat) (words : List (BitVec 72)) (k : State → FlitIn → State) : State :=
  if (s.fport p).st = .active then
    let f := flitIn words
    let t := (s.setFport p ((s.fport p).corrected s.time.ns f.bits)).countN (cFlume p 0) f.ce
    if f.ok && decide (f.typ ≤ 4) then k (t.flitTrailer p f) f
    else (t.count (cFlume p 1)).flitFail p
      (f.headOk && decide (f.typ = 1 ∨ f.typ = 2) && decide (f.seq = (s.fport p).rxSeq))
  else s

/-- Accept a sequenced flit in SEQ order; another is discarded (R237). -/
def State.sequenced (s : State) (p : Nat) (f : FlitIn) (k : State → State) : State :=
  let q := s.fport p
  if f.seq = q.rxSeq then
    let req := match q.req with
      | some r => if (r.cmd = 2 ∨ r.cmd = 3) ∧ r.seq = f.seq then none else some r
      | none => none
    k (s.setFport p { q with rxSeq := (q.rxSeq + 1) % 65536, nakSent := false, rxFails := 0, req := req })
  else s.flitFail p false

def State.idleIn (s : State) (p : Nat) (words : List (BitVec 72)) : State :=
  s.flitArrive p words fun t f => if f.typ = 0 then t.pumpAll p else t
/-- IDLE (R235). -/
def execIdle (p : Fin 12) (words : List (BitVec 72)) (s : State) : Host.Outcome State Fault Refusal :=
  done (s.idleIn p.val words)

/-- A MARK changes the receive map (R235, R245). -/
def LaneMap.mark (m : LaneMap) (cmd lane : Nat) : LaneMap :=
  if cmd = 1 then { m with spare := lane, released := none }
  else
    let g := m.good
    { m with map := g.take 4, spare := g.getD 4 7, released := none }

def State.markIn (s : State) (p : Nat) (words : List (BitVec 72)) : State :=
  s.flitArrive p words fun t f =>
    if f.typ = 2 then
      t.sequenced p f fun u =>
        let q := u.fport p
        let w := f.payload.getD 0 0
        let cmd := bitsOf w 63 60
        let req := match q.req with
          | some r => if r.cmd = 5 then none else some r
          | none => none
        let rx := if q.cancelled then q.rx else q.rx.mark cmd (bitsOf w 57 55)
        (if cmd = 1 ∨ cmd = 2 then
          u.setFport p { q with rx := rx, req := req, rxBefore := none, cancelled := false } else u).pumpAll p
    else t
/-- MARK (R246). -/
def execMark (p : Fin 12) (words : List (BitVec 72)) (s : State) : Host.Outcome State Fault Refusal :=
  done (s.markIn p.val words)

/-- A REQ flit with a given command. -/
def State.reqIn (s : State) (p : Nat) (words : List (BitVec 72)) (cmd : Nat) (k : State → Nat → State) : State :=
  s.flitArrive p words fun t f =>
    if f.typ = 3 ∧ bitsOf (f.payload.getD 0 0) 63 60 = cmd then (k t (f.payload.getD 0 0)).pumpAll p else t

/-- Resend in order from a SEQ (R237, R244). -/
def State.resendFrom (s : State) (p e : Nat) : State := s.resend p ((s.fport p).replay.dropWhile fun f => f.seq != e)

/-- A resend from a NAK counts; the eighth failure in succession of the same flit makes the port retrain instead (R237). -/
def State.nakResend (s : State) (p e : Nat) : State :=
  let q := s.fport p
  let n : Nat := ((q.replay.filter fun f => f.seq == e).map fun f => f.sends + 1).headD 0
  let q' := { q with replay := q.replay.map fun f => if f.seq = e then { f with sends := f.sends + 1 } else f }
  let t := s.setFport p q'
  if 8 ≤ n then t.retrain p else ((t.count (cFlume p 2)).suspect p).resendFrom p e

def State.nakIn (s : State) (p : Nat) (words : List (BitVec 72)) : State :=
  s.reqIn p words 1 fun t w => t.nakResend p (bitsOf w 47 32)
/-- NAK (R237). -/
def execNak (p : Fin 12) (words : List (BitVec 72)) (s : State) : Host.Outcome State Fault Refusal :=
  done (s.nakIn p.val words)

/-- The sender's map after REQ SPARE. -/
def LaneMap.toSpare (m : LaneMap) (l phys : Nat) : LaneMap :=
  { m with
    retired := (match m.map[l]? with | some old => m.retired ||| BitVec.ofNat 5 (2 ^ old) | none => m.retired)
    map := setAt m.map l phys, spare := 7, shadow := none, released := none }

/-- The transmit map that a remap starts from: when the far end has not accepted the MARK of a switch, its retirement has
cancelled the return, and the map from before the switch is in force again (R246). -/
def FlumePort.txBase (q : FlumePort) : LaneMap :=
  if !q.marks.isEmpty || q.replay.any (fun f => f.typ == 2) then q.txBefore.getD q.tx else q.tx

/-- The sender takes a map that the receiver asks for, and resends from E (R244); a request that is repeated resends again. -/
def State.remapTx (s : State) (p e : Nat) (m : LaneMap) : State :=
  State.resendFrom (s.setFport p { s.fport p with tx := m, txBefore := none, marks := [] }) p e

def State.spareIn (s : State) (p : Nat) (words : List (BitVec 72)) : State :=
  s.reqIn p words 2 fun t w =>
    let m := (t.fport p).txBase
    let l := bitsOf w 59 58
    let phys := bitsOf w 57 55
    t.remapTx p (bitsOf w 47 32) (if m.map[l]? = some phys then { m with shadow := none, released := none } else m.toSpare l phys)
/-- SPARE (R244). -/
def execSpare (p : Fin 12) (words : List (BitVec 72)) (s : State) : Host.Outcome State Fault Refusal :=
  done (s.spareIn p.val words)

/-- The sender's map after REQ NARROW. -/
def LaneMap.toNarrow (m : LaneMap) (lane : Nat) : LaneMap :=
  let r := { m with retired := m.retired ||| BitVec.ofNat 5 (2 ^ lane), shadow := none, released := none, spare := 7 }
  { r with map := r.good.take 2 }

def State.narrowIn (s : State) (p : Nat) (words : List (BitVec 72)) : State :=
  s.reqIn p words 3 fun t w => t.remapTx p (bitsOf w 47 32) ((t.fport p).txBase.toNarrow (bitsOf w 57 55))
/-- NARROW (R244). -/
def execNarrow (p : Fin 12) (words : List (BitVec 72)) (s : State) : Host.Outcome State Fault Refusal :=
  done (s.narrowIn p.val words)

def State.admitIn (s : State) (p : Nat) (words : List (BitVec 72)) : State :=
  s.reqIn p words 4 fun t w =>
    let q := t.fport p
    t.setFport p { q with tx := { q.tx with shadow := some (bitsOf w 57 55) } }
/-- ADMIT (R245). -/
def execAdmit (p : Fin 12) (words : List (BitVec 72)) (s : State) : Host.Outcome State Fault Refusal :=
  done (s.admitIn p.val words)

/-- The sender switches: the map after the switch and the payload word of its MARK, UNSHADOW naming the released lane, or WIDEN
once four lanes are good; in narrow mode the returned lane itself is the one left spare (log 32). -/
def LaneMap.switched (m : LaneMap) (lane : Nat) : LaneMap × Nat :=
  let r := m.switch lane
  if r.map.length = 4 then (r.mark 1 (r.released.getD 7), 2 ^ 60 + r.released.getD 7 * 2 ^ 55)
  else if 4 ≤ r.good.length then (r.mark 2 lane, 2 * 2 ^ 60 + lane * 2 ^ 55)
  else (r.mark 1 lane, 2 ^ 60 + lane * 2 ^ 55)

/-- The MARK is sent as soon as the replay buffer has room (R237). -/
def State.switchTx (s : State) (p lane : Nat) : State :=
  let q := s.fport p
  let r := q.tx.switched lane
  s.setFport p { q with tx := r.1, txBefore := some q.tx, marks := q.marks ++ [BitVec.ofNat 64 r.2] }

def State.switchedIn (s : State) (p : Nat) (words : List (BitVec 72)) : State :=
  s.reqIn p words 5 fun t w =>
    let lane := bitsOf w 57 55
    if (t.fport p).tx.shadow = some lane then t.switchTx p lane else t
/-- SWITCHED (R245). -/
def execSwitched (p : Fin 12) (words : List (BitVec 72)) (s : State) : Host.Outcome State Fault Refusal :=
  done (s.switchedIn p.val words)

/-! ### FLUME_CFG (R242, R267) -/

/-- Write FLUME_CFG: it takes effect at the next training; clearing ENABLE disables the port at once. -/
def State.setFlumeCfg (s : State) (p : Nat) (v : Word32) : State :=
  let q := { s.fport p with cfg := v &&& 0xC000FFFF }
  let t := s.setFport p q
  if v.getLsbD 31 then
    (if q.st = .disabled ∧ t.portRuns p = true then t.setFport p { q with st := .detect, live := q.cfg } else t)
  else if q.st = .disabled then t else t.portOff p

end Sys2Proof.Machine
end

