-- ==== Sys2Proof/Machine/Clocks.lean ====
section
/-! DEFINITION. REFCLK, the PLLs, clock gating and source switches (R374-R379, R394). -/
namespace Sys2Proof.Machine

def State.setCtrl (s : State) (n : Nat) (c : ClkCtrl) : State := { s with clk.ctrl := NMap.set ClkCtrl.init s.clk.ctrl n c }

/-- The bit of a domain. -/
def domBit (n : Nat) : BitVec 18 := BitVec.ofNat 18 (2 ^ n)

def State.refclkStable (s : State) : State :=
  if s.up && !s.clk.refStable && !s.clk.lost && decide (s.pwr.startStep = 3) then
    { s with clk.refStable := true, pwr.startStep := 4 }
  else s
/-- REFCLK_STABLE (R374). -/
def execRefclkStable (s : State) : Host.Outcome State Fault Refusal := done s.refclkStable

def State.refclkTimeout (s : State) : State := if s.up && !s.clk.refStable then s.setAlert 4 else s
/-- REFCLK_STABLE_TIMEOUT (R374): ALERT_N is asserted, and start-up keeps waiting. -/
def execRefclkStableTimeout (s : State) : Host.Outcome State Fault Refusal := done s.refclkTimeout

/-- The device declares itself failed at a boundary reached with REFCLK lost (R377). -/
def State.lostAtBoundary (s : State) : State :=
  if s.clk.lost && decide (s.run.job ≠ 0) && !s.run.inStep then s.declareFailed 3 else s

def State.refclkLoss (s : State) : State :=
  if s.up && s.clk.refStable && !s.clk.lost then
    ((({ s with clk.lost := true, time.degraded := true }).setAlert 4).raise 0x0040 0 [s.clk.locked.toNat])
  else s
/-- REFCLK_LOSS (R376, R377). -/
def execRefclkLoss (s : State) : Host.Outcome State Fault Refusal := done s.refclkLoss

/-- PLL `n` locks: its domain is clocked, a switch to it completes, and the timebase's first lock starts the count. -/
def State.pllLock (s : State) (n : Nat) : State :=
  if s.up && s.clk.refStable && !s.clk.lost && !s.clk.locked.getLsbD n && !(s.ctrl n).deep then
    { s with
      clk := { s.clk with locked := s.clk.locked ||| domBit n, switching := s.clk.switching &&& ~~~domBit n }
      time.running := s.time.running || decide (n = 1) }
  else s
/-- PLL_LOCK (R364, R375). -/
def execPllLock (n : Fin 18) (s : State) : Host.Outcome State Fault Refusal := done (s.pllLock n.val)

/-- A SerDes port treats the loss of its PLL as lost lane lock (R375). -/
def State.serdesUnlock (s : State) (n : Nat) : State :=
  if n < 4 then s
  else if n < 6 then (if (s.port (n - 4)).linkUp then s.ethLost (n - 4) else s)
  else if (s.fport (n - 6)).st = .active then s.retrain (n - 6) else s

def State.pllUnlock (s : State) (n : Nat) : State :=
  if s.up && !s.clk.lost && s.clk.locked.getLsbD n then
    (({ s with clk.locked := s.clk.locked &&& ~~~domBit n }).count (cPower 4)).serdesUnlock n
  else s
/-- PLL_UNLOCK (R375). -/
def execPllUnlock (n : Fin 18) (s : State) : Host.Outcome State Fault Refusal := done (s.pllUnlock n.val)

/-! ### CLK_CTRL (R378, R379) -/

/-- ENABLE of the port that a domain clocks. -/
def State.portEnable (s : State) (n : Nat) : Bool :=
  if n < 6 then (s.port (n - 4)).cfg.getLsbD 31 else (s.fport (n - 6)).cfg.getLsbD 31

/-- Put a domain's controls in force: DEEP powers its PLL down, and a switch to a PLL that is not locked waits. -/
def State.applyCtrl (s : State) (n : Nat) (c : ClkCtrl) : State :=
  let waits := (s.ctrl n).src && !c.src && (c.deep || !s.clk.locked.getLsbD n)
  let t := s.setCtrl n c
  { t with clk := { t.clk with
      locked := if c.deep then t.clk.locked &&& ~~~domBit n else t.clk.locked
      switching := if waits then t.clk.switching ||| domBit n
                   else if c.src then t.clk.switching &&& ~~~domBit n else t.clk.switching
      held := NMap.set none t.clk.held n none } }

/-- A write of a domain's enables and source: domains 0 to 3 ignore it, and a port's is held while its ENABLE is 1. -/
def State.writeCtrl (s : State) (n : Nat) (c : ClkCtrl) : State :=
  if n < 4 ∨ 18 ≤ n then s
  else if s.portEnable n then { s with clk.held := NMap.set none s.clk.held n (some c) }
  else s.applyCtrl n c

/-- The fields of CLK_CTRL_n. -/
def ClkCtrl.ofWord (v : Word32) : ClkCtrl := ⟨v.getLsbD 31, v.getLsbD 30, v.getLsbD 29, v.getLsbD 28⟩

/-- The write that was held takes effect once ENABLE is cleared. -/
def State.releaseCtrl (s : State) (n : Nat) : State :=
  match NMap.get none s.clk.held n with
  | some c => if s.portEnable n then s else s.applyCtrl n c
  | none => s

/-! ### ETH_CFG and FLUME_CFG, which release a held clock write -/

/-- Write ETH_CFG: it takes effect at the next negotiation, and clearing ENABLE takes the link down at once (R324,
R349). -/
def State.setEthCfg (s : State) (p : Nat) (v : Word32) : State :=
  let e := s.port p
  let cfg := v &&& 0xE01FF0F0
  if v.getLsbD 31 then
    s.setPort p { e with cfg := cfg, live := if e.live.getLsbD 31 then e.live else cfg }
  else
    (s.setPort p { e.dropped with cfg := cfg, live := cfg, downAt := none }).releaseCtrl (4 + p)

/-- Write FLUME_CFG. -/
def State.writeFlumeCfg (s : State) (p : Nat) (v : Word32) : State := (s.setFlumeCfg p v).releaseCtrl (6 + p)

end Sys2Proof.Machine
end

