-- ==== Sys2Proof/Machine/Governor.lean ====
section
/-! DEFINITION. The Governor, lending, thermal and rail limits, and the power levels (R229, R230, R371, R383-R393). -/
namespace Sys2Proof.Machine

/-! ### Beat rates and the floor (R383, R384) -/

/-- Minimum beat rates at the listed voltages, in units of 10 Mbeat/s: at 75 °C, 90 °C and 105 °C. -/
def rateRow (mv : Nat) : Nat × Nat × Nat :=
  if mv < 650 then (100, 97, 94) else if mv < 700 then (115, 112, 108) else if mv < 750 then (130, 126, 122)
  else if mv < 800 then (141, 137, 133) else (152, 147, 143)

/-- Linear interpolation between two neighbours: `x` of `n` parts from `a` to `b`, times `n`. -/
def lerp (a b x n : Nat) : Nat := a * (n - x) + b * x

/-- A row at a temperature, times 15. -/
def rateAt (r : Nat × Nat × Nat) (t : Nat) : Nat :=
  if t ≤ 75 then r.1 * 15
  else if t ≤ 90 then lerp r.1 r.2.1 (t - 75) 15
  else lerp r.2.1 r.2.2 (min t 105 - 90) 15

/-- Minimum beat rate at a setting of 600 to 800 mV and a junction temperature, times 7.5 × 10^-6 (R383). -/
def beatRate (mv t : Nat) : Nat := lerp (rateAt (rateRow mv) t) (rateAt (rateRow (mv + 50)) t) (mv % 50) 50

/-- VMIN in mV (R384); above 105 °C, where the spec gives none, the last value. -/
def vmin (t : Nat) : Nat := if t ≤ 75 then 620 else if t ≤ 85 then 630 else if t ≤ 95 then 640 else 650

/-! ### One control period (R385) -/

/-- The power condition of a cut, and of a recovery. -/
def State.overCap (s : State) (pMw : Nat) : Bool := decide (s.pwr.capW * 1000 < pMw + 10000)
def State.underCap (s : State) (pMw : Nat) : Bool := decide (pMw + 25000 < s.pwr.capW * 1000)

/-- The new setpoint of a Floor. After a lending the borrowers return first to their settings from before it, and the Floors
that have stopped lending one period later (R230, log 21). -/
def State.newSet (s : State) (g : FloorGov) (pMw tj : Nat) : Nat :=
  let want := if g.mode = 1 then 600 else if g.mode = 2 then s.pwr.borrowMv else s.pwr.baseMv
  let a := if g.mode = 0 ∧ g.back ≠ 0 then g.back
    else if s.overCap pMw || decide (s.pwr.targetC < tj) then g.setMv - 10
    else if s.underCap pMw then (if g.mode = 2 then want else g.setMv + 10) else g.setMv
  let lo := if g.mode ≠ 1 ∧ pMw ≤ s.pwr.capW * 1000 ∧ tj < 105 then vmin tj else 600
  if g.late then g.setMv else max (min a want) lo

/-- One Floor in one control period. -/
def State.govFloor (s : State) (pMw f tj : Nat) : State :=
  let g := s.floorGov f
  let v := s.newSet g pMw tj
  let below := decide (g.mode ≠ 1) && !g.late && decide (v < vmin tj)
  let s1 := if s.overCap pMw then s.count (cPower 1) else s
  let s2 := if s.pwr.targetC < tj then s1.count (cPower 2) else s1
  let s3 := s2.setFloor f { g with
    tj := BitVec.ofNat 8 tj, setMv := v, breach := below, late := false
    back := if g.mode = 0 ∧ g.late = false then 0 else g.back }
  if below && !g.breach then
    ((s3.count (cPower 3)).setAlert 0).raise 0x0041 0 [f, v, if s.pwr.capW * 1000 < pMw then 0 else 1]
  else s3

/-- The THERMAL bit sets again while the temperature stays at or above 100 °C (R388). -/
def State.thermalAgain (s : State) (hottest : Nat) : State :=
  if s.pwr.thermHot then (if 100 ≤ hottest then s.setAlert 1 else { s with pwr.thermHot := false }) else s

/-- A sample of WINDOW_W: those that can no longer be the highest of the last second go (R404). -/
def State.samplePower (s : State) (windowW inputMv : Nat) : State :=
  { s with pwr := { s.pwr with
      windowW := windowW, inputMv := inputMv
      peakHist := (s.time.ns, windowW) ::
        s.pwr.peakHist.filter fun x => decide (s.time.ns < x.1 + 1000000000) && decide (windowW < x.2) } }

def State.governorPeriod (s : State) (pMw windowW inputMv : Nat) (tj : List Byte) (spineTj : Byte) : State :=
  if s.up && s.time.running && decide (s.time.ns % 10000 = 0) then
    let t := s.samplePower windowW inputMv
    let u := (List.range 8).foldl (fun u f => u.govFloor pMw f (tj.getD f 0).toNat) { t with pwr.spineTj := spineTj }
    u.thermalAgain (tj.foldl (fun m b => max m b.toNat) spineTj.toNat)
  else s
/-- GOVERNOR_PERIOD (R385). -/
def execGovernorPeriod (pMw windowW inputMv : Nat) (tj : List Byte) (spineTj : Byte) (s : State) :
    Host.Outcome State Fault Refusal := done (s.governorPeriod pMw windowW inputMv tj spineTj)

/-! ### Lending (R229, R230, R386) -/

/-- Keys of the streams that a Floor hosts. -/
def Image.floorStreams (img : Image) (f : Nat) : List Nat :=
  (((List.range 144).filter fun l => floorOf (img.phys l) == f).flatMap fun l => (List.range 5).map fun k => 8 * l + k) ++ [8 * f + 5]

/-- A stream waits at a Weir whose entry has LEND set, or at STEP_END. -/
def Image.lendable (img : Image) (t : Stream) : Bool := match t.stat with
  | .stepEnd => true
  | .atWeir w => img.weirLend w
  | _ => false

/-- Every stream of Floor `f` has waited for longer than LEND_US. -/
def State.mayLend (s : State) (img : Image) (f : Nat) : Bool :=
  s.ctx.active && decide (img.lendNs ≠ 0) && img.floors.contains f &&
    (img.floorStreams f).all fun k => img.lendable (s.stream k) && decide ((s.stream k).since + img.lendNs < s.time.ns)

/-- The Governor's estimate of input power in mW when lenders take 600 mV and borrowers `v` (R386). -/
def State.estimate (s : State) (pMw : Nat) (railMw : List Nat) (v : Nat) : Nat :=
  (List.range 8).foldl (fun p f =>
    let g := s.floorGov f
    let new := if g.mode = 1 then 600 else v
    let rail := railMw.getD f 0
    p - rail + rail * (new * new * beatRate new g.tj.toNat) / (g.setMv * g.setMv * beatRate g.setMv g.tj.toNat)) pMw

/-- The highest setting up to 800 mV whose estimate stays within the cap less 25 W; BASE_MV when none does (log 21). -/
def State.borrowFor (s : State) (pMw : Nat) (railMw : List Nat) : Nat :=
  (((List.range 21).map fun i => 800 - 10 * i).find? fun v =>
    decide (s.estimate pMw railMw v + 25000 ≤ s.pwr.capW * 1000)).getD s.pwr.baseMv

def State.lendStart (s : State) (f : Nat) (pMw : Nat) (railMw : List Nat) : State :=
  match s.image with
  | none => s
  | some img =>
    if s.mayLend img f && !s.ctx.lending.getLsbD f then
      let t := (s.setLending (s.ctx.lending ||| BitVec.ofNat 8 (2 ^ f))).count (cWeir 4)
      { t with pwr.borrowMv := t.borrowFor pMw railMw }
    else s
/-- LEND_START (R229, R386). -/
def execLendStart (f : Fin 8) (pMw : Nat) (railMw : List Nat) (s : State) : Host.Outcome State Fault Refusal :=
  done (s.lendStart f.val pMw railMw)

/-! ### Thermal limits, rail faults and droops (R387-R389) -/

def State.thermalAlert (s : State) (sensor : Nat) (tempC : Byte) : State :=
  if s.up && decide (108 ≤ tempC.toNat) then
    (State.setAlert { s with pwr.thermHot := true } 1).raise 0x0042 0 [sensor, tempC.toNat]
  else s
/-- THERMAL_ALERT (R388). -/
def execThermalAlert (sensor : Fin 36) (tempC : Byte) (s : State) : Host.Outcome State Fault Refusal :=
  done (s.thermalAlert sensor.val tempC)

def State.thermalTrip (s : State) : State :=
  if decide (s.pwr.pdOn ≠ 0) && !s.pwr.thermTrip then State.railsOff { s with pwr.thermTrip := true } else s
/-- THERMAL_TRIP (R388). -/
def execThermalTrip (s : State) : Host.Outcome State Fault Refusal := done s.thermalTrip

def State.thermalRelease (s : State) : State :=
  if s.pwr.thermTrip && !s.pwr.pwrEn then { s with pwr.thermTrip := false } else s
/-- THERMAL_TRIP_RELEASE (R388): PWR_EN has been low for 100 ms. -/
def execThermalTripRelease (s : State) : Host.Outcome State Fault Refusal := done s.thermalRelease

/-- A Floor's rail fails: the Floor stops and the device declares itself failed in the control class. -/
def State.floorFault (s : State) (dom : Nat) : State :=
  let t := { s with pwr.pdOn := s.pwr.pdOn &&& ~~~(BitVec.ofNat 20 (2 ^ dom)) }
  ((t.setAlert 3).raise 0x0043 0 [dom]).declareFailed 3

/-- Another rail fails: PWR_GOOD drops and start-up begins again at step 2, or, at the second fault within 1 s, the
rails stay off. -/
def State.otherFault (s : State) (within1s : Bool) : State :=
  if s.pwr.railFaulted && within1s then State.railsOff { s with pwr.railLock := true }
  else (State.railsOff { s with pwr.railFaulted := true }).railsUp

def State.railFault (s : State) (dom : Nat) (within1s : Bool) : State :=
  if s.pwr.pdOn.getLsbD dom && decide (2 ≤ s.pwr.startStep) then
    (if 7 ≤ dom ∧ dom ≤ 14 then s.floorFault dom else s.otherFault within1s)
  else s
/-- RAIL_FAULT (R389). -/
def execRailFault (dom : Fin 20) (within1s : Bool) (s : State) : Host.Outcome State Fault Refusal :=
  done (s.railFault dom.val within1s)

def State.droop (s : State) (f : Nat) : State := if s.up && s.pwr.pdOn.getLsbD (7 + f) then s.count (cPower 0) else s
/-- DROOP (R387). -/
def execDroop (f : Fin 8) (s : State) : Host.Outcome State Fault Refusal := done (s.droop f.val)

/-! ### GOV_CFG (R393) -/

/-- A value taken as the nearer limit. -/
def clamp (lo hi v : Nat) : Nat := max lo (min hi v)
/-- Write GOV_CFG. -/
def State.setGovCfg (s : State) (v : Nat) : State :=
  { s with pwr := { s.pwr with
      targetC := clamp 85 100 (bitsOf v 31 24), baseMv := clamp 600 800 (bitsOf v 19 10) / 10 * 10
      capW := clamp 300 700 (bitsOf v 9 0) } }

/-! ### Uninstalling, and the power levels (R390, R391) -/

/-- The image is uninstalled: LOADED clears and no stream, port, Race, Weir or cache use of it remains. -/
def State.uninstall (s : State) : State :=
  { s.setLending 0 with
    image := none, loading := none, streams := [], ports := [], due := [], races := [], feeds := [], folds := [], shapes := [], weirs := []
    tenters := [], carders := [], ctx := ⟨false, 0, 0, 0, false⟩, memctl.cache := []
    wheel := { s.wheel.stopped with valid := false, stalled := false, roles := [], records := [], exps := [] } }

/-- Domains in regulation at a level. -/
def levelMask (l : Nat) : BitVec 20 :=
  if l = 0 then 0xFFFFF else if l = 1 then 0xC007F else if l = 2 then 0xC0063 else 0x00003

/-- The memories of the Floors are lost. -/
def State.loseFloors (s : State) : State :=
  { (s.zeroRange 0x010000000000 0xC0000000).zeroRange 0x020000000000 0x13000000 with
    kettle := [], kettleSyn := [], banks := [], memctl.cache := [] }

/-- The LPDDR5X contents are lost, and must be trained and zeroed again; so is the committed state in them. -/
def State.loseDram (s : State) : State :=
  { s.zeroRange 0 0xC000000000 with
    memctl := { s.memctl with pkgTrained := 0, pkgFail := 0, zeroed := false, patrolOn := 0, patrol := [], rate := 0 }
    run.committedTag := none }

/-- Every Flume port is DISABLED. -/
def State.portsOff (s : State) : State :=
  (List.range 12).foldl (fun t p => if (t.fport p).st = .disabled then t else t.portOff p) s

/-- Power the domains of a level up or down, with what that loses. -/
def State.setDomains (s : State) (l : Nat) : State :=
  let a := if 1 ≤ l then s.loseFloors else s
  let b := if 2 ≤ l then a.portsOff else a
  let c := if 3 ≤ l then b.loseDram else b
  let d := { c with pwr.pdOn := levelMask l }
  if l ≤ 1 then d.startPorts else d

/-- A level is reached. -/
def State.arrive (s : State) (l : Nat) : State :=
  State.raise { s.setDomains l with pwr.plCur := BitVec.ofNat 2 l, pwr.plBusy := false } 0x0045 0 [l]

/-- Start moving to a level; domains that rise are powered at once, and those that fall when it is reached. -/
def State.moveTo (s : State) (l : Nat) : State :=
  let t := { s with pwr := { s.pwr with plReq := BitVec.ofNat 2 l, plBusy := true, plResult := 0 } }
  if l < s.pwr.plCur.toNat then { t with pwr.pdOn := t.pwr.pdOn ||| levelMask l } else t

/-- A long operation is not terminal, or a snapshot is open (R391). -/
def State.occupied (s : State) : Bool := s.ops.any (fun o => !o.state.terminal) || decide (s.snap.st ≠ .idle)

/-- A request through POWER_LEVEL (R391). -/
def State.requestLevel (s : State) (l : Nat) : State :=
  if s.pwr.plCur = 0 ∧ l ≠ 0 ∧ s.occupied = true then { s with pwr := { s.pwr with plReq := BitVec.ofNat 2 l, plResult := 1 } }
  else if s.pwr.plCur.toNat = l ∧ s.pwr.plBusy = false then { s with pwr := { s.pwr with plReq := BitVec.ofNat 2 l, plResult := 0 } }
  else if s.pwr.plCur = 0 ∧ l ≠ 0 then s.uninstall.moveTo l
  else s.moveTo l

def State.levelDone (s : State) : State :=
  if s.up && s.pwr.plBusy && (decide (s.pwr.plCur ≠ 3) || decide (s.pwr.plReq = 3) || s.memctl.zeroed) then
    s.arrive s.pwr.plReq.toNat
  else s
/-- POWER_LEVEL_DONE (R391): from COLD to a level that keeps the LPDDR5X, once it is zeroed. -/
def execPowerLevelDone (s : State) : Host.Outcome State Fault Refusal := done s.levelDone

/-- A command that needs a lowered domain sets REQ to READY before it acts; it waits for the power-up except in COLD,
where the stores are lost and training and zeroing follow (R391). -/
def State.wake (s : State) : State :=
  if s.pwr.plCur = 0 ∧ s.pwr.plBusy = false then s
  else if s.pwr.plCur = 3 then (if s.pwr.plReq = 0 then s else s.moveTo 0)
  else (s.moveTo 0).arrive 0

end Sys2Proof.Machine
end

