-- ==== Sys2Proof/Machine/Leat.lean ====
section
/-! DEFINITION. Leat: datagrams, sessions, the request gate, PING, CLOSE and event acknowledgement (R326-R331, R333, R355, R359-R361). -/
namespace Sys2Proof.Machine

/-- What a command answers: the state, STATUS, the reply payload, and sessions that close after the reply. -/
structure LeatAns where
  st : State
  status : Nat
  payload : List Byte
  closes : List Word32

/-- An answer that closes nothing. -/
def LeatAns.mk3 (s : State) (status : Nat) (payload : List Byte) : LeatAns := ⟨s, status, payload, []⟩
/-- An answer with a status and nothing else. -/
def answer (s : State) (status : Nat) : LeatAns := .mk3 s status []

/-- Leat takes datagrams on a port: the module runs, Leat listens, and the link is up (R326, R381). -/
def State.hears (s : State) (p : Fin 2) : Bool := s.up && s.leat.listening && (s.port p.val).linkUp

/-- The open session with an identifier. -/
def State.session (s : State) (id : Word32) : Option Session := (s.leat.sessions.filter fun x => x.id == id).head?
/-- Replace an open session. -/
def State.putSession (s : State) (ses : Session) : State :=
  { s with leat.sessions := s.leat.sessions.map fun x => if x.id = ses.id then ses else x }
/-- Close sessions. -/
def State.closeSessions (s : State) (ids : List Word32) : State :=
  { s with leat.sessions := s.leat.sessions.filter fun x => !ids.contains x.id }

/-- The tag a host puts on a datagram (R327). -/
def hostTag (key : List Byte) (h : LeatHdr) (typ : Byte) (command : BitVec 16) (payload : List Byte) : List Byte :=
  hmac512 key (leatHeader h.magic h.version typ h.session h.seq.toNat command 0 payload.length ++ payload)

/-- Execute a request whose tag and SEQ have passed: the reply is sent and kept (R330). -/
def State.execute (s : State) (ses : Session) (h : LeatHdr) (command : BitVec 16) (a : LeatAns) : State :=
  let q := h.seq.toNat
  let high := max ses.highSeq q
  let cache := (ses.cache.filter fun c => decide (high ≤ c.1 + 63))
  let ses' := { ses with
    port := h.port, lastValid := s.time.ns, highSeq := high
    cache := if high ≤ q + 63 then (q, (command, (a.status, a.payload))) :: cache else cache }
  ((a.st.putSession ses').sendLeat ses' 0x04 q command a.status a.payload).closeSessions a.closes

/-- What a request answers: BAD_LENGTH, NOT_CONTROL, or the command's own answer (R329, R331). -/
def State.judge (s : State) (ses : Session) (control lenOk : Bool) (run : State → LeatAns) : LeatAns :=
  if !lenOk then answer s 4 else if control && !ses.control then answer s 7 else run s

/-- The gate of every request (R326, R327, R330). -/
def State.request (s : State) (h : LeatHdr) (command : BitVec 16) (payload : List Byte) (control lenOk : Bool)
    (run : State → LeatAns) : State :=
  if !s.hears h.port then s
  else
    let t := s.rx h.port
    if h.magic ≠ 0x4C54 ∨ h.version ≠ 1 then t
    else match t.session h.session with
      | none => t.count (cLeat 0)
      | some ses =>
        if h.tag ≠ hostTag ses.keyIn h 0x03 command payload then t.count (cLeat 0)
        else match ses.cache.find? (fun c => c.1 == h.seq.toNat) with
          | some c =>
            let ses' := { ses with port := h.port, lastValid := t.time.ns }
            (t.putSession ses').sendLeat ses' 0x04 c.1 c.2.1 c.2.2.1 c.2.2.2
          | none =>
            if h.seq.toNat + 63 < ses.highSeq then t.count (cLeat 1)
            else t.execute ses h command (t.judge ses control lenOk run)

/-! ### Enrolment (R360, R361) -/

/-- The enrolment list in flash, header, entries and signature; empty when there is none. -/
def Nv.enrolment (n : Nv) : List Byte :=
  let head := flashRead n.flash 0x3F20000 8
  if n.owner.isNone then [] else flashRead n.flash 0x3F20000 (0x98 + 144 * fieldAt head 6 2 + 132)
/-- Entry `i` of a list. -/
def enrolEntry (bs : List Byte) (i : Nat) : List Byte := slice bs (0x98 + 144 * i) 144
/-- The entry of a kind whose key has an identifier. -/
def enrolFind (bs : List Byte) (kind : Nat) (id : List Byte) : Option (List Byte) :=
  ((List.range (fieldAt bs 6 2)).map (enrolEntry bs)).find? fun e => decide (fieldAt e 0 1 = kind) && keyId (slice e 8 133) == id

/-! ### HELLO (R328) -/

/-- Whether a HELLO is accepted, and whether its key may hold control (R328, R360, R361). -/
def State.helloCheck (s : State) (bs : List Byte) : Option Bool :=
  let id := slice bs 0xA8 8
  if fieldAt bs 0xB0 8 ≠ s.nv.serial.toNat ∨ (ecDecode (slice bs 0 133)).isNone = true then none
  else if s.nv.owner.isNone then (if leNat id = 0 then some true else none)
  else match enrolFind s.nv.enrolment 1 id with
    | none => none
    | some e =>
      if ecdsaVerify (slice e 8 133) (sha512 (bs.take 0xB8)) (slice bs 0xB8 132) then some (bitOf (fieldAt e 1 1) 0) else none

/-- A HELLO_REPLY; its tag is zeros (R327). -/
def State.helloReply (s : State) (p : Fin 2) (session : Word32) (status : Nat) (payload : List Byte) : State :=
  (s.emit (.leat p 0x02 session 0 0 status payload (List.replicate 64 0))).tx p

/-- Send every queued event to a session that has just taken control (R333). -/
def State.flushEvents (s : State) (ses : Session) : State :=
  s.leat.events.foldl (fun t e => (t.sendEvent ses e).markSent e.seq) s

/-- Open a session: keys from the shared secret, and control if it is asked for, allowed and free (R328, R329). -/
def State.openSession (s : State) (p : Fin 2) (bs : List Byte) (may : Bool) : State :=
  let rnd := (List.range 98).map (Config.freeByte s.fresh)
  let d := beNat (rnd.take 66) % (n521 - 1) + 1
  let nonce := slice rnd 66 32
  let z := match ecMul d (ecDecode (slice bs 0 133)) with
    | some (x, _) => beBytes 66 x
    | none => List.replicate 66 0
  let keys := hkdf512 (slice bs 0x88 32 ++ nonce) z (ascii "leat v1 keys") 128
  let grant := bitOf (fieldAt bs 0x85 1) 0 && may && s.controlSession.isNone
  let id := s.leat.nextSession
  let ses : Session := ⟨BitVec.ofNat 32 id, p, keys.take 64, keys.drop 64, grant, slice bs 0xA8 8, s.time.ns, 0, []⟩
  let ik := deviceKey s.nv.secret "gm8 identity"
  let body := leBytes 4 id ++ leBytes 4 (b2n grant) ++ ecEncode (ecMul d g521) ++ [0, 0, 0] ++ nonce ++
    keyId (ecEncode (ecMul ik g521))
  let sig := ecdsaSign ik (sha512 (bs ++ body))
  let t := { s with
    fresh := s.fresh + 1
    leat := { s.leat with sessions := s.leat.sessions ++ [ses], nextSession := id + 1 } }
  let u := t.helloReply p ses.id 0 (body ++ sig)
  if grant then u.flushEvents ses else u

def State.hello (s : State) (p : Fin 2) (bs : List Byte) : State :=
  if !s.hears p then s
  else
    let t := s.rx p
    if bs.length ≠ 316 then t.helloReply p 0 4 []
    else match t.helloCheck bs with
      | none => t.helloReply p 0 0x0B []
      | some may => if 4 ≤ t.leat.sessions.length then t.helloReply p 0 0x0C [] else t.openSession p bs may
/-- HELLO (R328). -/
def execHello (p : Fin 2) (payload : List Byte) (s : State) : Host.Outcome State Fault Refusal := done (s.hello p payload)

def State.sessionTimeout (s : State) (id : Word32) : State :=
  match s.session id with
  | none => s
  | some ses => if ses.lastValid + 60000000000 ≤ s.time.ns then s.closeSessions [id] else s
/-- LEAT_SESSION_TIMEOUT (R329). -/
def execLeatSessionTimeout (session : Word32) (s : State) : Host.Outcome State Fault Refusal :=
  done (s.sessionTimeout session)

/-! ### PING, CLOSE -/

/-- The reply of PING (R331). -/
def pingRun (s : State) : LeatAns :=
  .mk3 s 0 (leBytes 8 s.nv.serial.toNat ++ leBytes 4 s.time.ordinal ++ leBytes 8 s.time.ns)
def State.ping (s : State) (h : LeatHdr) (payload : List Byte) : State :=
  s.request h 0x0001 payload false payload.isEmpty pingRun
/-- PING (R331). -/
def execPing (h : LeatHdr) (payload : List Byte) (s : State) : Host.Outcome State Fault Refusal := done (s.ping h payload)

def closeRun (id : Word32) (s : State) : LeatAns := ⟨s, 0, [], [id]⟩
def State.leatClose (s : State) (h : LeatHdr) (payload : List Byte) : State :=
  s.request h 0x0002 payload false payload.isEmpty (closeRun h.session)
/-- CLOSE (R329): the session closes after its reply. -/
def execClose (h : LeatHdr) (payload : List Byte) (s : State) : Host.Outcome State Fault Refusal :=
  done (s.leatClose h payload)

/-! ### Events (R333) -/

def State.eventAck (s : State) (h : LeatHdr) : State :=
  if !s.hears h.port then s
  else
    let t := s.rx h.port
    match t.session h.session with
    | none => t
    | some ses =>
      if h.magic = 0x4C54 ∧ h.version = 1 ∧ ses.control = true ∧ h.tag = hostTag ses.keyIn h 0x06 0 [] then
        { t with leat.events := t.leat.events.filter fun e => e.seq ≠ h.seq.toNat }
      else t
/-- EVENT_ACK (R333). -/
def execEventAck (h : LeatHdr) (s : State) : Host.Outcome State Fault Refusal := done (s.eventAck h)

def State.eventResend (s : State) (seq : Word64) : State :=
  match s.leat.events.find? (fun e => e.seq == seq.toNat), s.controlSession with
  | some e, some ses =>
    (match e.sentAt with
     | some t => if t + 100000000 ≤ s.time.ns then (s.sendEvent ses e).markSent e.seq else s
     | none => s)
  | _, _ => s
/-- EVENT_RESEND (R333). -/
def execEventResend (seq : Word64) (s : State) : Host.Outcome State Fault Refusal := done (s.eventResend seq)

end Sys2Proof.Machine
end

