-- ==== Sys2Proof/Machine/Security.lean ====
section
/-! DEFINITION. Enrolment, the security actions, attestation and firmware update (R356-R363, R369). -/
namespace Sys2Proof.Machine

/-- A byte range lies in the LPDDR5X data region. -/
def inData (a n : Nat) : Bool := decide (a + n ≤ 0xA800000000)

/-! ### Enrolment lists (R360, R361) -/

/-- Bytes of a list, from its COUNT. -/
def enrolLen (count : Nat) : Nat := 0x98 + 144 * count + 132

/-- The format of a list: MAGIC, VERSION, COUNT and each entry's KIND. -/
def enrolFormat (bs : List Byte) : Bool :=
  decide (fieldAt bs 0 4 = 0xE4010008) && decide (fieldAt bs 4 2 = 0x0100) && decide (1 ≤ fieldAt bs 6 2) &&
    decide (fieldAt bs 6 2 ≤ 32) && (List.range (fieldAt bs 6 2)).all fun i =>
      decide (fieldAt (enrolEntry bs i) 0 1 = 1) || decide (fieldAt (enrolEntry bs i) 0 1 = 2)

/-- The signature of a list verifies under its OWNER_KEY. -/
def enrolSigned (bs : List Byte) : Bool :=
  let n := 0x98 + 144 * fieldAt bs 6 2
  ecdsaVerify (slice bs 0x10 133) (sha512 (bs.take n)) (slice bs n 132)

/-- The staged list that SEC_ARG names. -/
def State.secAddress (s : State) : Nat := s.sec.argHi.toNat * 2 ^ 32 + s.sec.argLo.toNat
def State.stagedList (s : State) : State × List Byte :=
  s.millerRead s.secAddress (enrolLen (min 32 (fieldAt (s.millerBytes s.secAddress 8) 6 2)))

/-- Install a list: it is written to flash, ENROLMENT_CHANGED is raised, and sessions whose key it lacks close after
the reply. -/
def State.installList (s : State) (bs : List Byte) : State × List Word32 :=
  let t := State.raise { s with nv.flash := flashWrite (NMap.clearRange s.nv.flash 0x3F20000 0x10000) 0x3F20000 bs } 0x0063 0
    [fieldAt bs 8 4, fieldAt bs 12 4]
  (t, (s.leat.sessions.filter fun x => (enrolFind bs 1 x.hostKey).isNone).map (·.id))

/-- The result of a security action: state, LAST_RESULT and the sessions to close. -/
structure SecAns where
  st : State
  result : Nat
  closes : List Word32

/-- An action that fails. -/
def secFail (s : State) (result : Nat) : SecAns := ⟨s, result, []⟩

/-- CLAIM: verify the list, blow OWNER and write the list. -/
def State.secClaim (v : State) : SecAns :=
  let s := v.stagedList.1
  let bs := v.stagedList.2
  if v.nv.owner.isSome || !v.memctl.zeroed then secFail v 1
  else if !inData v.secAddress bs.length then secFail v 6
  else if !enrolFormat bs then secFail s 3
  else if !enrolSigned bs then secFail s 2
  else
    let r := State.installList { s with nv.owner := some (sha512 (slice bs 0x10 133)) } bs
    ⟨r.1, 0, r.2⟩

/-- ENROL: a list under the fused owner, with a greater SEQUENCE. A list under another OWNER_KEY is answered
BAD_SIGNATURE (log 22). -/
def State.secEnrol (v : State) : SecAns :=
  let s := v.stagedList.1
  let bs := v.stagedList.2
  if v.nv.owner.isNone || !v.memctl.zeroed then secFail v 1
  else if !inData v.secAddress bs.length then secFail v 6
  else if !enrolFormat bs then secFail s 3
  else if s.nv.owner != some (sha512 (slice bs 0x10 133)) || !enrolSigned bs then secFail s 2
  else if fieldAt bs 8 8 ≤ fieldAt s.nv.enrolment 8 8 then secFail s 4
  else
    let r := s.installList bs
    ⟨r.1, 0, r.2⟩

/-- CLOSE_DEBUG: a private instruction that is loaded acts as BYPASS from then on (R363). -/
def State.secClose (s : State) : SecAns := ⟨{ s with nv.debugClosed := true, tap.millerDebug := false }, 0, []⟩
/-- COMMIT_SVN: blow rollback fuses up to the running SVN. -/
def State.secCommit (s : State) : SecAns := ⟨{ s with nv.rollback := max s.nv.rollback (min 64 s.boot.fwSvn.toNat) }, 0, []⟩

/-- The action of a SEC_CTRL write. -/
def State.secAction (s : State) (action : Nat) : SecAns :=
  if action = 1 then s.secClaim else if action = 2 then s.secEnrol else if action = 3 then s.secClose
  else if action = 4 then s.secCommit else ⟨s, s.sec.lastResult.toNat, []⟩

/-- Write SEC_CTRL (R369). -/
def State.writeSecCtrl (s : State) (v : Nat) : State × List Word32 :=
  if bitsOf v 31 24 = 0xC5 then
    let a := s.secAction (v % 16)
    ({ a.st with sec := { a.st.sec with
        guard := 0xC5, action := BitVec.ofNat 4 v, lastAction := BitVec.ofNat 8 (v % 16)
        lastResult := BitVec.ofNat 8 a.result } }, a.closes)
  else (s, [])

/-! ### Attestation (R362) -/

/-- FLOOR_SPARE_f (R20). -/
def State.floorSpare (s : State) (f : Nat) : Nat :=
  if s.boot.fusesLoaded then
    2 ^ 31 + (List.range 19).foldl (fun n i => n + b2n (s.mill (19 * f + i)).retired * 2 ^ (8 + i)) 0 +
      (NMap.get spareSlot s.nv.spare f).val
  else 0x1F

/-- Length of a DER structure, from its header. -/
def derLen (bs : List Byte) : Nat :=
  if fieldAt bs 0 1 ≠ 0x30 then 0
  else if fieldAt bs 1 1 < 0x80 then 2 + fieldAt bs 1 1
  else if fieldAt bs 1 1 = 0x81 then 3 + fieldAt bs 2 1
  else if fieldAt bs 1 1 = 0x82 then min 8192 (4 + fieldAt bs 2 1 * 256 + fieldAt bs 3 1) else 0

/-- The identity certificate. -/
def Nv.cert (n : Nv) : List Byte := flashRead n.flash 0x3F00000 (derLen (flashRead n.flash 0x3F00000 4))

/-- The fields of the report from 0x050 to 0x157. -/
def State.reportFields (s : State) : List Byte :=
  leBytes 8 s.nv.serial.toNat ++ leBytes 4 s.time.ordinal ++ leBytes 4 0 ++ leBytes 8 s.time.ns ++
    leBytes 4 s.boot.fwVersion.toNat ++ leBytes 4 (s.nv.rollback * 256 + s.boot.fwSvn.toNat) ++ padTo 64 0 s.boot.fwDigest ++
    (match s.image with
     | some img => padTo 64 0 img.digest ++ leBytes 8 img.jobTag
     | none => List.replicate 72 0) ++
    padTo 64 0 (s.nv.owner.getD []) ++ (List.range 8).flatMap fun f => leBytes 4 (s.floorSpare f)

/-- The report without its signature. -/
def State.reportBody (s : State) (nonce : List Byte) : List Byte :=
  let cert := s.nv.cert
  let flags := 1 + 2 * b2n s.nv.debugClosed + 4 * b2n s.nv.owner.isSome + 8 * b2n s.time.ordFault + 16 * b2n s.image.isSome
  let pad := roundUp cert.length 8
  leBytes 4 0xA7700008 ++ leBytes 2 0x0100 ++ leBytes 2 flags ++ leBytes 4 (0x300 + pad + 132) ++ leBytes 4 cert.length ++
    padTo 64 0 nonce ++ s.reportFields ++ ecEncode (ecMul (deviceKey s.nv.secret "gm8 identity") g521) ++ [0, 0, 0] ++
    ecEncode (ecMul (deviceKey s.nv.secret "gm8 snapshot") g521) ++ [0, 0, 0] ++
    (if s.nv.enrolment.isEmpty then List.replicate 64 0 else sha512 s.nv.enrolment) ++ List.replicate 88 0 ++ padTo pad 0 cert

/-- A whole report. -/
def State.buildReport (s : State) (nonce : List Byte) : List Byte :=
  let body := s.reportBody nonce
  body ++ ecdsaSign (deviceKey s.nv.secret "gm8 identity") (sha512 body)

/-- The report for a nonce: the one kept, or a new one. -/
def State.reportFor (s : State) (nonce : List Byte) : List Byte :=
  match s.sec.report with
  | some r => if r.1 = nonce then r.2 else s.buildReport nonce
  | none => s.buildReport nonce

def attestRun (payload : List Byte) (s : State) : LeatAns :=
  let nonce := slice payload 0 64
  let r := s.reportFor nonce
  .mk3 { s with sec.report := some (nonce, r) } 0 (leBytes 4 r.length ++ slice r (fieldAt payload 64 4) 1024)
def State.attest (s : State) (h : LeatHdr) (payload : List Byte) : State :=
  s.request h 0x0040 payload false (payload.length == 68) (attestRun payload)
/-- ATTEST (R362). -/
def execAttest (h : LeatHdr) (payload : List Byte) (s : State) : Host.Outcome State Fault Refusal :=
  done (s.attest h payload)

/-! ### Firmware update (R357, R358) -/

def fwUpdateRun (payload : List Byte) (s : State) : LeatAns :=
  let a := fieldAt payload 0 8
  let n := fieldAt payload 8 8
  if a % 8 ≠ 0 ∨ n % 8 ≠ 0 then answer s 5
  else if !inData a n || decide (0x2000000 < n) then answer s 6
  else if s.sec.fw.busy then answer s 1
  else if !s.memctl.zeroed then answer s 2
  else
    let rd := s.millerRead a n
    answer { rd.1 with sec.fw := ⟨true, 1, 0, 0, a, n, rd.2⟩ } 0
def State.fwUpdate (s : State) (h : LeatHdr) (payload : List Byte) : State :=
  s.request h 0x0050 payload true (payload.length == 16) (fwUpdateRun payload)
/-- FW_UPDATE (R357). -/
def execFwUpdate (h : LeatHdr) (payload : List Byte) (s : State) : Host.Outcome State Fault Refusal :=
  done (s.fwUpdate h payload)

/-- The update ends with a RESULT. -/
def State.fwEnd (s : State) (result : Nat) : State :=
  let fw := s.sec.fw
  let t := { s with sec.fw := { fw with busy := false, phase := 0, result := result, image := [] } }
  if result = 1 then t.raise 0x0060 0 [fieldAt fw.image 4 4, fieldAt fw.image 8 4] else t.raise 0x0061 0 [result]

/-- 4 KiB units of the firmware region. -/
def fwUnits (n : Nat) : Nat := cdiv n 4096

/-- Erase the firmware region; then program an image there. -/
def eraseFw (f : NMap Byte) : NMap Byte := NMap.clearRange f 0 0x2000000
def programFw (f : NMap Byte) (bs : List Byte) : NMap Byte := flashWrite (eraseFw f) 0 bs

/-- The current phase ends; `ok` is the flash's own outcome. -/
def State.fwPhase (s : State) (ok : Bool) : State :=
  let fw := s.sec.fw
  if !s.up || !fw.busy then s
  else if fw.phase = 1 then
    (if fwCheck s.nv fw.image = 1 then { s with sec.fw := { fw with phase := 2, progress := 0 } }
     else s.fwEnd (fwCheck s.nv fw.image))
  else
    let e := { s with nv.flash := eraseFw s.nv.flash }
    if !ok then e.fwEnd 6
    else if fw.phase = 2 then { e with sec.fw := { fw with phase := 3, progress := 0 } }
    else if fw.phase = 3 then
      { s with nv.flash := programFw s.nv.flash fw.image, sec.fw := { fw with phase := 4, progress := 0 } }
    else State.fwEnd { s with sec.fw := { fw with progress := fwUnits fw.len % 2 ^ 14 } } 1
/-- FW_UPDATE_PHASE_DONE (R357). -/
def execFwUpdatePhaseDone (ok : Bool) (s : State) : Host.Outcome State Fault Refusal := done (s.fwPhase ok)

end Sys2Proof.Machine
end

