-- ==== Sys2Proof/Machine/Regs.lean ====
section
/-! DEFINITION. The management register map: every register's value, the effect of writing it, and the commands that reach registers (R10-R13, R20, R102, R132, R133, R148, R177, R212, R231, R267, R268, R300, R321, R332, R349, R350, R366-R369, R393, R394). -/
namespace Sys2Proof.Machine

/-! ### Reading: DEVICE -/

/-- MILL_SUSPECT_f (R20). -/
def State.millSuspect (s : State) (f : Nat) : Nat :=
  (List.range 19).foldl (fun n i => n + b2n (s.mill (19 * f + i)).suspect * 2 ^ i) 0
/-- MILL_USE_f (R20). -/
def State.millUse (s : State) (f : Nat) : Nat :=
  (List.range 19).foldl (fun n i => n + b2n (s.usesMill (19 * f + i)) * (2 ^ 24 + 2 ^ i)) 0

/-- A word of the installed image's digest, and its JOB_TAG (R212). -/
def State.imageDigest (s : State) (n : Nat) : Nat := match s.image with
  | some img => fieldAt img.digest (4 * n) 4
  | none => 0
def State.jobTag (s : State) : Nat := match s.image with
  | some img => img.jobTag
  | none => 0

/-- The image registers (R212). -/
def State.regImage (s : State) (off : Nat) : Nat :=
  if off = 0x200 then
    b2n s.image.isSome * 2 ^ 31 + b2n (s.busyOp .image) * 2 ^ 30 + s.img.last % 256 * 2 ^ 16 + s.img.failSection % 2 ^ 16
  else if off = 0x204 then s.img.failOffset
  else if off = 0x208 then s.jobTag % 2 ^ 32
  else if off = 0x20C then s.jobTag / 2 ^ 32
  else if off < 0x250 then s.imageDigest ((off - 0x210) / 4)
  else if off = 0x250 then s.shapeLog.value.toNat
  else if off = 0x254 then
    b2n s.shapeLog.valid * 2 ^ 31 + s.shapeLog.mill % 256 * 2 ^ 23 + s.shapeLog.reg % 256 * 2 ^ 15 + s.shapeLog.desc % 2 ^ 15
  else 0

/-- A training job runs: it exists and is neither suspended nor ended (R300). -/
def State.jobRuns (s : State) : Bool := match s.op s.run.job with
  | some o => decide (s.run.job ≠ 0) && decide (o.state ≠ .suspended) && !o.state.terminal
  | none => false

/-- The runtime registers (R300). -/
def State.regRun (s : State) (off : Nat) : Nat :=
  if off = 0x300 then s.run.step % 2 ^ 32
  else if off = 0x304 then s.run.step / 2 ^ 32 % 2 ^ 32
  else if off = 0x308 then
    b2n s.jobRuns * 2 ^ 31 + s.run.phase % 8 * 2 ^ 28 + s.run.outcome % 4 * 2 ^ 26 + b2n (s.run.causes.getLsbD 0) * 2 ^ 25 +
      b2n (s.run.causes.getLsbD 1) * 2 ^ 24 + b2n (s.run.causes.getLsbD 2) * 2 ^ 23 + b2n s.run.set * 2 ^ 22 +
      min 255 s.run.skips * 2 ^ 14
  else if off = 0x30C then s.run.scale % 256 * 2 ^ 24 + min 0xFFFF s.run.clean
  else if off = 0x310 then s.run.cMin % 2 ^ 16 * 2 ^ 16 + s.run.mask.toNat
  else 0

/-- LEAT_STATUS (R350). -/
def State.leatStatus (s : State) : Nat :=
  b2n s.leat.listening * 2 ^ 31 + b2n s.leat.tailraceOpen * 2 ^ 30 + b2n s.boot.recovery * 2 ^ 29 +
    s.leat.sessions.length % 8 * 2 ^ 24 + b2n s.controlSession.isSome * 2 ^ 23 + s.leat.events.length % 512

/-- The serial number once fuses are loaded (R369). -/
def State.serial (s : State) : Nat := if s.boot.fusesLoaded then s.nv.serial.toNat else 0

/-- Identity registers (R369). -/
def State.regId (s : State) (off : Nat) : Nat :=
  if off = 0 then 0x504C0008
  else if off = 4 then 0x01000102
  else if off = 8 then 0x02BB8F03
  else if off = 0xC then s.serial % 2 ^ 32
  else if off = 0x10 then s.serial / 2 ^ 32
  else if off = 0x14 then s.boot.fwVersion.toNat
  else if off = 0x18 then (if s.boot.fusesLoaded then s.nv.rollback * 256 else 0) + s.boot.fwSvn.toNat
  else 0

/-- The DEVICE block. -/
def State.regDevice (s : State) (off : Nat) : Nat :=
  if off < 0x100 then s.regId off
  else if off < 0x120 then s.floorSpare ((off - 0x100) / 4)
  else if off < 0x140 then s.millSuspect ((off - 0x120) / 4)
  else if off < 0x160 then s.millUse ((off - 0x140) / 4)
  else if off < 0x200 then 0
  else if off < 0x300 then s.regImage off
  else if off < 0x400 then s.regRun off
  else if off = 0x400 then s.leatStatus else 0

/-! ### GOVERNOR, CLOCK, TIMEBASE, HEALTH, SECURITY -/

/-- GOV_FLOOR_f (R393). -/
def State.regFloorGov (s : State) (f : Nat) : Nat :=
  let g := s.floorGov f
  g.tj.toNat * 2 ^ 24 + g.mode.toNat * 2 ^ 22 + b2n g.breach * 2 ^ 21 + g.setMv % 1024
def State.regGov (s : State) (off : Nat) : Nat :=
  if off = 0 then s.pwr.targetC % 256 * 2 ^ 24 + s.pwr.baseMv % 1024 * 2 ^ 10 + s.pwr.capW % 1024
  else if off = 4 then s.pwr.inputMv % 2 ^ 16 * 2 ^ 16 + s.pwr.windowW % 2 ^ 16
  else if off = 8 then s.pwr.alert.toNat
  else if off = 0xC then
    s.pwr.plCur.toNat * 2 ^ 30 + b2n s.pwr.plBusy * 2 ^ 29 + s.pwr.plResult.toNat * 2 ^ 16 + s.pwr.plReq.toNat
  else if off = 0x10 then s.pwr.pdOn.toNat
  else if 0x100 ≤ off ∧ off < 0x120 then s.regFloorGov ((off - 0x100) / 4) else 0

/-- CLK_CTRL_n (R394): the enables and source last written. -/
def State.regClkCtrl (s : State) (n : Nat) : Nat :=
  let c := (NMap.get none s.clk.held n).getD (s.ctrl n)
  b2n c.run * 2 ^ 31 + b2n c.sleep * 2 ^ 30 + b2n c.deep * 2 ^ 29 + b2n c.src * 2 ^ 28 +
    b2n (s.clk.switching.getLsbD n) * 2 ^ 27 + b2n (s.clocked n) * 2 ^ 26
def State.regClock (s : State) (off : Nat) : Nat :=
  if off = 0 then b2n s.clk.refStable * 2 ^ 31 + b2n s.clk.lost * 2 ^ 30 + s.clk.locked.toNat
  else if 0x100 ≤ off ∧ off < 0x148 then s.regClkCtrl ((off - 0x100) / 4) else 0

def State.regTime (s : State) (off : Nat) : Nat :=
  if off = 0 then s.time.ns % 2 ^ 32
  else if off = 4 then s.time.ns / 2 ^ 32 % 2 ^ 32
  else if off = 8 then s.time.ordinal
  else if off = 0xC then b2n s.time.running * 2 ^ 31 + b2n s.time.degraded * 2 ^ 30 + b2n s.time.ordFault * 2 ^ 29 else 0

/-- STATE code of SNAP_STATUS (R321). -/
def SnapState.code : SnapState → Nat
  | .idle => 0 | .opening => 1 | .streaming => 2 | .sealing => 3 | .suspended => 4
/-- Snapshot and restore registers (R321). -/
def State.regSnap (s : State) (off : Nat) : Nat :=
  if off = 0x100 then
    s.snap.st.code * 2 ^ 28 + b2n s.snap.held * 2 ^ 27 + b2n s.snap.final * 2 ^ 26 + s.snap.last % 4 * 2 ^ 24 +
      s.snap.pagesLeft % 2 ^ 19
  else if off = 0x104 then s.snap.seq % 2 ^ 32
  else if off = 0x108 then s.snap.step % 2 ^ 32
  else if off = 0x10C then s.snap.step / 2 ^ 32 % 2 ^ 32
  else if off = 0x110 then
    s.snap.slots.length % 2 ^ 16 * 2 ^ 16 + (if s.run.job = 0 then 0 else (s.run.snapLen / pageBytes - 1) % 2 ^ 16)
  else if off = 0x120 then
    b2n s.restore.busy * 2 ^ 31 + s.restore.code % 256 * 2 ^ 20 + s.restore.pagesLeft % 2 ^ 19
  else if off = 0x124 then s.restore.failPage % 2 ^ 32 else 0
def State.regHealth (s : State) (off : Nat) : Nat :=
  let sc := fun k => min 255 (s.health.scores.getD k 0)
  if off = 0 then b2n s.health.armed * 2 ^ 31 + min 255 s.health.risk
  else if off = 4 then sc 3 * 2 ^ 24 + sc 2 * 2 ^ 16 + sc 1 * 2 ^ 8 + sc 0
  else if off = 8 then sc 4
  else if off = 0x10 then s.health.cfg.toNat
  else if off = 0x14 then s.health.weights.toNat
  else s.regSnap off

def State.regSec (s : State) (off : Nat) : Nat :=
  if off = 0 then
    b2n s.boot.fusesLoaded * 2 ^ 31 + b2n (s.boot.fusesLoaded && s.nv.debugClosed) * 2 ^ 30 +
      b2n (s.boot.fusesLoaded && s.nv.owner.isSome) * 2 ^ 29 + b2n s.time.ordFault * 2 ^ 28 +
      (if s.boot.fusesLoaded then s.nv.fwRevoked.toNat else 0) * 2 ^ 24 + s.boot.fwSlot.toNat * 2 ^ 22 +
      s.sec.lastAction.toNat * 2 ^ 8 + s.sec.lastResult.toNat
  else if off = 4 then
    b2n s.sec.fw.busy * 2 ^ 31 + s.sec.fw.phase % 8 * 2 ^ 28 + s.sec.fw.result % 16 * 2 ^ 24 + s.sec.fw.progress % 2 ^ 14
  else if off = 8 then s.sec.guard.toNat * 2 ^ 24 + s.sec.action.toNat
  else if off = 0xC then s.sec.argLo.toNat
  else if off = 0x10 then s.sec.argHi.toNat else 0

/-! ### ETH_n, FLUME_n, WHEEL -/

def State.regEth (s : State) (p off : Nat) : Nat :=
  let e := s.port p
  if off = 0 then e.cfg.toNat
  else if off = 4 then b2n e.linkUp * 2 ^ 31 + e.mode.toNat * 2 ^ 28 + e.fec.toNat * 2 ^ 26 + b2n e.anDone * 2 ^ 25
  else if off = 8 then (s.mac p).toNat % 2 ^ 32
  else if off = 0xC then (s.mac p).toNat / 2 ^ 32
  else if off = 0x10 then e.ipv4.toNat else 0

/-- STATE code of FLUME_STATUS (the state table of R242). -/
def FlumeState.code : FlumeState → Nat
  | .disabled => 0 | .detect => 1 | .train2 => 2 | .caps => 3 | .train3 => 4 | .active => 5 | .retrain => 6 | .down => 7
/-- FLUME_LANE_RX or FLUME_LANE_TX (R267). -/
def LaneMap.word (m : LaneMap) : Nat :=
  m.retired.toNat * 2 ^ 20 + m.spare % 8 * 2 ^ 12 +
    (List.range 4).foldl (fun n l => n + m.map.getD l 7 % 8 * 2 ^ (3 * l)) 0
def State.regFlume (s : State) (p off : Nat) : Nat :=
  let q := s.fport p
  if off = 0 then
    q.st.code * 2 ^ 28 + q.mode % 4 * 2 ^ 26 + b2n (q.tx.map.length == 2) * 2 ^ 25 + b2n (q.rx.map.length == 2) * 2 ^ 24 +
      b2n q.peerGm6 * 2 ^ 23 + q.peerPort % 16 * 2 ^ 16
  else if off = 4 then q.cfg.toNat
  else if off = 8 then q.rx.word
  else if off = 0xC then q.tx.word
  else if off = 0x10 then (q.peerSerial.getD 0).toNat % 2 ^ 32
  else if off = 0x14 then (q.peerSerial.getD 0).toNat / 2 ^ 32 else 0

/-- Buckets FILLING or REDUCING (R268). -/
def State.inFlight (s : State) : Nat :=
  (s.wheel.buckets.filter fun b => decide (b.2.st = .filling) || decide (b.2.st = .reducing)).length
/-- A digest of the residual index: SEND_n with `k` 8 and RECV_n with `k` 9 (R261, R266). -/
def State.digest (s : State) (b p k : Nat) : Nat := s.num (indexAddr b + 8 * (k + 2 * p)) 8
/-- The selected digest; zero for a port or a bucket that does not exist. -/
def State.selDigest (s : State) (k : Nat) : Nat :=
  let p := s.wheel.digSel.toNat / 4096
  let b := s.wheel.digSel.toNat % 4096
  let n := match s.image with
    | some img => img.bucketCount
    | none => 0
  if p < 12 ∧ b < n then s.digest b p k else 0
def State.regWheel (s : State) (off : Nat) : Nat :=
  if off = 0 then
    b2n s.wheel.active * 2 ^ 31 + b2n s.wheel.stalled * 2 ^ 30 + s.wheel.nextLaunch % 4096 * 2 ^ 16 + s.inFlight % 16 * 2 ^ 12 +
      s.wheel.nextGather % 4096
  else if off = 4 then b2n s.wheel.valid * 2 ^ 31 + s.wheel.p % 8192 * 2 ^ 13 + s.wheel.device % 8192
  else if off = 0x10 then s.wheel.digSel.toNat
  else if off = 0x14 then b2n (s.wheel.digLog.getLsbD 16) * 2 ^ 31 + s.wheel.digLog.toNat % 2 ^ 16
  else if off = 0x18 then s.selDigest 8 % 2 ^ 32
  else if off = 0x1C then s.selDigest 8 / 2 ^ 32
  else if off = 0x20 then s.selDigest 9 % 2 ^ 32
  else if off = 0x24 then s.selDigest 9 / 2 ^ 32 else 0

/-! ### MEMCTL, POND, FLOOR_f, WEIR -/

def State.regMem (s : State) (off : Nat) : Nat :=
  let m := s.memctl
  if off = 0 then m.rate.toNat
  else if off = 4 then
    b2n (decide (m.pkgTrained = 0xFFF)) * 2 ^ 31 + b2n m.zeroed * 2 ^ 30 + b2n (decide (m.patrolOn ≠ 0) && !s.selfRefresh) * 2 ^ 29 +
      m.pkgFail.toNat * 2 ^ 16 + m.pkgTrained.toNat
  else if off = 0x10 then m.ueAddr % 2 ^ 32
  else if off = 0x14 then b2n m.ueValid * 2 ^ 31 + m.ueStore % 8 * 2 ^ 28 + m.ueAddr / 2 ^ 32 % 2 ^ 16 else 0

/-- PEER of a Race as the registers show it: a physical Mill, an Ethernet port, or 0xFF. -/
def Image.peerCode (img : Image) (p : Nat) : Nat := if p < 144 then img.phys p else p
/-- TAIL and HEAD of a Race. -/
def State.raceSt (s : State) (key : Nat) : RaceSt := NMap.get RaceSt.init s.races key
/-- The four registers of Race field `r` at physical Mill `m`; `reset` is RACE_BASE without a definition. -/
def State.regRace (s : State) (m r k reset : Nat) : Nat :=
  match s.image with
  | none => if k = 0 then reset else 0
  | some img =>
    match img.race m r with
    | none => if k = 0 then reset else 0
    | some d =>
      if k = 0 then
        (if r < 32 then
          2 ^ 31 + (if d.producer = 8 ∨ d.consumer = 8 then img.peerCode d.peer % 256 else 0xFF) * 2 ^ 21 + d.base / 8 * 8
         else
          2 ^ 31 + (if d.producer = 7 ∨ d.consumer = 7 ∨ d.producer = 5 then img.peerCode d.peer % 256 else 0xFF) * 2 ^ 16 +
            d.base / 512)
      else if k = 1 then
        d.producer * 2 ^ 28 + d.consumer * 2 ^ 24 + (d.capacity - 1) * 2 ^ 12 + d.slotBytes / (if r < 32 then 8 else 512) - 1
      else if k = 2 then (s.raceSt (raceKey m r)).tail.toNat else (s.raceSt (raceKey m r)).head.toNat

/-- The POND block (R132). -/
def State.regPond (s : State) (off : Nat) : Nat :=
  if off = 0 then (match s.image with
    | some img => 2 ^ 31 + img.cacheMib
    | none => 0)
  else if 0x1000 ≤ off ∧ off < 0x1000 + 152 * 0x100 then
    s.regRace ((off - 0x1000) / 0x100) (32 + off % 0x100 / 16) (off % 16 / 4) 0x00FF0000
  else 0

/-- Code of a bank's state (R102). -/
def BankState.code : BankState → Nat
  | .off => 0 | .waking => 1 | .on => 2 | .closing => 3
def State.bank (s : State) (m b : Nat) : Bank := NMap.get Bank.init s.banks (16 * m + b)
/-- HOPPER_SEQ (R102). -/
def State.hopperSeq (s : State) (l : Nat) : Nat :=
  let w := s.portPos (0x1000 + l)
  let n := s.portPos (0x2000 + l)
  b2n (w.running && decide (w.waiting ≠ 0)) * 2 ^ 31 + b2n (n.running && decide (n.waiting ≠ 0)) * 2 ^ 30 +
    (if w.running then w.waiting % 16 else 0) * 2 ^ 26 + n.entry % 256 * 2 ^ 18 + w.entry % 1024
/-- The registers of one slot of a Floor (R102, R177): a Mill that no image uses reads all zero. -/
def State.regSlot (s : State) (m off : Nat) : Nat :=
  match s.image with
  | none => 0
  | some img =>
    match img.logical m with
    | none => 0
    | some l =>
      if off = 0x800 then (List.range 16).foldl (fun n b => n + (s.bank m b).st.code * 4 ^ b) 0
      else if off = 0x804 then s.hopperSeq l
      else if 0x810 ≤ off ∧ off < 0x820 then
        (List.range 4).foldl (fun n i => n + min 255 (s.inflight img m (off - 0x810 + i)) * 256 ^ i) 0
      else if 0x900 ≤ off ∧ off < 0xB00 then s.regRace m ((off - 0x900) / 16) (off % 16 / 4) 0x1FE00000
      else if off = 0xB00 then NMap.get 0 s.carders m else 0
/-- TENTER_STATUS (R148). -/
def State.regTenter (s : State) (f : Nat) : Nat :=
  let t := NMap.get Tenter.init s.tenters f
  b2n t.busy * 2 ^ 31 + b2n t.serial * 2 ^ 30 + t.tile % 2 ^ 24
def State.regFloor (s : State) (f off : Nat) : Nat :=
  if off < 0x13000 then s.regSlot (19 * f + off / 0x1000) (off % 0x1000)
  else if off = 0x13000 then s.regTenter f else 0

/-- The state of a physical Weir. -/
def State.weirSt (s : State) (w : Nat) : WeirSt := NMap.get WeirSt.init s.weirs w
def State.regWeir (s : State) (off : Nat) : Nat :=
  if off = 0 then b2n s.ctx.active * 2 ^ 31 + s.ctx.table % 4 * 2 ^ 8 + s.ctx.lending.toNat
  else if off = 0x10 then s.deadLog.detail.toNat
  else if off = 0x14 then b2n s.deadLog.valid * 2 ^ 31 + s.deadLog.kind % 4 * 2 ^ 29 + s.deadLog.item % 2 ^ 16
  else if off = 0x18 then b2n s.weirLog.valid * 2 ^ 31 + s.weirLog.weir % 2 ^ 11 * 2 ^ 20 + s.weirLog.participant % 2 ^ 10 * 2 ^ 10
  else if 0x1000 ≤ off ∧ off < 0x5000 then
    let w := s.weirSt ((off - 0x1000) / 8)
    if off % 8 = 0 then w.gen % 2 ^ 32
    else b2n (!w.waiters.isEmpty) * 2 ^ 31 + w.held.length % 2 ^ 10 * 2 ^ 21 + w.counted.length % 2 ^ 10
  else 0

/-- The COUNTER block (R366, R369). -/
def State.regCounter (s : State) (off : Nat) : Nat :=
  if off = 0 then s.ctrClear.toNat else (NMap.get (0 : Word32) s.mirror off).toNat

/-- The register at an address of the management register space (R12, R368). -/
def State.reg (s : State) (a : Nat) : Nat :=
  if a < 0x10000 then s.regDevice a
  else if a < 0x20000 then s.regGov (a - 0x10000)
  else if a < 0x30000 then s.regClock (a - 0x20000)
  else if a < 0x40000 then s.regTime (a - 0x30000)
  else if a < 0x50000 then s.regHealth (a - 0x40000)
  else if a < 0x60000 then s.regSec (a - 0x50000)
  else if a < 0x80000 then s.regEth ((a - 0x60000) / 0x10000) (a % 0x10000)
  else if a < 0x8C000 then s.regFlume ((a - 0x80000) / 0x1000) (a % 0x1000)
  else if a < 0x90000 then 0
  else if a < 0xA0000 then s.regWheel (a - 0x90000)
  else if a < 0xB0000 then s.regMem (a - 0xA0000)
  else if a < 0x100000 then s.regPond (a - 0xB0000)
  else if a < 0x200000 then s.regFloor ((a - 0x100000) / 0x20000) (a % 0x20000)
  else if a < 0x300000 then s.regWeir (a - 0x200000)
  else if a < 0x340000 then s.regCounter (a - 0x300000)
  else 0

/-! ### Writing -/

/-- Clear GOV_ALERT bits written 1 (RWS). -/
def State.clearAlert (s : State) (v : Nat) : State := { s with pwr.alert := s.pwr.alert &&& ~~~(BitVec.ofNat 5 v) }
/-- Clear the logs' VALID bits (RWS); the logs are rearmed. -/
def State.clearUeLog (s : State) (v : Nat) : State := if bitOf v 31 then { s with memctl.ueValid := false } else s
def State.clearShapeLog (s : State) (v : Nat) : State := if bitOf v 31 then { s with shapeLog.valid := false } else s
def State.clearDeadLog (s : State) (v : Nat) : State := if bitOf v 31 then { s with deadLog.valid := false } else s
def State.clearWeirLog (s : State) (v : Nat) : State := if bitOf v 31 then { s with weirLog.valid := false } else s
def State.clearDigLog (s : State) (v : Nat) : State :=
  if bitOf v 31 then { s with wheel.digLog := s.wheel.digLog &&& 0xFFFF } else s
/-- Write COUNTER_CLEAR (R367). -/
def State.writeCounterClear (s : State) (v : Nat) : State :=
  { s.counterClear v with ctrClear := BitVec.ofNat 32 v &&& 0xFFFFFFFC }

/-- Write one register; sessions that close after the reply. Writes to read-only fields and to addresses without a
register change nothing (R10, R12). -/
def State.regWriteOne (s : State) (a v : Nat) : State × List Word32 :=
  if a = 0x254 then (s.clearShapeLog v, [])
  else if a = 0x10000 then (s.setGovCfg v, [])
  else if a = 0x10008 then (s.clearAlert v, [])
  else if a = 0x1000C then (s.requestLevel (v % 4), [])
  else if 0x20100 ≤ a ∧ a < 0x20148 then (s.writeCtrl ((a - 0x20100) / 4) (ClkCtrl.ofWord (BitVec.ofNat 32 v)), [])
  else if a = 0x40010 then ({ s with health.cfg := BitVec.ofNat 32 v }, [])
  else if a = 0x40014 then ({ s with health.weights := BitVec.ofNat 20 v }, [])
  else if a = 0x50008 then s.writeSecCtrl v
  else if a = 0x5000C then ({ s with sec.argLo := BitVec.ofNat 32 v }, [])
  else if a = 0x50010 then ({ s with sec.argHi := BitVec.ofNat 16 v }, [])
  else if a = 0x60000 ∨ a = 0x70000 then (s.setEthCfg ((a - 0x60000) / 0x10000) (BitVec.ofNat 32 v), [])
  else if 0x80000 ≤ a ∧ a < 0x8C000 ∧ a % 0x1000 = 4 then (s.writeFlumeCfg ((a - 0x80000) / 0x1000) (BitVec.ofNat 32 v), [])
  else if a = 0x90010 then ({ s with wheel.digSel := BitVec.ofNat 16 v }, [])
  else if a = 0x90014 then (s.clearDigLog v, [])
  else if a = 0xA0014 then (s.clearUeLog v, [])
  else if a = 0x200014 then (s.clearDeadLog v, [])
  else if a = 0x200018 then (s.clearWeirLog v, [])
  else if a = 0x300000 then (s.writeCounterClear v, [])
  else (s, [])

/-- Write words at ascending addresses. -/
def State.regWrites (s : State) (a : Nat) : List Nat → State × List Word32
  | [] => (s, [])
  | v :: vs =>
    let r := s.regWriteOne a v
    let t := r.1.regWrites (a + 4) vs
    (t.1, r.2 ++ t.2)

/-! ### REG_READ and REG_WRITE (R332) -/

def regReadRun (payload : List Byte) (s : State) : LeatAns :=
  let a := fieldAt payload 0 4
  let n := fieldAt payload 4 2
  if a % 4 ≠ 0 then answer s 5
  else if n = 0 ∨ 64 < n then answer s 6
  else .mk3 s 0 ((List.range n).flatMap fun i => leBytes 4 (s.reg (a + 4 * i)))
def State.regRead (s : State) (h : LeatHdr) (payload : List Byte) : State :=
  s.request h 0x0010 payload false (payload.length == 8) (regReadRun payload)
/-- REG_READ (R332). -/
def execRegRead (h : LeatHdr) (payload : List Byte) (s : State) : Host.Outcome State Fault Refusal :=
  done (s.regRead h payload)

/-- Payload of a REG_READ or, with values, of a REG_WRITE. -/
def regPayload (a n : Nat) (vs : List Nat) : List Byte :=
  leBytes 4 a ++ leBytes 2 n ++ leBytes 2 0 ++ vs.flatMap (leBytes 4)

def State.timeLoRead (s : State) (h : LeatHdr) (n : Nat) : State := s.regRead h (regPayload 0x30000 n [])
/-- TIME_LO_READ (R364): a REG_READ that begins at TIME_LO. A request is executed at one instant, so the pair is
coherent. -/
def execTimeLoRead (h : LeatHdr) (count : Nat) (s : State) : Host.Outcome State Fault Refusal := done (s.timeLoRead h count)

def regWriteRun (payload : List Byte) (s : State) : LeatAns :=
  let a := fieldAt payload 0 4
  let n := fieldAt payload 4 2
  if a % 4 ≠ 0 then answer s 5
  else if n = 0 ∨ 64 < n then answer s 6
  else
    let r := s.regWrites a ((List.range n).map fun i => fieldAt payload (8 + 4 * i) 4)
    ⟨r.1, 0, [], r.2⟩
def State.regWrite (s : State) (h : LeatHdr) (payload : List Byte) : State :=
  s.request h 0x0011 payload true (payload.length == 8 + 4 * fieldAt payload 4 2) (regWriteRun payload)
/-- REG_WRITE (R332). -/
def execRegWrite (h : LeatHdr) (payload : List Byte) (s : State) : Host.Outcome State Fault Refusal :=
  done (s.regWrite h payload)

/-- A REG_WRITE of one register. -/
def State.writeReg (s : State) (h : LeatHdr) (a v : Nat) : State := s.regWrite h (regPayload a 1 [v])

/-! ### Registers with a row of their own -/

/-- COUNTER_CLEAR (R367). -/
def execCounterClear (h : LeatHdr) (v : Word32) (s : State) : Host.Outcome State Fault Refusal :=
  done (s.writeReg h 0x300000 v.toNat)
/-- CLAIM, ENROL, CLOSE_DEBUG and COMMIT_SVN (R361, R363, R369). -/
def execClaim (h : LeatHdr) (guard : Byte) (s : State) : Host.Outcome State Fault Refusal :=
  done (s.writeReg h 0x50008 (guard.toNat * 2 ^ 24 + 1))
/-- ENROL (R361). -/
def execEnrol (h : LeatHdr) (guard : Byte) (s : State) : Host.Outcome State Fault Refusal :=
  done (s.writeReg h 0x50008 (guard.toNat * 2 ^ 24 + 2))
/-- CLOSE_DEBUG (R363). -/
def execCloseDebug (h : LeatHdr) (guard : Byte) (s : State) : Host.Outcome State Fault Refusal :=
  done (s.writeReg h 0x50008 (guard.toNat * 2 ^ 24 + 3))
/-- COMMIT_SVN (R369). -/
def execCommitSvn (h : LeatHdr) (guard : Byte) (s : State) : Host.Outcome State Fault Refusal :=
  done (s.writeReg h 0x50008 (guard.toNat * 2 ^ 24 + 4))
/-- POWER_LEVEL_REQUEST (R391). -/
def execPowerLevelRequest (h : LeatHdr) (v : Word32) (s : State) : Host.Outcome State Fault Refusal :=
  done (s.writeReg h 0x1000C v.toNat)
/-- GOV_CFG_WRITE (R393). -/
def execGovCfgWrite (h : LeatHdr) (v : Word32) (s : State) : Host.Outcome State Fault Refusal :=
  done (s.writeReg h 0x10000 v.toNat)
/-- ETH_CFG_WRITE (R349). -/
def execEthCfgWrite (h : LeatHdr) (p : Fin 2) (v : Word32) (s : State) : Host.Outcome State Fault Refusal :=
  done (s.writeReg h (0x60000 + 0x10000 * p.val) v.toNat)
/-- FLUME_CFG_WRITE (R267). -/
def execFlumeCfgWrite (h : LeatHdr) (p : Fin 12) (v : Word32) (s : State) : Host.Outcome State Fault Refusal :=
  done (s.writeReg h (0x80004 + 0x1000 * p.val) v.toNat)
/-- CLK_CTRL_WRITE (R378). -/
def execClkCtrlWrite (h : LeatHdr) (n : Fin 18) (v : Word32) (s : State) : Host.Outcome State Fault Refusal :=
  done (s.writeReg h (0x20100 + 4 * n.val) v.toNat)
/-- The value of CLK_CTRL_n with SRC changed and nothing else. -/
def State.withSrc (s : State) (n : Nat) (src : Bool) : Nat :=
  let v := s.regClkCtrl n
  v - b2n (bitOf v 28) * 2 ^ 28 + b2n src * 2 ^ 28
/-- CLOCK_SOURCE_SWITCH (R379). -/
def execClockSourceSwitch (h : LeatHdr) (n : Fin 18) (src : Bool) (s : State) : Host.Outcome State Fault Refusal :=
  done (s.writeReg h (0x20100 + 4 * n.val) (s.withSrc n.val src))
/-- UE_LOG_CLEAR (R133). -/
def execUeLogClear (h : LeatHdr) (v : Word32) (s : State) : Host.Outcome State Fault Refusal :=
  done (s.writeReg h 0xA0014 v.toNat)
/-- SHAPE_LOG_CLEAR (R212). -/
def execShapeLogClear (h : LeatHdr) (v : Word32) (s : State) : Host.Outcome State Fault Refusal :=
  done (s.writeReg h 0x254 v.toNat)
/-- DEADLOCK_LOG_CLEAR (R231). -/
def execDeadlockLogClear (h : LeatHdr) (v : Word32) (s : State) : Host.Outcome State Fault Refusal :=
  done (s.writeReg h 0x200014 v.toNat)
/-- WEIR_FAULT_LOG_CLEAR (R231). -/
def execWeirFaultLogClear (h : LeatHdr) (v : Word32) (s : State) : Host.Outcome State Fault Refusal :=
  done (s.writeReg h 0x200018 v.toNat)
/-- WHEEL_DIGEST_LOG_CLEAR (R268). -/
def execWheelDigestLogClear (h : LeatHdr) (v : Word32) (s : State) : Host.Outcome State Fault Refusal :=
  done (s.writeReg h 0x90014 v.toNat)
/-- GOV_ALERT_CLEAR (R393). -/
def execGovAlertClear (h : LeatHdr) (v : Word32) (s : State) : Host.Outcome State Fault Refusal :=
  done (s.writeReg h 0x10008 v.toNat)

/-! ### The refresh of the mirror (R24) -/

def State.counterRefresh (s : State) : State :=
  if s.time.running && decide (s.time.ns % 100000 = 0) then s.refreshAll else s
/-- COUNTER_REFRESH (R24). -/
def execCounterRefresh (s : State) : Host.Outcome State Fault Refusal := done s.counterRefresh

end Sys2Proof.Machine
end

