-- ==== Sys2Proof/Machine/Operands.lean ====
section
/-! DEFINITION. Operand forms: which addresses an agent reaches, Race slots, descriptors in force, element and scale addresses, full values, conversions and stores (R101, R105, R130, R136-R144, R146, R205-R207, R274, R282, R283, R412). -/
namespace Sys2Proof.Machine

/-! ### Fixed rules (R101, R105) -/

/-- The state of the bank that holds a Hopper offset. -/
def State.bankAt (s : State) (m off : Nat) : BankState := (s.bank m (off / 0x20000)).st

/-- The counter of an access that a Hopper resolves by a fixed rule (R101, R105); none when it is performed. -/
def State.denyHopper (s : State) (img : Image) (m off : Nat) : Option Nat :=
  if img.uses m then
    match s.bankAt m off with
    | .off => some (cHopper m 5)
    | .closing => some (cHopper m 5)
    | _ => none
  else some (cMem 1)

/-- The counter of a fabric access that is resolved by a fixed rule (R101, R105, R69). -/
def State.deny (s : State) (img : Image) (ag : Agent) (a : Nat) : Option Nat :=
  match ag with
  | .shoe m _ => match regionOf a with
    | .hopper m' off => if m' = m then s.denyHopper img m off else some (cMem 1)
    | _ => some (cMem 1)
  | .drain m _ => match regionOf a with
    | .hopper m' off => if m' = m then s.denyHopper img m off else some (cMem 1)
    | _ => some (cMem 1)
  | _ => match regionOf a with
    | .data => none
    | .check => if ag = .wheel ∨ ag = .snapshot then none else some (cMem 0)
    | .metadata => if ag = .wheel ∨ ag = .snapshot then none else some (cMem 0)
    | .slice m off => if img.uses m ∧ off < img.scratchBytes then none else some (cMem 1)
    | .hopper m off => s.denyHopper img m off
    | _ => some (cMem 1)

/-- The address that a fabric agent's access reaches (R274). -/
def State.xlat (s : State) (img : Image) (a : Nat) : Nat := img.translate s.run.set (a % 2 ^ 48)

/-- A byte as a fabric agent reads it. -/
def State.fabByte (s : State) (img : Image) (ag : Agent) (a : Nat) : Byte :=
  if (s.deny img ag (s.xlat img a)).isSome then 0 else s.byte (s.xlat img a)
/-- A little-endian number of `n` bytes as a fabric agent reads it. -/
def State.fabNum (s : State) (img : Image) (ag : Agent) (a n : Nat) : Nat :=
  leNat ((List.range n).map fun i => s.fabByte img ag (a + i))
/-- An address lies in a bank that is waking (R101). -/
def State.wakingAt (s : State) (a : Nat) : Bool := match regionOf a with
  | .hopper m off => s.bankAt m off == .waking
  | _ => false

/-! ### Results of one part of an operation -/

/-- An operation goes on, waits for a bank or for protected pages with nothing done (R101, R308), with the number of the
step that waits (R148, R177), or stops because the device has failed (R315). -/
inductive Out where
  | go (s : State)
  | wait (pages : List PageWait) (step : Nat)
  | stop (s : State)
deriving DecidableEq, Repr

/-- Go on with the rest of the operation. -/
def Out.andThen (o : Out) (f : State → Out) : Out := match o with
  | .go s => f s
  | .wait ps n => .wait ps n
  | .stop s => .stop s

/-- A wait of this part is a wait of step `n`. -/
def Out.atStep (n : Nat) (o : Out) : Out := match o with
  | .wait ps _ => .wait ps n
  | o => o

/-- Stop when this part has made the device fail. -/
def outOf (before after : State) : Out := if after.run.failed && !before.run.failed then .stop after else .go after

/-- Accesses resolved by a fixed rule: one for each 128 B quarter met (log 26). -/
def State.countDenied (s : State) (img : Image) (ag : Agent) (as : List Nat) : State :=
  ((distinct (as.map (· / 128))).filterMap fun q => s.deny img ag (q * 128)).foldl State.accessFault s

/-- The routers at which the words of an access to a set of bytes are received, each once. -/
def Image.routersOf (img : Image) (ag : Agent) (w : Bool) (as : List Nat) : List Nat :=
  distinct (((quartersOf as).flatMap fun q => img.accessTurns ag w q.1 q.2).filterMap fun u =>
    if u.port / 4096 = 4 ∨ u.port / 4096 = 5 then some (u.port / 8) else none)
/-- The links of an access to a set of bytes are checked at every router (R127). -/
def State.linkErrors (s : State) (img : Image) (ag : Agent) (w : Bool) (group : Option Nat) (as : List Nat) : State :=
  if s.noc.isEmpty then s else s.routerWords (s.classOf group) (img.routersOf ag w as)

/-- Read a set of byte addresses: its presentations, fixed-rule accesses, verification with the outcome of uncorrectable words,
and uses of the cache. -/
def State.fetch (s : State) (img : Image) (ag : Agent) (group : Option Nat) (alloc : Bool) (as : List Nat) : Out :=
  let xs := distinct (as.map (s.xlat img))
  let ok := xs.filter fun a => (s.deny img ag a).isNone
  if ok.any s.wakingAt then .wait [] 0
  else
    let t := ((s.presentAll img ag false xs).linkErrors img ag false group xs).countDenied img ag xs
    let r := t.verifyWords ((distinct (ok.map (· / 8))).filter fun w => t.synOf w ≠ 0)
    let u := r.1.ueOutcome group r.2
    let lines := distinct ((ok.filter fun a => regionOf a = .data).map (· / 256))
    outOf s (lines.foldl (fun v l => v.cacheUse (256 * l) alloc) u)

/-! ### Stores -/

/-- One element to be stored: first byte, first bit in it, width in bits, code. -/
structure Put where
  addr : Nat
  bit : Nat
  width : Nat
  code : Nat
deriving DecidableEq, Repr

def Put.bytes (p : Put) : List Nat := (List.range ((p.bit + p.width + 7) / 8)).map (p.addr + ·)

/-- Merge byte `i` of an element into a stored byte. -/
def Put.merge (p : Put) (i : Nat) (old : Byte) : Byte :=
  (old &&& ~~~(BitVec.ofNat 8 ((2 ^ p.width - 1) * 2 ^ p.bit / 256 ^ i))) |||
    BitVec.ofNat 8 (p.code % 2 ^ p.width * 2 ^ p.bit / 256 ^ i)

/-- Store one byte of an element, unless a fixed rule discards it. -/
def State.putByte (s : State) (img : Image) (ag : Agent) (p : Put) (i : Nat) : State :=
  let a := s.xlat img (p.addr + i)
  if (s.deny img ag a).isSome then s else s.poke a (p.merge i (s.byte a))
/-- Store one element. -/
def State.putOne (s : State) (img : Image) (ag : Agent) (p : Put) : State :=
  (List.range ((p.bit + p.width + 7) / 8)).foldl (fun t i => t.putByte img ag p i) s

/-- Bits of the word at 8 × `w` that the stores cover. -/
def coverBits (ps : List Put) (w : Nat) : Nat :=
  (distinct (ps.map fun p => (8 * p.addr + p.bit) * 64 + p.width)).foldl (fun n e =>
    let lo := max (e / 64) (64 * w)
    let hi := min (e / 64 + e % 64) (64 * w + 64)
    n + (hi - lo)) 0

/-- The port and the code at which an agent's access to a data-region line takes its turn (R112). -/
def Image.homeTurn (img : Image) (ag : Agent) (a : Nat) : Nat × Nat :=
  (((img.accessTurns ag true a 128).getLast?).map fun u => (u.port, u.code)).getD (0x3000 + homeMill a, 0)
/-- The waits of writes to a set of addresses on the pages that a snapshot protects (R308). -/
def State.waitsOn (s : State) (img : Image) (ag : Agent) (as : List Nat) : List PageWait :=
  as.foldl (fun (ws : List PageWait) a =>
    let p := a / pageBytes
    if regionOf a = .data ∧ s.protectedPage p = true ∧ (ws.any fun w => w.page == p) = false then
      let t := img.homeTurn ag a
      ws ++ [⟨p, t.1, t.2⟩]
    else ws) []
/-- The same for a byte range that the runtime itself writes, at the lines' home ports and with no requester code. -/
def State.runtimeWaits (s : State) (a n : Nat) : List PageWait :=
  (s.protectedIn a n).map fun p => ⟨p, 0x3000 + homeMill (max a (p * pageBytes)), 0⟩

/-- Store elements in order: presentations, fixed-rule accesses, the read half of partly written words (R130), then the bytes. A write
to a page that a snapshot protects waits (R308). -/
def State.deposit (s : State) (img : Image) (ag : Agent) (group : Option Nat) (ps : List Put) : Out :=
  let xs := distinct (ps.flatMap fun p => p.bytes.map (s.xlat img))
  let ok := xs.filter fun a => (s.deny img ag a).isNone
  let prot := s.waitsOn img ag ok
  if ok.any s.wakingAt then .wait [] 0
  else if !prot.isEmpty then .wait prot 0
  else
    let t := (((s.presentAll img ag true xs).seeBitmap ok).linkErrors img ag true group xs).countDenied img ag xs
    let moved := ps.map fun p => { p with addr := s.xlat img p.addr }
    let bad := (distinct (ok.map (· / 8))).filter fun w => decide (t.synOf w ≠ 0) && decide (coverBits moved w < 64)
    let r := t.verifyWords bad
    match outOf s (r.1.ueOutcome group r.2) with
    | .go u => .go (ps.foldl (fun v p => v.putOne img ag p) u)
    | o => o

/-! ### Races (R90-R96, R412) -/

/-- An engine's role in a Race. -/
structure RaceUse where
  key : Nat
  m : Nat
  num : Nat
  d : RaceDef
  prod : Bool
deriving DecidableEq, Repr

/-- Requester code of a stream kind's engine at a Hopper and at a vertical port (R83, R107); 0 none. -/
def engineCode (kind : Nat) (drain : Bool) : Nat × Nat :=
  if kind = 0 then (if drain then 3 else 1, 0)
  else if kind = 1 then (if drain then 4 else 2, 0)
  else if kind = 2 then (6, 2)
  else if kind = 3 then (5, 1)
  else if kind = 5 then (7, 3)
  else (0xA, 0)

/-- Race definition `d`, number `r`, of a physical Mill, as a use by a requester code. -/
def raceUseOf (m r code : Nat) (d : RaceDef) : Option RaceUse :=
  if code = 0 then none
  else if d.producer = code then some ⟨raceKey m r, m, r, d, true⟩
  else if d.consumer = code then some ⟨raceKey m r, m, r, d, false⟩
  else none

/-- The Race that field `r` of an instruction names, in the role its engine holds: a Race of the own Mill, else the
lowest Mill's Race of that number whose NoC or lateral end is this Mill; for a Tenter, the lowest Mill's Race that names
the Tenter (log 27). None: the accesses are plain (R96). -/
def Image.raceUse (img : Image) (owner kind : Nat) (drain : Bool) (r : Nat) : Option RaceUse :=
  let c := engineCode kind drain
  let code := if r < 32 then c.1 else c.2
  let far := if r < 32 then 8 else 7
  let defs := if r < 32 then img.hopperRaces.filter (fun d => d.valid && d.num == r)
    else if r < 48 then img.pondRaces.filter (fun d => d.valid && d.num + 32 == r) else []
  if kind = 5 then
    ((defs.filter fun d => floorOf (img.phys d.mill) == owner || decide (32 ≤ r)).filterMap fun d =>
      raceUseOf (img.phys d.mill) r code d).head?
  else match ((defs.filter fun d => d.mill == owner).filterMap fun d => raceUseOf (img.phys owner) r code d).head? with
    | some u => some u
    | none => ((defs.filter fun d => d.peer == owner && kind ≠ 0 && kind ≠ 1).filterMap fun d =>
        raceUseOf (img.phys d.mill) r far d).head?

/-- Occupancy (R91). -/
def RaceSt.occ (x : RaceSt) : Nat := (x.tail - x.head).toNat
/-- The use is blocked: a producer on a full Race, a consumer on an empty one (R93). -/
def State.raceBlocked (s : State) (u : RaceUse) : Bool :=
  if u.prod then decide (u.d.capacity ≤ (s.raceSt u.key).occ) else (s.raceSt u.key).occ == 0
/-- The slot the use holds: first byte and bytes. -/
def State.raceSlot (s : State) (u : RaceUse) : Nat × Nat :=
  (u.d.slotAddr u.m u.num (if u.prod then (s.raceSt u.key).tail.toNat else (s.raceSt u.key).head.toNat), u.d.slotBytes)

/-- The running context makes progress (R227). -/
def State.moved (s : State) : State := { s with ctx.progress := s.time.ns, ctx.reported := false }

/-- Publish or release the slot (R92). -/
def State.raceDone (s : State) (u : RaceUse) : State :=
  let x := s.raceSt u.key
  let y := if u.prod then { x with tail := x.tail + 1, prodHeld := false, progress := s.time.ns }
    else { x with head := x.head + 1, consHeld := false, progress := s.time.ns }
  { s with races := NMap.set RaceSt.init s.races u.key y }.moved

/-! ### Descriptors in force (R139, R205, R207) -/

/-- An element index. -/
structure Ix where
  i0 : Nat
  i1 : Nat
  i2 : Nat
  i3 : Nat
deriving DecidableEq, Repr

def Ix.get (i : Ix) (d : Nat) : Nat := if d = 0 then i.i0 else if d = 1 then i.i1 else if d = 2 then i.i2 else i.i3
/-- Replace one index. -/
def Ix.put (i : Ix) (d v : Nat) : Ix :=
  if d = 0 then { i with i0 := v } else if d = 1 then { i with i1 := v } else if d = 2 then { i with i2 := v }
  else { i with i3 := v }

/-- A shape register of a logical Mill, in a table of shape registers. -/
def shapeIn (sh : NMap Nat) (l r : Nat) : Nat := NMap.get 0xFFFFFFFF sh (256 * l + r % 256)
/-- A shape register as it stands. -/
def State.shapeReg (s : State) (l r : Nat) : Nat := shapeIn s.shapes l r

/-- A descriptor as an operation uses it. -/
structure View where
  di : Nat
  d : Desc
  ext : Ix
  base : Nat
  scaleBase : Nat
  /-- the Race slot held: first byte and bytes -/
  slot : Option (Nat × Nat)
  /-- element bits -/
  w : Nat
deriving DecidableEq, Repr

/-- Extent `k` in force with a table of shape registers. -/
def Desc.extIn (d : Desc) (sh : NMap Nat) (l k : Nat) : Nat :=
  let e := d.ext.getD k 1
  if bitOf d.dyn k then
    let v := shapeIn sh l (d.shapeReg + k)
    if v = 0xFFFFFFFF then e else min v e
  else e

/-- Truncated registers of a descriptor: register, descriptor, value (R207). -/
def Desc.truncated (d : Desc) (sh : NMap Nat) (l di : Nat) : List (Nat × Nat × Nat) :=
  (List.range 4).filterMap fun k =>
    let r := (d.shapeReg + k) % 256
    let v := shapeIn sh l r
    if bitOf d.dyn k ∧ v ≠ 0xFFFFFFFF ∧ d.ext.getD k 1 < v then some (r, di, v) else none

/-- Descriptor `di` in force with a table of shape registers, relative to a Race slot when one is held (R412). -/
def Image.viewIn (img : Image) (sh : NMap Nat) (l di : Nat) (slot : Option (Nat × Nat)) : View :=
  let d := img.desc di
  let off := match slot with
    | some p => p.1
    | none => 0
  { di := di, d := d, ext := ⟨d.extIn sh l 0, d.extIn sh l 1, d.extIn sh l 2, d.extIn sh l 3⟩
    base := (off + d.base) % 2 ^ 48, scaleBase := (off + d.scaleBase) % 2 ^ 48, slot := slot, w := fmtBits d.format }

/-- The same with the shape registers as they stand. -/
def State.view (s : State) (img : Image) (l di : Nat) (slot : Option (Nat × Nat)) : View := img.viewIn s.shapes l di slot

/-- A zero shape (R139, R206). -/
def View.isZero (v : View) : Bool := v.ext.i0 == 0 || v.ext.i1 == 0 || v.ext.i2 == 0 || v.ext.i3 == 0
/-- Elements within the extents. -/
def View.count (v : View) : Nat := v.ext.i0 * v.ext.i1 * v.ext.i2 * v.ext.i3
/-- Element number `p` in ascending order, dimension 0 fastest (R413). -/
def View.nth (v : View) (p : Nat) : Ix :=
  ⟨p % v.ext.i0, p / v.ext.i0 % v.ext.i1, p / (v.ext.i0 * v.ext.i1) % v.ext.i2, p / (v.ext.i0 * v.ext.i1 * v.ext.i2)⟩

/-- Count ZERO_SHAPE and SHAPE_OVERRUN once each for an operation over descriptors, with the shape registers it was issued
with, and log the first overrun (R206, R207, R212). -/
def State.shapeCounts (s : State) (sh : NMap Nat) (l m : Nat) (vs : List View) : State :=
  let t := if vs.any View.isZero then s.count (cShape m 1) else s
  let tr := vs.flatMap fun v => v.d.truncated sh l v.di
  match tr with
  | [] => t
  | x :: xs =>
    let lo := xs.foldl (fun (a : Nat × Nat × Nat) b => if b.1 < a.1 then b else a) x
    let u := t.count (cShape m 0)
    let g := if u.shapeLog.valid then u else
      { u with shapeLog := ⟨true, l, lo.1, lo.2.1, BitVec.ofNat 32 lo.2.2⟩ }
    g.raise 0x0006 0 [2 ^ 31 + l % 256 * 2 ^ 23 + lo.1 * 2 ^ 15 + lo.2.1 % 2 ^ 15, lo.2.2]

/-! ### Element and scale addresses (R136, R137, R140, R412) -/

/-- Clamp an index to the extents (R140). -/
def View.clamp (v : View) (i : Ix) : Ix :=
  ⟨min i.i0 (v.ext.i0 - 1), min i.i1 (v.ext.i1 - 1), min i.i2 (v.ext.i2 - 1), min i.i3 (v.ext.i3 - 1)⟩

/-- Offset that dimensions 1 to 3 give. -/
def Desc.outer (d : Desc) (i : Ix) : Nat := d.stride.getD 1 0 * i.i1 + d.stride.getD 2 0 * i.i2 + d.stride.getD 3 0 * i.i3

/-- First byte and first bit of an element, and whether it was clamped to its slot. -/
def View.elem (v : View) (i : Ix) : Nat × Nat × Bool :=
  let a := (v.base + i.i0 * v.w / 8 + v.d.outer i) % 2 ^ 48
  let unit := if v.w = 6 then 3 else max 1 (v.w / 8)
  let us := if v.w = 6 then (v.base + 3 * (i.i0 / 4) + v.d.outer i) % 2 ^ 48 else a
  match v.slot with
  | none => (a, i.i0 * v.w % 8, false)
  | some p =>
    if p.1 ≤ us ∧ us + unit ≤ p.1 + p.2 then (a, i.i0 * v.w % 8, false)
    else (p.1 + (p.2 / unit - 1) * unit + (a - us), i.i0 * v.w % 8, true)

/-- The block scale's byte, and whether it was clamped to its slot. -/
def View.scale (v : View) (i : Ix) : Nat × Bool :=
  let b := fmtBlock v.d.format
  let x := if v.d.blockAxis then i.i0 + v.d.sstride.getD 1 0 * (i.i1 / b) else i.i0 / b + v.d.sstride.getD 1 0 * i.i1
  let a := (v.scaleBase + x + v.d.sstride.getD 2 0 * i.i2 + v.d.sstride.getD 3 0 * i.i3) % 2 ^ 48
  match v.slot with
  | none => (a, false)
  | some p => if p.1 ≤ a ∧ a < p.1 + p.2 then (a, false) else (p.1 + p.2 - 1, true)

/-- The address of byte `off` of a view whose bytes are no elements (a header, a bitmap, a mask), and whether it was clamped
to its slot. -/
def View.byteAt (v : View) (off : Nat) : Nat × Bool :=
  let a := (v.base + off) % 2 ^ 48
  match v.slot with
  | none => (a, false)
  | some p => if p.1 ≤ a ∧ a < p.1 + p.2 then (a, false) else (p.1 + p.2 - 1, true)

/-- The format has block scales and the accesses use them. -/
def View.blocked (v : View) : Bool := decide (0 < fmtBlock v.d.format) && decide (v.w = fmtBits v.d.format)

/-- Bytes that reading an element and its scale takes. -/
def View.bytesOf (v : View) (i : Ix) : List Nat :=
  let e := v.elem i
  (List.range ((e.2.1 + v.w + 7) / 8)).map (e.1 + ·) ++ (if v.blocked then [(v.scale i).1] else [])

/-- The element at an index within the extents is clamped to its slot. -/
def View.offSlot (v : View) (i : Ix) : Bool := (v.elem i).2.2
/-- Its block scale is clamped to the slot. -/
def View.scaleOff (v : View) (i : Ix) : Bool := v.blocked && (v.scale i).2
/-- Clamped accesses of an element given by its unclamped index: the element's, clamped to its extents or to the slot, and
its scale's, clamped to the slot (R140, R412). -/
def View.clamps (v : View) (i : Ix) : Nat :=
  let c := v.clamp i
  b2n (decide (c ≠ i) || v.offSlot c) + b2n (v.scaleOff c)

/-- Count clamped accesses of a Mill (R140, R149). -/
def State.countClamps (s : State) (m : Nat) (v : View) (is : List Ix) : State :=
  let n := is.foldl (fun n i => n + v.clamps i) 0
  if n = 0 then s else s.countN (cLayout m 0) n

/-! ### Values -/

/-- The element code at an index within the extents. -/
def State.codeAt (s : State) (img : Image) (ag : Agent) (v : View) (i : Ix) : Nat :=
  let e := v.elem i
  s.fabNum img ag e.1 ((e.2.1 + v.w + 7) / 8) / 2 ^ e.2.1 % 2 ^ v.w
/-- The block-scale code of an element; 0 for a format without block scales. -/
def State.scaleAt (s : State) (img : Image) (ag : Agent) (v : View) (i : Ix) : Nat :=
  if v.blocked then (s.fabByte img ag (v.scale i).1).toNat else 0

/-- Element times block scale, exact, with its code fault (R29, R34, R40). -/
def termOf (fmt code scale : Nat) : FV × Bool :=
  let e := decodeElem fmt code
  (if fmtBlock fmt = 0 then e.1 else e.1.mul (decodeScale fmt scale), e.2)

/-- The tensor scale in force of a descriptor, an FP32 code (R42, R52). -/
def State.tensorScale (s : State) (img : Image) (di : Nat) : Nat :=
  let f := (img.desc di).format
  if fmtHist f then
    match img.scaleEntry di with
    | none => one32
    | some (m, _, a) =>
      histScale f ((List.range 16).foldl (fun h j =>
        let e := s.num (s.xlat img (a + 4 * j)) 4
        if (dec32 h).lt (dec32 e) then e else h) (s.num (s.xlat img a) 4)) m
  else one32

/-- An element as read at its value: the exact value, its FP32 code (the full value of R146), a code fault, and a saturation
of the rounding to FP32. -/
structure Full where
  exact : FV
  code : Nat
  fault : Bool
  sat : Bool
deriving DecidableEq, Repr

/-- Read an element at its value with tensor scale `st` (R146). -/
def State.fullAt (s : State) (img : Image) (ag : Agent) (v : View) (st : Nat) (i : Ix) : Full :=
  let t := termOf v.d.format (s.codeAt img ag v i) (s.scaleAt img ag v i)
  let x := if fmtHist v.d.format then t.1.mul (dec32 st) else t.1
  let r := round32 x
  ⟨x, r.1, t.2, r.2⟩
/-- Read elements at their values. -/
def State.fulls (s : State) (img : Image) (ag : Agent) (v : View) (is : List Ix) : List Full :=
  let st := s.tensorScale img v.di
  is.map (s.fullAt img ag v st)
/-- The value that a conversion starts from: the full value, or a UINT32 element's own value (R146, R410). -/
def View.convVal (v : View) (x : Full) : FV := if v.d.format = 0x0D then x.exact else dec32 x.code

/-- Count code faults in a descriptor's group (R29, R34). -/
def State.countFaults (s : State) (v : View) (n : Nat) : State := if n = 0 then s else s.countN (cGroup v.d.group 3) n

/-- Count what reading elements meets: code faults in the group of the tensor read, as R29 and R34 say (R49 names the group
of the descriptor written, log 63). -/
def State.countValues (s : State) (v : View) (xs : List Full) : State := s.countFaults v (xs.filter fun x => x.fault).length
/-- The same for elements read at their full value, with the saturations in group `g`, that of the descriptor written. -/
def State.countFulls (s : State) (v : View) (g : Nat) (xs : List Full) : State :=
  let n := (if v.d.format = 0x0D then [] else xs.filter fun x => x.sat).length
  if n = 0 then s.countValues v xs else (s.countValues v xs).countN (cGroup g 2) n

/-- Element codes that are code faults of a view's format (R29, R34). -/
def View.badCodes (v : View) (cs : List Nat) : Nat := (cs.filter fun c => (decodeElem v.d.format c).2).length

/-! ### Conversions into a tensor (R42, R46, R48, R49, R51, R283) -/

/-- What the words of a stochastic conversion are drawn with: key, site word, epoch. -/
structure Draws where
  key : Nat
  site : Nat
  epoch : Nat
deriving DecidableEq, Repr

def Draws.word (d : Option Draws) (i : Nat) : Option Nat := d.map fun x => draw x.key x.site x.epoch i

/-- Begin a conversion into a descriptor: it takes an ordinal when it is stochastic and its stream is valid; with an
invalid stream it counts one code fault and rounds to nearest even (R282, R283). T2 takes no rounding mode (R38). -/
def State.beginConv (s : State) (img : Image) (k hi : Nat) (v : View) : State × Option Draws :=
  if v.d.rnd ∧ v.d.format ≠ 0x0C then
    match s.philoxStream img v.d.stream with
    | none => (s.count (cGroup v.d.group 3), none)
    | some (key, epoch) =>
      let slot := k * 65536 + v.d.stream
      let n := NMap.get 0 s.run.ordinals slot
      ({ s with run.ordinals := NMap.set 0 s.run.ordinals slot (n + 1) }, some ⟨key, siteWord hi (k % 8) n, epoch⟩)
  else (s, none)

/-- Group list entries by key, in order of first appearance within each key. -/
def groupBy {α : Type} [DecidableEq α] (key : α → Nat) (xs : List α) : List (List α) :=
  ((xs.reverse.foldl (fun (m : NMap (List α)) x =>
    NMap.set [] m (key x) (x :: NMap.get [] m (key x))) [])).map (·.2)

/-- One element on its way into a tensor: position in the conversion, clamped index, value, stochastic word. -/
structure Item where
  pos : Nat
  ix : Ix
  val : FV
  word : Option Nat
deriving DecidableEq, Repr

/-- What converting a list of elements into a tensor gives: stores of elements in element order, stores of scales, and
counts. -/
structure Stored where
  elems : List Put
  scales : List Put
  nan : Nat
  inf : Nat
  sat : Nat
  amax : Nat
deriving DecidableEq, Repr

/-- The number of the block that holds an index: B indices of the block axis, one of each other dimension (R137). -/
def View.blockNo (v : View) (i : Ix) : Nat :=
  let b := fmtBlock v.d.format
  let x := if v.d.blockAxis then i.put 1 (i.i1 / b) else i.put 0 (i.i0 / b)
  ((x.i3 * 2 ^ 32 + x.i2) * 2 ^ 32 + x.i1) * 2 ^ 32 + x.i0

/-- Convert values into the destination of a view, each with the index that locates its block scale. The elements of one
block are converted together, in ascending order of the blocks (R36-R38). -/
def View.convertAt (v : View) (st : Nat) (xs : List (Item × Ix)) : Stored :=
  let groups := if v.blocked then groupBy (fun x => v.blockNo x.2) xs else xs.map fun x => [x]
  let rs := groups.map fun g => (g, convert v.d.format (dec32 st) (g.map fun x => (x.1.val, x.1.word)))
  let codes := (rs.flatMap fun r => (r.1.zip r.2.codes).map fun p => (p.1.1.pos, (p.1.1.ix, p.2))).foldl
    (fun (m : NMap (Option (Ix × Nat))) p => NMap.set none m p.1 (some p.2)) []
  { elems := codes.filterMap fun p => p.2.map fun q => let e := v.elem q.1; ⟨e.1, e.2.1, v.w, q.2⟩
    scales := rs.flatMap fun r => match r.1.head? with
      | some x => r.2.scales.map fun c => ⟨(v.scale x.2).1, 0, 8, c⟩
      | none => []
    nan := rs.foldl (fun n r => n + r.2.nan) 0
    inf := rs.foldl (fun n r => n + r.2.inf) 0
    sat := rs.foldl (fun n r => n + r.2.sat) 0
    amax := rs.foldl (fun n r => max n r.2.amax) 0 }

/-- The same, every element's block scale at the element's own index (R137). -/
def View.convertAll (v : View) (st : Nat) (xs : List Item) : Stored := v.convertAt st (xs.map fun x => (x, x.ix))

/-- Record the counts of a conversion in the destination's group and its largest magnitude (R49, R51); a reserved
format counts a code fault for each element (R29). -/
def State.recordConv (s : State) (v : View) (r : Stored) : State :=
  let g := v.d.group
  let t := (((s.countN (cGroup g 0) r.nan).countN (cGroup g 1) r.inf).countN (cGroup g 2) r.sat).countN (cGroup g 3)
    (if fmtReserved v.d.format then r.elems.length else 0)
  if fmtHist v.d.format then
    { t with run.amax := NMap.set 0 t.run.amax v.di (max (NMap.get 0 t.run.amax v.di) r.amax) }
  else t

/-! ### Runs and the line (R141) -/

/-- The runs of elements: the byte range that they take from each stored row, first byte and bytes. -/
def View.runs (v : View) (is : List Ix) : List (Nat × Nat) :=
  (groupBy (fun i => (i.i3 * 2 ^ 32 + i.i2) * 2 ^ 32 + i.i1) is).filterMap fun g =>
    match g.map fun i => let e := v.elem i; (e.1, e.1 + (e.2.1 + v.w + 7) / 8) with
    | [] => none
    | x :: xs =>
      let r := xs.foldl (fun (a : Nat × Nat) b => (min a.1 b.1, max a.2 b.2)) x
      some (r.1, r.2 - r.1)
/-- The lines of a run's data, as first bytes, that lie in two stored lines each. -/
def splitLines (a n : Nat) : List Nat :=
  ((List.range (cdiv n 512)).map fun i => a + 512 * i).filter fun c => decide (c / 512 ≠ (min (c + 512) (a + n) - 1) / 512)
/-- One line of a misaligned run: it counts at the Mill whose Hopper or slice it lies in, and as a bank conflict where its
two rows share a bank of a Hopper; the banks of a slice take adjacent rows in turn (R80, R106). -/
def State.countSplit (s : State) (a : Nat) : State := match regionOf a with
  | .hopper m off =>
    let t := s.count (cLayout m 1)
    if off / 0x20000 = (off + 511) / 0x20000 then t.count (cHopper m 0) else t
  | .slice m _ => s.count (cLayout m 1)
  | _ => s
/-- MISALIGNED_UNITS of the runs that an access of elements makes. -/
def State.countRuns (s : State) (img : Image) (ag : Agent) (v : View) (is : List Ix) : State :=
  (((v.runs is).flatMap fun r => splitLines r.1 r.2).filter fun a => (s.deny img ag a).isNone).foldl State.countSplit s

/-- Read elements of a tensor on a wide lane, given by indices within the extents. -/
def State.readElems (s : State) (img : Image) (ag : Agent) (v : View) (is : List Ix) : Out :=
  (s.countRuns img ag v is).fetch img ag (some v.d.group) (!v.d.noalloc) (is.flatMap v.bytesOf)

/-! ### Stores into a tensor -/

/-- Convert values into a tensor and store them, each with the index that locates its block scale. -/
def State.storeItems (s : State) (img : Image) (ag : Agent) (v : View) (xs : List (Item × Ix)) : Out :=
  let r := v.convertAt (s.tensorScale img v.di) xs
  ((s.recordConv v r).countRuns img ag v (xs.map fun x => x.1.ix)).deposit img ag (some v.d.group) (r.elems ++ r.scales)

/-- Store element codes and scale codes unchanged, each with the index that locates its block scale. -/
def State.storeCodes (s : State) (img : Image) (ag : Agent) (v : View) (xs : List (Ix × Ix × Nat × Nat)) : Out :=
  let es := xs.map fun x => let e := v.elem x.1; (⟨e.1, e.2.1, v.w, x.2.2.1⟩ : Put)
  let ss := if v.blocked then xs.map fun x => (⟨(v.scale x.2.1).1, 0, 8, x.2.2.2⟩ : Put) else []
  ((if fmtReserved v.d.format then s.countFaults v xs.length else s).countRuns img ag v (xs.map (·.1))).deposit img ag
    (some v.d.group) (es ++ ss)

/-- One element that an engine moves from a tensor into another: source index, unclamped destination index, the number of
its word in a stochastic conversion, and the index that locates the destination's block scale. -/
structure Move where
  src : Ix
  dst : Ix
  word : Nat
  sc : Ix
deriving DecidableEq, Repr

/-- Move elements that have been fetched: codes and block scales unchanged, or full values converted as the destination
directs (R146, R154). -/
def State.moveInto (s : State) (img : Image) (ag : Agent) (vs vd : View) (same : Bool) (dr : Option Draws) (ms : List Move) : Out :=
  if same then
    let cs := ms.map fun m => (vd.clamp m.dst, vd.clamp m.sc, s.codeAt img ag vs m.src, s.scaleAt img ag vs m.src)
    (s.countFaults vs (vs.badCodes (cs.map fun c => c.2.2.1))).storeCodes img ag vd cs
  else
    let xs := s.fulls img ag vs (ms.map (·.src))
    (s.countFulls vs vd.d.group xs).storeItems img ag vd (((List.range ms.length).zip (ms.zip xs)).map fun p =>
      (⟨p.1, vd.clamp p.2.1.dst, vs.convVal p.2.2, Draws.word dr p.2.1.word⟩, vd.clamp p.2.1.sc))

/-! ### Byte ranges (R147) -/

/-- Byte range of a tensor's elements, and of its scales: first byte and the byte after the last. -/
def View.ranges (v : View) : List (Nat × Nat) :=
  let last : Ix := ⟨v.ext.i0 - 1, v.ext.i1 - 1, v.ext.i2 - 1, v.ext.i3 - 1⟩
  let e := v.elem last
  (v.base, e.1 + (e.2.1 + v.w + 7) / 8) :: (if v.blocked then [(v.scaleBase, (v.scale last).1 + 1)] else [])
/-- Any range of one list meets any range of the other. -/
def rangesMeet (xs ys : List (Nat × Nat)) : Bool := xs.any fun x => ys.any fun y => decide (max x.1 y.1 < min x.2 y.2)

end Sys2Proof.Machine
end

