-- ==== Sys2Proof/Machine/Targets.lean ====
section
/-! DEFINITION. What the holders of a port are and what the streams present there: codes of entries, turn coverage, the sources of a holder (R84, R193, R199-R202, R204). -/
namespace Sys2Proof.Machine

/-! ### Entries and holders (R199) -/

/-- Holder codes that a stream of a kind pads at a port of a class, for the Mill's own ports. -/
def padCodes (kind cls : Nat) : List Nat :=
  if cls = 1 then
    (if kind = 0 then [1, 3] else if kind = 1 then [2, 4] else if kind = 2 then [6] else if kind = 3 then [5] else [])
  else if cls = 2 then (if kind = 2 then [6] else if kind = 4 then [0xA] else [])
  else if cls = 3 then (if kind = 2 then [2] else if kind = 3 then [1] else if kind = 4 then [5] else [])
  else []

/-- Holder codes that an entry names, with the lane each drives: quarter lanes 0-3, the narrow slot 4, scale lanes 5 and
6 (R199). Classes without lanes use lane 0. -/
def entryHolders (cls e : Nat) : List (Nat × Nat) :=
  (if cls = 1 then
    [(0, bitsOf e 19 16), (1, bitsOf e 23 20), (2, bitsOf e 27 24), (3, bitsOf e 31 28),
      (5, if bitOf e 15 then 1 else 0), (6, if bitOf e 14 then 2 else 0)]
   else if cls = 3 then [(0, e % 16), (1, e / 16 % 16), (2, e / 256 % 16), (3, e / 4096 % 16)]
   else if cls = 7 then [(0, bitsOf e 15 14)]
   else [(4, e % 16)]).filter fun p => p.2 ≠ 0

/-- Holders that a segment names. -/
def PortRec.segHolders (r : PortRec) (g : Segment) : List Nat :=
  ((List.range (g.last + 1 - g.first)).flatMap fun i => (entryHolders (r.port / 4096) (r.entries.getD (g.first + i) 0)).map (·.2)).eraseDups

/-- Holders that never hold an entry up: at a wide port GM6 window writes, at a vertical port cache and
snapshot-engine turns, and LPDDR5X channel entries (R84, R202). -/
def freeHolder (cls h : Nat) : Bool :=
  (cls == 1 && h == 9) || (cls == 3 && (h == 8 || h == 6)) || cls == 7

/-! ### What an instruction presents (R193, R204) -/

/-- Descriptors beyond D0 to D3: a gather-add's fifth (R156), and the second pair of a transposable structured pack
(log 35). -/
def fifthDesc (i : SInstr) : List Nat :=
  if i.opcode = 0x23 then [i.op 15 0] else if i.opcode = 0x2A ∧ i.flag 1 = true then [i.op 15 0, i.op 31 16] else []
/-- The descriptors an engine other than a Stone accesses, each with its Race field and whether only requests go out for it: for
what a copy reads, replies come back too (log 47). -/
def engineDescs (i : SInstr) : List (Nat × Nat × Bool) :=
  ((List.range 4).map fun f => (i.dIdx f, i.race f, !(f == 0 && (i.opcode == 0x40 || i.opcode == 0x50)))) ++
    (fifthDesc i).map fun d => (d, 0x3F, true)

/-- The agent of a stream's engine. -/
def Image.streamAgent (img : Image) (r : StreamRec) : Agent :=
  if r.kind = 5 then .tenter r.owner else .mill (img.phys r.owner) (engineCode r.kind false).1
/-- Ports and codes at which a descriptor's planned elements and scales are accessed. -/
def Image.descTurns (img : Image) (r : StreamRec) (d : Nat × Nat × Bool) : List (Nat × Nat) :=
  let l := if r.kind = 5 then 0 else r.owner
  let slot := (img.raceUse r.owner r.kind false d.2.1).map fun u => (u.d.slotAddr u.m u.num 0, u.d.slotBytes)
  let v := img.viewIn [] l d.1 slot
  let as := distinct ((List.range v.count).flatMap fun p => v.bytesOf (v.nth p))
  ((quartersOf as).flatMap fun q => (img.accessTurns (img.streamAgent r) d.2.2 q.1 q.2).map fun u => (u.port, u.code)).eraseDups

/-- What an instruction presents: ports and codes. -/
def Image.presents (img : Image) (r : StreamRec) (i : SInstr) : List (Nat × Nat) :=
  let o := i.opcode
  if o = 0x10 ∨ o = 0x12 then [(0x1000 + r.owner, 1 + r.kind)]
  else if o = 0x11 then [(0x1000 + r.owner, 3 + r.kind)]
  else if o = 0x60 then [(0x2000 + r.owner, 0xA)]
  else if o = 4 then [(i.op 15 0, i.op 51 48)]
  else if (0x21 ≤ o ∧ o ≤ 0x34) ∨ o = 0x40 ∨ o = 0x50 then
    (engineDescs i).flatMap fun d => if d.1 = 0xFFFF then [] else img.descTurns r d
  else []
/-- Everything that a stream presents: the targets and the links that the loader records for it (R202). -/
def Image.sends (img : Image) (r : StreamRec) : List (Nat × Nat) :=
  ((List.range r.count).flatMap fun j => img.presents r (r.at j)).eraseDups

/-! ### Who a holder is (R93, R201, R202) -/

/-- Keys of the streams that present as a holder of a port: its driver, or the sources whose requests come through it. -/
def Image.holderStreams (img : Image) (port code : Nat) : List Nat :=
  let c := port / 4096
  let l := port % 4096
  let own := fun (kind : Nat) => (padCodes kind c).contains code
  match (List.range 5).filter own with
  | kind :: _ => [8 * l + kind]
  | [] =>
    if c = 1 ∧ code = 7 then [8 * floorOf (img.phys l) + 5]
    else (img.streams.filter fun r => (img.sends r).contains (port, code)).map fun r => 8 * r.owner + r.kind

/-- A holder pads on the step markers of its sources: NoC inbound at a Hopper, lateral inbound and the Wheel at a vertical port,
and the inputs of routers and spine outputs (R202). -/
def markerHolder (cls h : Nat) : Bool :=
  ((cls == 1 || cls == 2) && h == 8) || (cls == 3 && (h == 7 || h == 4)) || (decide (4 ≤ cls ∧ cls ≤ 6) && h ≠ 0)

/-! ### Turn coverage (R193) -/

/-- A holder has a turn in the segments from `lo` on. -/
def PortRec.turnIn (r : PortRec) (lo code : Nat) : Bool :=
  (r.segs.drop lo).any fun g => (List.range (g.last + 1 - g.first)).any fun i =>
    (entryHolders (r.port / 4096) (r.entries.getD (g.first + i) 0)).any fun h => decide (h.1 < 5) && h.2 == code

/-- A presentation is covered: by the step cycle, or at a port without one by its prologue; a step-body presentation there
waits at the stopped port (R211). -/
def Image.covered (img : Image) (prologue : Bool) (p : Nat × Nat) : Bool := match img.port p.1 with
  | none => !prologue
  | some r => if r.hasCycle then r.turnIn r.cycleStart p.2 else !prologue || r.turnIn 0 p.2

/-- Every presentation of an instruction is covered. -/
def Image.turnOk (img : Image) (r : StreamRec) (j : Nat) (i : SInstr) : Bool :=
  (img.presents r i).all (img.covered (decide (j < r.body)))

end Sys2Proof.Machine
end

