-- ==== Sys2Proof/Machine/Weir.lean ====
section
/-! DEFINITION. Weirs, the forward gate and the deadlock detector (R214-R218, R227, R228, R284, R285, R289). -/
namespace Sys2Proof.Machine

/-! ### Totals that the runtime reads (R54, R284, R286) -/

/-- NaN and infinity counts over the groups that satisfy a test; with saturations when `sat`. -/
def State.groupTotal (s : State) (f : Nat → Bool) (sat : Bool) : Nat :=
  ((List.range 64).filter f).foldl (fun n g =>
    n + s.source (cGroup g 0) + s.source (cGroup g 1) + (if sat then s.source (cGroup g 2) else 0)) 0

/-! ### The forward gate (R284, R285, R289) -/

/-- The loss of micro-batch `b`, an FP32 code (R289). -/
def State.lossOf (s : State) (img : Image) (b : Nat) : Nat := s.num (img.rtLoss + 8 * b) 4

/-- max(x, +0.0). -/
def posPart32 (x : Nat) : Nat := if (dec32 0).lt (dec32 x) then x else 0

/-- Whether a loss is a spike (R289). -/
def State.isSpike (s : State) (img : Image) (loss : Nat) : Bool :=
  if s.run.step < img.rtSpikeWarmup ∨ !(dec32 loss).isFinite then false
  else
    let sigma := (sqrt32 (posPart32 (sub32 s.run.nu (mul32 s.run.mu s.run.mu).1).1)).1
    (dec32 (add32 s.run.mu (mul32 img.rtSpikeK sigma).1).1).lt (dec32 loss)

/-- Withdraw micro-batches at the gate: mask, counter, loss record flag, shape registers of every Mill (R284, R285). -/
def State.withdrawMb (s : State) (img : Image) (b : Nat) : State :=
  if s.run.mask.getLsbD b then s
  else
    let t := (s.count (cRun 0)).poke (img.rtLoss + 8 * b + 4) 1
    { t with
      run.mask := t.run.mask ||| BitVec.ofNat 8 (2 ^ b)
      shapes := (List.range 144).foldl (fun m l => NMap.set 0xFFFFFFFF m (256 * l + (img.rtShapeMb + b) % 256) 0) t.shapes }

/-- The totals at the start of the backward phase (R54, R286). -/
def State.startBackward (s : State) (img : Image) : State :=
  { s with run.phase := 2, run.gradTotal := s.groupTotal img.gradGroup true, run.gradNan := s.groupTotal img.gradGroup false }

/-- The runtime at a close of FWD_WEIR: micro-batch `gated` is judged. -/
def State.forwardGate (s : State) (img : Image) : State :=
  let b := s.run.gated
  if img.rtM ≤ b then s
  else
    let loss := s.lossOf img b
    let total := s.groupTotal (fun g => img.groupClass g == 0) false
    let spike := s.isSpike img loss
    let out := s.run.withdrawAll || !(dec32 loss).isFinite || decide (s.run.gateTotal < total) || s.run.mbUe ||
      s.run.fetchFail.getLsbD b || (spike && img.rtSpikeAction)
    let t := if s.run.mask.getLsbD b then s else s.poke (img.rtLoss + 8 * b + 4) 0
    let u := if spike then t.count (cRun 3) else t
    let v := if s.run.replicaUe || s.run.withdrawAll then (List.range img.rtM).foldl (fun x k => x.withdrawMb img k) u
      else if out then u.withdrawMb img b else u
    let w := { v with run.gated := b + 1, run.gateTotal := total, run.mbUe := false }
    if b + 1 = img.rtM then w.startBackward img else w

/-! ### Counting and closing (R216, R217) -/

/-- Close the open generation: its waiters are released, held entries are counted in the new one. -/
def WeirSt.close (w : WeirSt) : WeirSt :=
  { w with gen := w.gen + 1, counted := (w.held.map (·.1)).reverse, waiting := (w.held.filter (·.2)).map (·.1)
           held := [], releasing := w.releasing ++ w.waiting.map fun i => (i, false) }

/-- The index of a participant in a Weir's list. -/
def Image.weirIndex (img : Image) (e owner kind : Nat) : Option Nat :=
  findIdx (fun q => q == (owner, kind)) (img.weirParts e)

/-- The Wheel is counted in the open generation of the forward gate, in SIGNAL form: R272 makes it a participant, and it
enters once for every micro-batch, as soon as the generation opens (log 37). -/
def State.wheelCounted (s : State) (img : Image) (e : Nat) : State := match img.weirIndex e 0 6 with
  | none => s
  | some i =>
    let p := img.weirPhys e
    let w := s.weirSt p
    if w.counted.contains i then s else { s with weirs := NMap.set WeirSt.init s.weirs p { w with counted := i :: w.counted } }

/-- What a close of Weir entry `e` means to the runtime. -/
def State.weirClosed (s : State) (img : Image) (e : Nat) : State :=
  if img.hasRt ∧ img.weirOf s.ctx.table img.rtFwdWeir = some e then
    (let t := s.forwardGate img
     if t.run.gated < img.rtM then t.wheelCounted img e else t)
  else if img.hasRt ∧ img.weirOf s.ctx.table img.rtCommitWeir = some e then
    { s with run.phase := 4, wheel.exchanging := true }
  else s

/-- Closes that one entry can bring: two, since a held entry is counted once, or one for each micro-batch at the forward gate. -/
def weirFuel : Nat := 10
/-- Close generations while the open one is full. -/
def State.weirFill (s : State) (img : Image) (e : Nat) : Nat → State
  | 0 => s
  | n + 1 =>
    let w := s.weirSt (img.weirPhys e)
    if w.counted.length = img.weirN e ∧ 0 < img.weirN e then
      ((({ s with weirs := NMap.set WeirSt.init s.weirs (img.weirPhys e) { w.close with progress := s.time.ns } }).moved).weirClosed
        img e).weirFill img e n
    else s

/-- A third-entry fault ends the context (R218). -/
def State.weirFault (s : State) (phys part : Nat) : State :=
  let t := (s.count (cWeir 1))
  let u := if t.weirLog.valid then t else { t with weirLog := ⟨true, phys, part⟩ }
  (u.ownerReset).endJob .failed 3

/-- Participant `i` enters Weir entry `e` (R215-R217). -/
def State.weirEnter (s : State) (img : Image) (e i : Nat) (wait : Bool) : State :=
  let p := img.weirPhys e
  let w := s.weirSt p
  if w.counted.contains i then
    if w.held.any (fun h => h.1 == i) then s.weirFault p i
    else { s.count (cWeir 0) with weirs := NMap.set WeirSt.init s.weirs p { w with held := w.held ++ [(i, wait)] } }
  else
    let w2 := { w with counted := i :: w.counted, waiting := if wait then i :: w.waiting else w.waiting, progress := s.time.ns }
    (({ s with weirs := NMap.set WeirSt.init s.weirs p w2 }).moved).weirFill img e weirFuel

/-- A release is on its way to a participant of Weir entry `e`. -/
def State.weirReleased (s : State) (img : Image) (e owner kind : Nat) : Bool :=
  match img.weirIndex e owner kind with
  | some i => (s.weirSt (img.weirPhys e)).releasing.any fun r => r.1 == i
  | none => false
/-- The release arrives. -/
def State.takeRelease (s : State) (img : Image) (e owner kind : Nat) : State :=
  match img.weirIndex e owner kind with
  | some i =>
    let p := img.weirPhys e
    let w := s.weirSt p
    { s with weirs := NMap.set WeirSt.init s.weirs p { w with releasing := w.releasing.filter fun r => r.1 != i } }
  | none => s

/-- The Wheel's entry in the open generation of a Weir is withdrawn: the step begins again before that Weir has closed (R264,
R298). -/
def State.wheelLeave (s : State) (img : Image) (vid : Nat) : State :=
  match img.weirOf s.ctx.table vid with
  | none => s
  | some e => match img.weirIndex e 0 6 with
    | none => s
    | some i =>
      let p := img.weirPhys e
      let w := s.weirSt p
      { s with weirs := NMap.set WeirSt.init s.weirs p { w with
        counted := w.counted.filter (· != i), waiting := w.waiting.filter (· != i), held := w.held.filter fun h => h.1 != i } }

/-- The Wheel enters, WAIT, the Weir that a virtual identifier names (R214, R254). -/
def State.wheelEnter (s : State) (img : Image) (vid : Nat) (wait : Bool) : State :=
  match img.weirOf s.ctx.table vid with
  | none => s
  | some e => match img.weirIndex e 0 6 with
    | none => s
    | some i => s.weirEnter img e i wait
/-- A release of the Weir that a virtual identifier names is on its way to the Wheel. -/
def State.wheelReleased (s : State) (img : Image) (vid : Nat) : Bool :=
  match img.weirOf s.ctx.table vid with
  | none => false
  | some e => s.weirReleased img e 0 6
def State.wheelTake (s : State) (img : Image) (vid : Nat) : State :=
  match img.weirOf s.ctx.table vid with
  | none => s
  | some e => s.takeRelease img e 0 6

end Sys2Proof.Machine
end

