-- ==== Sys2Proof/Machine/Streams.lean ====
section
/-! DEFINITION. Instruction streams: issue, loops, step ends, Weir entries, Race waits, and the frame of every engine operation (R93, R200-R207, R215). -/
namespace Sys2Proof.Machine

/-! ### Issue -/

/-- What an instruction is issued with: the image, the stream, its record and the instruction. -/
structure Issue where
  img : Image
  owner : Nat
  kind : Nat
  rc : StreamRec
  ins : SInstr
  /-- the shape registers as they stood at the issue (R205) -/
  shapes : NMap Nat
deriving DecidableEq, Repr

/-- Stream key (state table `streams`). -/
def Issue.k (e : Issue) : Nat := 8 * e.owner + e.kind
/-- Logical Mill whose registers the stream uses: the owner, or for a Tenter the lowest Mill of its Floor (log 27). -/
def Issue.l (e : Issue) : Nat :=
  if e.kind = 5 then
    match (List.range 144).filter fun l => floorOf (e.img.phys l) == e.owner with
    | l :: _ => l
    | [] => 0
  else e.owner
/-- Physical Mill of that Mill. -/
def Issue.m (e : Issue) : Nat := e.img.phys e.l
/-- The agent of the stream's accesses; a Stone drains as its Drain. -/
def Issue.agent (e : Issue) (drain : Bool) : Agent :=
  if e.kind = 5 then .tenter e.owner
  else if e.kind < 2 then (if drain then .drain e.m (e.kind == 1) else .shoe e.m (e.kind == 1))
  else .mill e.m (engineCode e.kind drain).1
/-- High byte of the site word (R283). -/
def Issue.site (e : Issue) : Nat := if e.kind = 5 then 0xF0 + e.owner else e.owner

/-- The data service is still counting the items of the step's micro-batches; the forward phase issues after that
(R280). -/
def State.fetching (s : State) : Bool := match s.run.data.phase with
  | .header _ => true
  | _ => false

/-- The instruction that a stream issues next, when the stream runs and the presentations of those before it have filled their
turns. -/
def State.issueAny (s : State) (owner kind : Nat) : Option Issue :=
  match s.image with
  | none => none
  | some img =>
    let t := s.stream (8 * owner + kind)
    if s.ctx.active && !s.run.failed && !s.fetching && t.stat == .running && !t.halted then
      match img.stream owner kind with
      | none => none
      | some r => if t.pc < r.count ∧ s.turnsFilled (8 * owner + kind) (r.at t.pc).opcode = true then some ⟨img, owner, kind, r, r.at t.pc, t.latch.getD s.shapes⟩ else none
    else none
/-- The same, when it has the opcode. -/
def State.issue (s : State) (owner kind opc : Nat) : Option Issue :=
  match s.issueAny owner kind with
  | some e => if e.ins.opcode = opc then some e else none
  | none => none

/-- The next pc after leaving an instruction: a loop whose body has ended repeats or is left (R204). -/
def loopBack (pc : Nat) : List LoopSt → Nat × List LoopSt
  | [] => (pc, [])
  | l :: ls =>
    if pc = l.stop then (if 0 < l.left then (l.start, { l with left := l.left - 1 } :: ls) else loopBack pc ls)
    else (pc, l :: ls)

/-- Move a stream past its instruction. -/
def Stream.next (t : Stream) : Stream :=
  let r := loopBack (t.pc + 1) t.loops
  { t with pc := r.1, loops := r.2, latch := none }
def State.advance (s : State) (k : Nat) : State := s.setStream k (s.stream k).next

/-! ### The frame of an engine operation (R92, R93, R206) -/

/-- The Races that the descriptor fields of an instruction name, one use for each Race. -/
def Issue.races (e : Issue) (drain : Bool) (fields : List Nat) : List RaceUse :=
  (fields.filterMap fun f => e.img.raceUse e.owner e.kind drain (e.ins.race f)).eraseDups

/-- The slot that field `f` reads its descriptor in. -/
def Issue.slot (e : Issue) (s : State) (drain : Bool) (f : Nat) : Option (Nat × Nat) :=
  (e.img.raceUse e.owner e.kind drain (e.ins.race f)).map s.raceSlot

/-- The descriptor of field `f` in force. -/
def Issue.view (e : Issue) (s : State) (drain : Bool) (f : Nat) : View :=
  e.img.viewIn e.shapes e.l (e.ins.dIdx f) (e.slot s drain f)
/-- A descriptor that no field names. -/
def Issue.desc (e : Issue) (di : Nat) : View := e.img.viewIn e.shapes e.l di none
/-- The logical Mill's own shape registers as the operation was issued with them. -/
def Issue.ownShapes (e : Issue) : NMap Nat := e.shapes.filter fun p => p.1 / 256 == e.l

/-- A stream waits on a Race (R93). -/
def State.blockOn (s : State) (e : Issue) (u : RaceUse) : State :=
  s.setStream e.k { s.stream e.k with stat := .onRace u.key u.prod, since := s.time.ns, latch := some e.ownShapes }
/-- A stream's operation waits for a bank or for pages: the shape registers it was issued with stand (R205). -/
def State.keepShapes (s : State) (e : Issue) : State := s.setStream e.k { s.stream e.k with latch := some e.ownShapes }

/-- A TCOPY whose ranges meet runs serially (R147). -/
def State.serialCopy (s : State) (e : Issue) : Bool :=
  let vs := e.view s false 0
  let vd := e.view s false 1
  !vs.isZero && !vd.isZero && rangesMeet vs.ranges vd.ranges

/-- Status of a Carder or Tenter whose operation waits at a step, or that is idle (R148, R177): an operation is whole when
it does not wait, so the busy states that software can meet are waits. -/
def State.engineBusy (s : State) (e : Issue) (step : Option Nat) : State :=
  if e.kind = 2 then
    { s with carders := NMap.set 0 s.carders e.m (match step with
      | some n => 2 ^ 31 + 2 ^ 30 + (e.ins.opcode - 0x20) % 64 * 2 ^ 24 + n % 2 ^ 24
      | none => 0) }
  else if e.kind = 5 then
    { s with tenters := NMap.set Tenter.init s.tenters e.owner (match step with
      | some n => ⟨true, s.serialCopy e, n⟩
      | none => Tenter.init) }
  else s

/-- A part of the planned turns of an operation: the bytes that its agent reads or writes, in a Shoe's scale lane or not. -/
structure Plan where
  ag : Agent
  w : Bool
  scale : Bool
  as : List Nat
deriving DecidableEq, Repr

/-- Present a part of a plan; a scale lane carries 64 B a turn (R62). -/
def State.presentPlan (s : State) (img : Image) (p : Plan) : State :=
  if p.scale then
    (distinct (p.as.map (· / 64))).foldl (fun t q => (img.accessTurns p.ag false (64 * q) 64).foldl (fun v u =>
      v.present (dueKey u.port u.code true) ⟨p.ag.stream img, u.n, u.n, 16⟩) t) s
  else s.presentAll img p.ag p.w p.as

/-- Turns of a stream that wait under a key. -/
def State.dueOf (s : State) (k key : Nat) : Nat := dueTurns ((NMap.get [] s.due key).filter fun d => d.key == k)
/-- An operation with planned turns presents exactly those: an access where it made one, a pass at each turn that its run-time
shape leaves over (R206). `s` is the state before the operation, `t` the one after it. -/
def State.replan (s t : State) (img : Image) (k : Nat) (ps : List Plan) : State :=
  let plan : NMap (List Due) := (ps.foldl (fun (u : State) p => u.presentPlan img p) { s with due := [] }).due
  plan.foldl (fun (u : State) p => p.2.foldl (fun (v : State) d =>
    v.presentRun p.1 { d with acc := min d.n (t.dueOf k p.1 - s.dueOf k p.1) }) u) { t with due := s.due }

/-- The stream waits for ever at a port that serves nobody: its operation has no effect (R200, R211). -/
def State.waitAtPort (s : State) (e : Issue) (p : Nat × Nat) : State :=
  s.setStream e.k { s.stream e.k with stat := .atPort p.1 p.2, since := s.time.ns, latch := some e.ownShapes }

/-- An operation whose elements are done publishes and releases its slots, and the stream moves on. -/
def State.engineDone (s : State) (e : Issue) (us : List RaceUse) : State := ((us.foldl State.raceDone s).engineBusy e none).advance e.k
/-- Run an engine operation: it blocks on the first Race that is not ready; else it is done whole, with its presentations, which
`plan` gives for one whose turns are planned. -/
def State.planned (s : State) (e : Issue) (drain : Bool) (fields : List Nat) (plan : Option (List Plan)) (body : State → Out) : State :=
  let us := e.races drain fields
  match us.filter s.raceBlocked with
  | u :: _ => (s.engineBusy e (some 0)).blockOn e u
  | [] => match body s with
    | .wait ps n => ((s.engineBusy e (some n)).keepShapes e).touch ps
    | .stop t => t
    | .go t =>
      let u := match plan with
        | some ps => s.replan t e.img e.k ps
        | none => t
      match u.stalledTurn e.img e.k with
      | some p => (s.engineBusy e (some 0)).waitAtPort e p
      | none => u.engineDone e us
/-- One whose turns are those of the accesses it makes (R206). -/
def State.engine (s : State) (e : Issue) (drain : Bool) (fields : List Nat) (body : State → Out) : State :=
  s.planned e drain fields none body

/-- The bytes of elements and of block scales at indices. -/
def View.elemBytes (v : View) (is : List Ix) : List Nat :=
  distinct (is.flatMap fun i => let x := v.elem i; (List.range ((x.2.1 + v.w + 7) / 8)).map (x.1 + ·))
def View.scaleBytes (v : View) (is : List Ix) : List Nat := if v.blocked then distinct (is.map fun i => (v.scale i).1) else []
/-- Planned turns of an access to a view at indices: a Shoe reads scales in its scale lane (R62). -/
def View.plan (v : View) (ag : Agent) (w : Bool) (is : List Ix) : List Plan := match ag with
  | .shoe _ _ => [⟨ag, w, false, v.elemBytes is⟩, ⟨ag, w, true, v.scaleBytes is⟩]
  | _ => [⟨ag, w, false, distinct (v.elemBytes is ++ v.scaleBytes is)⟩]
/-- All elements of a view. -/
def View.allIx (v : View) : List Ix := (List.range v.count).map v.nth
/-- The operation with its planned shape (R206). -/
def Issue.atPlan (e : Issue) : Issue := { e with shapes := [] }

/-! ### NOP, LOOP, TURN_PASS, SHAPE_SET -/

/-- NOP (R204). -/
def execNop (sid : Sid) (s : State) : Host.Outcome State Fault Refusal :=
  match s.issue sid.owner sid.kind 0x00 with
  | some e => done (s.advance e.k)
  | none => done s

/-- LOOP: the next b instructions run n times (R204). -/
def State.beginLoop (s : State) (e : Issue) : State :=
  let t := s.stream e.k
  s.setStream e.k { t with pc := t.pc + 1, loops := ⟨t.pc + 1, t.pc + 1 + e.ins.op 47 32, e.ins.op 31 0 - 1⟩ :: t.loops }
def execLoop (sid : Sid) (s : State) : Host.Outcome State Fault Refusal :=
  match s.issue sid.owner sid.kind 0x01 with
  | some e => done (s.beginLoop e)
  | none => done s

/-- TURN_PASS presents n passes at a port for a holder (R84, R201, R204). -/
def State.turnPass (s : State) (e : Issue) : State :=
  let t := s.presentRun (dueKey (e.ins.op 15 0) (e.ins.op 51 48) false) ⟨e.k, e.ins.op 47 16, 0, 16⟩
  match t.stalledTurn e.img e.k with
  | some p => s.waitAtPort e p
  | none => t.advance e.k
def execTurnPass (sid : Sid) (s : State) : Host.Outcome State Fault Refusal :=
  match s.issue sid.owner sid.kind 0x04 with
  | some e => done (s.turnPass e)
  | none => done s

/-- Write a shape register of a logical Mill (R205). -/
def State.setShape (s : State) (l r v : Nat) : State :=
  { s with shapes := NMap.set 0xFFFFFFFF s.shapes (256 * l + r % 256) v }

/-- SHAPE_SET, by a scalar or Carder stream (R204, R205). -/
def execShapeSet (sid : Sid) (s : State) : Host.Outcome State Fault Refusal :=
  match s.issue sid.owner sid.kind 0x05 with
  | some e => if e.kind = 2 ∨ e.kind = 4 then done ((s.setShape e.l (e.ins.op 7 0) (e.ins.op 39 8)).advance e.k) else done s
  | none => done s

/-! ### Padding (R201, R202) -/

/-- Number of the last segment of the part that runs: the prologue ends before CYCLE_START, or at the last segment for
a port with no cycle (R200). -/
def PortRec.lastSeg (r : PortRec) (p : PortPos) : Nat :=
  if p.cycle ∨ !r.hasCycle then r.segs.length else r.cycleStart

/-- The cycle of an admitted step begins, with the holders that have padded for it already. -/
def PortPos.beginCycle (r : PortRec) (p : PortPos) : PortPos :=
  { p with seg := r.cycleStart, entry := (((r.seg r.cycleStart).map (·.first)).getD 0), rep := 0, running := true, cycle := true
           ended := false, stopped := false, waiting := 0, held := 0, padded := p.next.getD [], next := none }
/-- The end of the prologue or of the cycle; the cycle of a step that has been admitted follows. -/
def PortPos.finish (r : PortRec) (p : PortPos) : PortPos :=
  if p.next.isSome then p.beginCycle r
  else
    let g := if r.hasCycle then r.cycleStart else 0
    { p with seg := g, entry := (((r.seg g).map (·.first)).getD 0), rep := 0, ended := true, stopped := !r.hasCycle, waiting := 0
             held := 0, padded := [] }

/-- Go to the next segment, or to the end. -/
def PortPos.leaveSeg (r : PortRec) (p : PortPos) : PortPos :=
  if r.lastSeg p ≤ p.seg + 1 then p.finish r
  else match r.seg (p.seg + 1) with
    | some g => { p with seg := p.seg + 1, entry := g.first, rep := 0 }
    | none => p.finish r

/-- An open segment ends as soon as every holder it names has padded (R201). -/
def PortPos.settle (r : PortRec) : Nat → PortPos → PortPos
  | 0, p => p
  | n + 1, p =>
    if p.ended ∨ !p.running then p
    else match r.seg p.seg with
      | none => p
      | some g =>
        if g.rep = 0 ∧ ((r.segHolders g).all fun h => p.padded.contains h || freeHolder (r.port / 4096) h) = true then
          PortPos.settle r n (p.leaveSeg r)
        else p

/-- A holder pads at a port for the part that runs, or for the cycle that is to follow it. -/
def PortPos.pad (r : PortRec) (hs : List Nat) (p : PortPos) : PortPos :=
  if p.running ∧ !p.ended then
    match p.next with
    | some xs => { p with next := some (xs ++ hs).eraseDups }
    | none => PortPos.settle r 17 { p with padded := (p.padded ++ hs).eraseDups }
  else p

/-- A step is admitted: the cycle begins, or follows the part that the port has not finished (R200). -/
def PortPos.stepAdmitted (r : PortRec) (p : PortPos) : PortPos :=
  if p.running ∧ !p.ended then { p with next := some [] } else PortPos.settle r 17 (p.beginCycle r)

def State.setPortPos (s : State) (n : Nat) (p : PortPos) : State := { s with ports := NMap.set PortPos.init s.ports n p }

/-- Pad holders at one port. -/
def State.padPort (s : State) (img : Image) (n : Nat) (hs : List Nat) : State :=
  match img.port n with
  | none => s
  | some r => if hs.isEmpty then s else s.setPortPos n ((s.portPos n).pad r hs)

/-- Every Tenter stream of the image waits for admission. -/
def State.tentersEnded (s : State) (img : Image) : Bool :=
  img.floors.all fun f => (s.stream (8 * f + 5)).stat == .stepEnd

/-- The holders that a stream drives pad (R201, R202). Code 3 of a vertical port is shared by all Tenters and pads with
the last of them (log 28). -/
def State.padStream (s : State) (img : Image) (owner kind : Nat) : State :=
  if kind = 5 then
    let t := ((List.range 144).filter fun l => floorOf (img.phys l) == owner).foldl (fun u l => u.padPort img (0x1000 + l) [7]) s
    if t.tentersEnded img then (List.range 144).foldl (fun u l => u.padPort img (0x3000 + l) [3]) t else t
  else [1, 2, 3].foldl (fun u c => u.padPort img (c * 4096 + owner) (padCodes kind c)) s

/-- The step markers that a stream sends behind its requests: a flit at every link to its targets (R202). -/
def State.sendMarkers (s : State) (e : Issue) : State :=
  ((e.img.sends e.rc).filter fun x => decide (4 ≤ x.1 / 4096)).foldl (fun t x =>
    t.present (dueKey x.1 x.2 false) ⟨noStream, 1, 0, 16⟩) s
/-- STEP_END: the stream waits for admission, sends its step markers, and everything it drives pads (R201-R203). -/
def State.stepEndStream (s : State) (e : Issue) : State :=
  let t := s.stream e.k
  ((s.setStream e.k { t with stat := .stepEnd, pc := e.rc.body, loops := [], since := s.time.ns }).sendMarkers e).padStream
    e.img e.owner e.kind
def execStepEnd (sid : Sid) (s : State) : Host.Outcome State Fault Refusal :=
  match s.issue sid.owner sid.kind 0x02 with
  | some e => done (s.stepEndStream e)
  | none => done s

/-! ### Weirs -/

/-- Waits on pages of the loss record that a snapshot still protects: the runtime writes there at a close of the forward gate, and an
entry into the gate waits for them (R285, R289, R308; log 39). -/
def State.lossPages (s : State) (img : Image) (w : Nat) : List PageWait :=
  if img.hasRt && decide (img.weirOf s.ctx.table img.rtFwdWeir = some w) then s.runtimeWaits img.rtLoss (8 * img.rtM) else []

/-- WEIR (R215): the entry is counted, held or faulted; in WAIT form the stream issues nothing until its release. -/
def State.enterWeir (s : State) (e : Issue) : State :=
  match e.img.weirOf s.ctx.table (e.ins.op 15 0) with
  | none => s
  | some w => match e.img.weirIndex w e.owner e.kind with
    | none => s
    | some i =>
      let wait := !e.ins.flag 0
      let t := (s.stream e.k).next
      let u := s.setStream e.k (if wait then { t with stat := .atWeir w, since := s.time.ns } else t)
      match s.lossPages e.img w with
      | [] => u.weirEnter e.img w i wait
      | ps => s.touch ps
def execWeir (sid : Sid) (s : State) : Host.Outcome State Fault Refusal :=
  match s.issue sid.owner sid.kind 0x03 with
  | some e => done (s.enterWeir e)
  | none => done s

/-- A release arrives at a WAIT stream: it resumes, and its Floor stops lending (R215, R229). -/
def State.releaseStream (s : State) (img : Image) (owner kind w : Nat) : State :=
  if s.weirReleased img w owner kind then
    let t := s.takeRelease img w owner kind
    let k := 8 * owner + kind
    (t.setStream k { t.stream k with stat := .running }).stopLending (img.streamFloor k)
  else s
def execWeirRelease (sid : Sid) (s : State) : Host.Outcome State Fault Refusal :=
  match s.image, (s.stream (sidKey sid)).stat with
  | some img, .atWeir w => done (s.releaseStream img sid.owner sid.kind w)
  | _, _ => done s

/-- RACE_UNBLOCK: the pointer that a blocked stream waits on has moved, and the stream presents again (R93). -/
def State.unblock (s : State) (img : Image) (k key : Nat) (prod : Bool) : State :=
  match img.race (key / 64) (key % 64) with
  | none => s
  | some d =>
    if s.raceBlocked ⟨key, key / 64, key % 64, d, prod⟩ then s
    else s.setStream k { s.stream k with stat := .running }
def execRaceUnblock (sid : Sid) (s : State) : Host.Outcome State Fault Refusal :=
  match s.image, (s.stream (sidKey sid)).stat with
  | some img, .onRace key prod => done (s.unblock img (sidKey sid) key prod)
  | _, _ => done s

end Sys2Proof.Machine
end

