-- ==== Sys2Proof/Machine/Hopper.lean ====
section
/-! DEFINITION. Hoppers and ports: bank power, operations at the memory, the execution of a port entry and step markers (R81-R89, R92, R93, R99-R101, R107, R200-R202). -/
namespace Sys2Proof.Machine

/-! ### Bank power (R99, R100) -/

def State.setBank (s : State) (m b : Nat) (x : Bank) : State := { s with banks := NMap.set Bank.init s.banks (16 * m + b) x }
/-- The bytes of a bank as zero words with valid checks. -/
def State.zeroBank (s : State) (m b : Nat) : State := s.zeroRange (hopperBase m + b * 0x20000) 0x20000

/-- BANK_OFF: ON goes to CLOSING; a waking bank becomes ON and closes in the next beat; a closing bank that is to wake again
will close after that. -/
def Bank.offed (x : Bank) : Bank := match x.st with
  | .on => { x with st := .closing }
  | .waking => { x with closeNext := true }
  | .closing => { x with closeNext := x.wakeNext }
  | .off => x
/-- BANK_ON: OFF goes to WAKING; a closing bank wakes when it is OFF, and so does a bank that is to close. -/
def Bank.oned (x : Bank) : Bank := match x.st with
  | .off => { x with st := .waking }
  | .closing => { x with wakeNext := true, closeNext := false }
  | .waking => { x with wakeNext := x.closeNext }
  | .on => { x with wakeNext := x.closeNext }
/-- The beat after the one in which a bank with a BANK_OFF behind it became ON: it moves to CLOSING (R99). -/
def Bank.beat (x : Bank) : Bank := if x.st = .on ∧ x.closeNext = true then { x with st := .closing, closeNext := false } else x

/-- A scalar-core instruction acts on a bank of its own Mill while the context runs. -/
def State.bankOp (s : State) (l b : Nat) (f : Bank → Bank) : State := match s.image with
  | none => s
  | some img => if s.ctx.active then s.setBank (img.phys l) b (f (s.bank (img.phys l) b)) else s
/-- BANK_OFF (R99). -/
def execBankOff (mill : Fin 144) (bank : Fin 16) (s : State) : Host.Outcome State Fault Refusal :=
  done (s.bankOp mill.val bank.val Bank.offed)
/-- BANK_ON (R99). -/
def execBankOn (mill : Fin 144) (bank : Fin 16) (s : State) : Host.Outcome State Fault Refusal :=
  done (s.bankOp mill.val bank.val Bank.oned)

/-- A waking bank has woken and zeroed its rows: it is ON, and accesses that waited go ahead in this beat (R99, R101). -/
def execBankWakeDone (mill : Fin 152) (bank : Fin 16) (s : State) : Host.Outcome State Fault Refusal :=
  let x := s.bank mill.val bank.val
  if x.st = .waking then done ((s.zeroBank mill.val bank.val).setBank mill.val bank.val { x with st := .on }) else done s
/-- Writes to a bank that are accepted and not yet in their row (R100). -/
def State.bankBusy (s : State) (m b : Nat) : Bool := match s.image with
  | some img => decide (0 < s.inflight img m b)
  | none => false
/-- A closing bank's in-flight writes have landed: it is OFF with its contents lost, and wakes if BANK_ON came meanwhile. A bank
that is ON with a BANK_OFF behind it has closed in the beat before (R99, R100). -/
def execBankCloseDone (mill : Fin 152) (bank : Fin 16) (s : State) : Host.Outcome State Fault Refusal :=
  let x := (s.bank mill.val bank.val).beat
  if x.st = .closing ∧ s.bankBusy mill.val bank.val = false then
    done ((s.zeroBank mill.val bank.val).setBank mill.val bank.val
      { x with st := if x.wakeNext then .waking else .off, wakeNext := false })
  else done s
/-- A beat of a Mill's Hopper is over. -/
def State.banksBeat (s : State) (m : Nat) : State :=
  { s with banks := s.banks.map fun p => if p.1 / 16 = m then (p.1, p.2.beat) else p }

/-! ### Operations at the memory (R88, R89, R101) -/

/-- Compare-and-swap at a data address: the old value, and the state with the new one if they were equal. -/
def State.cas (s : State) (img : Image) (ag : Agent) (group : Option Nat) (m a : Nat) (expected new : Nat) : Out × Nat :=
  if (s.deny img ag (s.xlat img a)).isSome then (s.fetch img ag group true [a], 0)
  else
    let old := s.fabNum img ag a 8
    ((s.fetch img ag group true ((List.range 8).map (a + ·))).andThen fun t =>
      if old = expected then t.deposit img ag group [⟨a, 0, 64, new⟩] else .go (t.count (cHopper m 7)), old)

/-- Count-equal over the 512 B line at a data address. -/
def State.countEq (s : State) (img : Image) (ag : Agent) (group : Option Nat) (a width value : Nat) : Out × Nat :=
  if (s.deny img ag (s.xlat img a)).isSome then (s.fetch img ag group true [a], 0)
  else (s.fetch img ag group true ((List.range 512).map (a + ·)),
    ((List.range (512 / width)).filter fun i => s.fabNum img ag (a + width * i) width == value % 256 ^ width).length)

/-- The agent behind a requester code of a Mill's Hopper ports. -/
def hopperAgent (m code : Nat) : Agent :=
  if code = 1 ∨ code = 2 then .shoe m (code == 2) else if code = 3 ∨ code = 4 then .drain m (code == 4)
  else if code = 7 then .tenter (floorOf m) else .mill m code
/-- The agent behind a requester code of a vertical port (R107). -/
def pondAgent (m code : Nat) : Agent :=
  if code = 3 then .tenter (floorOf m) else if code = 4 then .wheel else if code = 5 then .eth
  else if code = 6 then .snapshot else if code = 1 then .mill m 5 else .mill m 6

/-- Codes that may perform operations at the memory (R83). -/
def memOpCode (code : Nat) : Bool := code == 6 || code == 8 || code == 0xA

/-- The state after one part of an operation; a part that waits leaves it as it was. -/
def State.settleOut (s : State) : Out → State
  | .go t => t
  | .stop t => t
  | .wait ps _ => s.touch ps

/-- COMPARE_AND_SWAP at an 8-byte-aligned word of a Hopper, in its narrow turn (R89). -/
def execCompareAndSwap (mill : Fin 152) (req : BitVec 4) (off : BitVec 21) (expected new : Word64) (s : State) :
    Host.Outcome State Fault Refusal :=
  match s.image with
  | none => done s
  | some img =>
    if s.ctx.active ∧ memOpCode req.toNat ∧ off.toNat % 8 = 0 then
      let r := s.cas img (hopperAgent mill.val req.toNat) none mill.val (hopperBase mill.val + off.toNat) expected.toNat new.toNat
      match r.1 with
      | .go t => done (State.moved { t with due := s.due } |>.emit (.returned (0x2000 + ((img.logical mill.val).getD 0)) 4 (leBytes 8 r.2)))
      | o => done (s.settleOut o)
    else done s

/-- COUNT_EQUAL over a line of a Hopper, in its narrow turn; `width` is log2 of the element bytes (R88). -/
def execCountEqual (mill : Fin 152) (req : BitVec 4) (off : BitVec 21) (width : Fin 4) (value : Word64) (s : State) :
    Host.Outcome State Fault Refusal :=
  match s.image with
  | none => done s
  | some img =>
    if s.ctx.active ∧ memOpCode req.toNat ∧ off.toNat % 512 = 0 then
      let r := s.countEq img (hopperAgent mill.val req.toNat) none (hopperBase mill.val + off.toNat) (2 ^ width.val) value.toNat
      match r.1 with
      | .go t => done (State.moved { t with due := s.due } |>.emit (.returned (0x2000 + ((img.logical mill.val).getD 0)) 4 (leBytes 2 r.2)))
      | o => done (s.settleOut o)
    else done s

/-! ### Port entries (R84-R87, R107, R200, R201) -/

/-- A turn of an entry: port, lane, holder code, and what the holder presents. -/
structure Turn where
  port : Nat
  lane : Nat
  holder : Nat
  acc : Access
  race : Option RaceUse
  last : Bool
  group : Option Nat
deriving DecidableEq, Repr

/-- Bytes that an access reads or writes. -/
def accRange : Access → Option (Nat × Nat × Bool)
  | .read a n => some (a, n, false)
  | .write a d => some (a, d.length, true)
  | .cas a _ _ => some (a, 8, true)
  | .countEq a _ _ => some (a, 512, false)
  | _ => none
def accMoves : Access → Bool
  | .pass => false
  | .racePass => false
  | _ => true

/-- A row of a Hopper or slice that holds an address, as bank and row number of 512 B; none elsewhere (R80, R106). -/
def rowOf (a : Nat) : Option (Nat × Nat) := match regionOf a with
  | .hopper _ off => some (off / 0x20000, off / 512)
  | .slice _ off => some (off / 512 % 16, off / 512)
  | _ => none

/-- Rows that an access touches. -/
def accRows (x : Access) : List (Nat × Nat) := match accRange x with
  | none => []
  | some (a, n, _) => ((List.range (if n = 0 then 0 else (a + n - 1) / 512 - a / 512 + 1)).filterMap fun i => rowOf ((a / 512 + i) * 512))

/-- The beat of the entry in which a row is served: rows of one bank are served in order of first access (R85). -/
def rowBeat (rows : List (Nat × Nat)) (r : Nat × Nat) : Nat :=
  (((rows.eraseDups).filter fun x => x.1 == r.1).takeWhile fun x => x != r).length

/-- Rows in which two writes of the entry touch the same byte. -/
def overlapRows : List Access → List (Nat × Nat)
  | [] => []
  | x :: xs =>
    (match accRange x with
      | some (a, n, true) => (xs.filterMap fun y => match accRange y with
          | some (b, k, true) => if max a b < min (a + n) (b + k) then rowOf (max a b) else none
          | _ => none)
      | _ => []) ++ overlapRows xs

/-- A narrow access in the beat of a wide entry waits when that beat uses another row of its bank (R86). -/
def deferred (rows : List (Nat × Nat)) (x : Access) : Bool := (accRows x).any fun q => match rows.find? fun r => r.1 == q.1 with
  | some r => r != q
  | none => false
/-- BANK_CONFLICT, NARROW_DEFER and WRITE_OVERLAP of a wide entry of a Hopper or of a slice (R85-R87, R107); the counters are
those of the Mill. `nar` is the narrow access that meets the entry. A row that a fixed rule resolves counts as it stands
(DESIGN CHOICE, log 64). -/
def State.countRows (s : State) (m : Nat) (nar : List Access) (xs : List Access) : State :=
  let rows := (xs.flatMap accRows).eraseDups
  let t := if rows.any fun r => 0 < rowBeat rows r then s.count (cHopper m 0) else s
  let u := if nar.any (deferred rows) then t.count (cHopper m 1) else t
  u.countN (cHopper m 2) (distinct ((overlapRows (nar ++ xs)).map (rowBeat rows))).length

/-- Data lands at its byte addresses in order. -/
def putsOf (a : Nat) : List Byte → List Put
  | [] => []
  | b :: bs => ⟨a, 0, 8, b.toNat⟩ :: putsOf (a + 1) bs

/-- Perform the read side of the turns; every read sees the rows as they stood before the entry's writes (R87). -/
def State.turnReads (s : State) (img : Image) (m : Nat) (ag : Nat → Agent) : List Turn → Out
  | [] => .go s
  | t :: ts => match t.acc with
    | .read a n =>
      ((s.fetch img (ag t.holder) t.group true ((List.range n).map (a + ·))).andThen fun u =>
        .go (u.emit (.returned t.port t.lane ((List.range n).map fun i => u.fabByte img (ag t.holder) (a + i))))).andThen fun u =>
          u.turnReads img m ag ts
    | .countEq a w v =>
      let r := s.countEq img (ag t.holder) t.group a w v.toNat
      (r.1.andThen fun u => .go (u.emit (.returned t.port t.lane (leBytes 2 r.2)))).andThen fun u => u.turnReads img m ag ts
    | _ => s.turnReads img m ag ts

/-- Perform the writes of the turns in order: the narrow slot's first, then by lane (R87). -/
def State.turnWrites (s : State) (img : Image) (m : Nat) (ag : Nat → Agent) : List Turn → Out
  | [] => .go s
  | t :: ts => match t.acc with
    | .write a d => (s.deposit img (ag t.holder) t.group (putsOf a d)).andThen fun u => u.turnWrites img m ag ts
    | .cas a e n =>
      let r := s.cas img (ag t.holder) t.group m a e.toNat n.toNat
      (r.1.andThen fun u => .go (u.emit (.returned t.port t.lane (leBytes 8 r.2)))).andThen fun u => u.turnWrites img m ag ts
    | _ => s.turnWrites img m ag ts

/-- Pointers after the entry: a slot is held from its first access, and published or released with its last (R92). -/
def State.turnRaces (s : State) : List Turn → State
  | [] => s
  | t :: ts =>
    match t.race with
    | none => s.turnRaces ts
    | some u =>
      if !accMoves t.acc then s.turnRaces ts
      else if t.last then (s.raceDone u).turnRaces ts
      else
        let x := s.raceSt u.key
        let y := if u.prod then { x with prodHeld := true } else { x with consHeld := true }
        { s with races := NMap.set RaceSt.init s.races u.key y }.turnRaces ts

/-- A blocked holder passes, and the passed turn counts (R93). -/
def State.turnStall (s : State) (m : Nat) (t : Turn) : State := match t.race, t.acc with
  | some u, .racePass => s.count (cHopper m (if u.prod then 3 else 4))
  | _, _ => s

/-- What a holder may present in a lane of a port: the columns of R83 and R107, and the views of R81: 128 B quarters in the
quarter lanes, up to 64 B of scales in a scale lane, naturally aligned 1, 2, 4 or 8 bytes in the narrow slot. -/
def presOk (cls : Nat) (p : Pres) : Bool :=
  let h := p.holder.toNat
  let quarter := fun (a n : Nat) => a % 128 == 0 && n == 128
  let narrow := fun (a n : Nat) => ([1, 2, 4, 8] : List Nat).contains n && a % n == 0
  let mem := cls == 1 || cls == 2
  match p.acc with
  | .pass => true
  | .racePass => true
  | .read a n =>
    (decide (p.lane < 4) && quarter a n && (if cls = 1 then ([1, 2, 5, 6, 7, 8] : List Nat).contains h else cls == 3 && h != 5)) ||
      (decide (5 ≤ p.lane) && cls == 1 && h == p.lane - 4 && decide (a / 128 = (a + n - 1) / 128) && decide (n ≤ 64)) ||
      (p.lane == 4 && mem && memOpCode h && narrow a n)
  | .write a d =>
    (decide (p.lane < 4) && quarter a d.length && (if cls = 1 then decide (3 ≤ h) else cls == 3)) ||
      (p.lane == 4 && mem && memOpCode h && narrow a d.length)
  | .cas a _ _ => p.lane == 4 && mem && memOpCode h && a % 8 == 0
  | .countEq a w _ => p.lane == 4 && mem && memOpCode h && a % 512 == 0 && ([1, 2, 4, 8] : List Nat).contains w

/-- What a named holder presents: a padding holder passes; a holder whose slot is not yet held and whose Race is
blocked passes (R93, R201). -/
def State.turnOf (s : State) (img : Image) (port m : Nat) (padded : List Nat) (pres : List Pres) (lh : Nat × Nat) : Turn :=
  match pres.filter fun p => p.lane == lh.1 && p.holder.toNat == lh.2 with
  | [] => ⟨port, lh.1, lh.2, .pass, none, false, none⟩
  | p :: _ =>
    if padded.contains lh.2 then ⟨port, lh.1, lh.2, .pass, none, false, none⟩
    else
      let r := p.race.map fun n => if port / 4096 = 3 then 32 + n % 16 else n % 32
      let use := match r with
        | none => none
        | some r => match img.race m r with
          | none => none
          | some d => raceUseOf m r lh.2 d
      let held := match use with
        | none => false
        | some u => if u.prod then (s.raceSt u.key).prodHeld else (s.raceSt u.key).consHeld
      let blocked := match use with
        | none => false
        | some u => s.raceBlocked u && !held
      ⟨port, lh.1, lh.2, if blocked then .racePass else if p.acc = .racePass then .pass else p.acc, use, p.last,
        p.group.map (·.toNat)⟩

/-- Every stream behind a holder is blocked on a Race or at its step end, and one is blocked: the holder passes (R93). The Race
that the first waits on, with true for its producer. -/
def State.holderBlocked (s : State) (img : Image) (port code : Nat) : Option (Nat × Bool) :=
  let xs := (img.holderStreams port code).map fun k => (s.stream k).stat
  let races := xs.filterMap fun x => match x with
    | .onRace key prod => some (key, prod)
    | _ => none
  if xs.all fun x => match x with
    | .onRace _ _ => true
    | .stepEnd => true
    | _ => false
  then races.head? else none

/-- How a lane of an entry comes to its turn: what waits there for the holder goes first, in order; a padding holder, one that
presents here, a free one and a scale lane whose Shoe has nothing for it are ready; a Race-blocked one passes, and that counts at
the Race's Mill (R84, R93, R201). None: the port waits for the holder. True when an access that waited is executed. -/
def State.fillLane (s : State) (img : Image) (r : PortRec) (padded : List Nat) (pres : List Pres) (lanes : List (Nat × Nat))
    (lh : Nat × Nat) : Option (State × Bool) :=
  let key := dueKey r.port lh.2 (decide (5 ≤ lh.1))
  if padded.contains lh.2 ∨ (pres.any fun p => p.lane == lh.1 && p.holder.toNat == lh.2) = true then some (s, false)
  else match takeDue (NMap.get [] s.due key) with
    | some (ds, acc) => some ({ s with due := NMap.set [] s.due key ds }, acc)
    | none =>
      if freeHolder (r.port / 4096) lh.2 = true ∨ (5 ≤ lh.1 ∧ lanes.any (fun x => decide (x.1 < 4) && x.2 == lh.2) = true) then
        some (s, false)
      else match s.holderBlocked img r.port lh.2 with
        | some (q, prod) => some (s.count (cHopper (q / 64) (if prod then 3 else 4)), false)
        | none => none
/-- The lanes of an entry in order: the state and whether an access was executed, or the holder that the port waits for. -/
def State.fillLanes (s : State) (img : Image) (r : PortRec) (padded : List Nat) (pres : List Pres) (lanes : List (Nat × Nat)) :
    List (Nat × Nat) → Except Nat (State × Bool)
  | [] => .ok (s, false)
  | lh :: ls => match s.fillLane img r padded pres lanes lh with
    | none => .error lh.2
    | some (t, a) => match t.fillLanes img r padded pres lanes ls with
      | .error h => .error h
      | .ok (u, b) => .ok (u, a || b)

/-- Move a port past its entry. -/
def PortPos.step (r : PortRec) (p : PortPos) : PortPos :=
  match r.seg p.seg with
  | none => p
  | some g =>
    let q := { p with waiting := 0, held := 0 }
    if p.entry < g.last then { q with entry := p.entry + 1 }
    else if g.rep = 0 then { q with entry := g.first }
    else if p.rep + 1 < g.rep then { q with entry := g.first, rep := p.rep + 1 }
    else q.leaveSeg r

/-- A port has executed its entry: with an access, or only with passes (R227). -/
def State.stepPort (s : State) (r : PortRec) (any : Bool) : State :=
  let p := s.portPos r.port
  let q := PortPos.settle r 17 (p.step r)
  if any then (s.setPortPos r.port { q with progress := s.time.ns, passing := false }).moved
  else s.setPortPos r.port { q with passing := true }

/-- The narrow port of a Hopper and its entry's holder, when a narrow presentation meets the wide entry in its beat (R86). -/
def State.companion (s : State) (img : Image) (port : Nat) (pres : List Pres) : Option (PortRec × List (Nat × Nat)) :=
  if port / 4096 = 1 then
    match img.port (port + 4096) with
    | none => none
    | some r =>
      let p := s.portPos (port + 4096)
      let hs := entryHolders 2 (r.entries.getD p.entry 0)
      if p.running ∧ !p.ended ∧ (hs.any fun lh => pres.any fun x => x.lane == 4 && x.holder.toNat == lh.2 && !p.padded.contains lh.2) = true
      then some (r, hs) else none
  else none

/-- What the lanes of a port's entry do. -/
def State.laneTurns (f : State) (img : Image) (r : PortRec) (pres : List Pres) (named : List (Nat × Nat)) : List Turn :=
  named.map (f.turnOf img r.port (img.phys (r.port % 4096)) (f.portPos r.port).padded pres)
/-- The beat of an entry: Race stalls, then every read, then every write (R87). -/
def State.beatTurns (f : State) (img : Image) (m : Nat) (ag : Nat → Agent) (xs : List Turn) : Out :=
  ((xs.foldl (fun u x => u.turnStall m x) f).turnReads img m ag xs).andThen fun u => u.turnWrites img m ag xs
/-- The end of a beat: rows and Races are counted, the port and the narrow port beside it move on, and the banks of the Hopper
follow. -/
def State.endEntry (u : State) (r : PortRec) (m : Nat) (nar : Option PortRec) (ns ts : List Turn) (took : Bool) : State :=
  let cls := r.port / 4096
  let v := (if cls = 1 ∨ cls = 3 then u.countRows m (ns.map (·.acc)) (ts.map (·.acc)) else u).turnRaces (ns ++ ts)
  let w := v.stepPort r (took || ts.any fun x => accMoves x.acc)
  let x := match nar with
    | some q => w.stepPort q (ns.any fun x => accMoves x.acc)
    | none => w
  if cls = 1 ∨ cls = 2 then x.banksBeat m else x

/-- Execute the current entry of a port whose holders have presented. Accesses that engine operations have made already only
take their turns; those presented here are performed (log 40). -/
def State.runEntry (s : State) (img : Image) (r : PortRec) (ps : List Pres) : State :=
  let cls := r.port / 4096
  let m := img.phys (r.port % 4096)
  let p := s.portPos r.port
  let pres := ps.filter (presOk cls)
  let named := entryHolders cls (r.entries.getD p.entry 0)
  match s.fillLanes img r p.padded pres named named with
  | .error h => s.setPortPos r.port { p with waiting := h, held := 0 }
  | .ok (f, took) =>
    let nar := f.companion img r.port pres
    let ts := if 1 ≤ cls ∧ cls ≤ 3 then f.laneTurns img r pres named else []
    let ns := match nar with
      | some x => f.laneTurns img x.1 pres x.2
      | none => []
    match f.beatTurns img m (if cls = 3 then pondAgent m else hopperAgent m) (ns ++ ts) with
    | .wait pages _ => (s.touch pages).setPortPos r.port { p with waiting := 0, held := ((named.head?.map (·.2)).getD 0) }
    | .stop u => u
    | .go u => State.endEntry { u with due := f.due } r m (nar.map (·.1)) ns ts took

/-- PORT_ENTRY_EXECUTE (R84). -/
def execPortEntryExecute (port : BitVec 16) (pres : List Pres) (s : State) : Host.Outcome State Fault Refusal :=
  match s.image with
  | none => done s
  | some img => match img.port port.toNat with
    | none => done s
    | some r =>
      let p := s.portPos port.toNat
      if s.ctx.active ∧ p.running ∧ !p.ended ∧ !s.run.failed then done (s.runEntry img r pres) else done s

/-! ### Step markers (R202) -/

/-- Every source of a holder has delivered its marker: it is at its step end, its requests, which the marker follows, have been
performed, and the Wheel, where it is the source, has ended its step's work (R98, R202). -/
def State.markersIn (s : State) (img : Image) (port code : Nat) : Bool :=
  (NMap.get [] s.due (dueKey port code false)).isEmpty &&
    ((img.holderStreams port code).all fun k => (s.stream k).stat == .stepEnd) &&
    !(port / 4096 == 3 && code == 4 && s.wheel.active)
/-- STEP_MARKER: the marker of the last source of a holder has arrived, and the holder pads. -/
def execStepMarker (port : BitVec 16) (holder : BitVec 4) (s : State) : Host.Outcome State Fault Refusal :=
  match s.image with
  | none => done s
  | some img =>
    if s.ctx.active ∧ markerHolder (port.toNat / 4096) holder.toNat ∧ s.markersIn img port.toNat holder.toNat then
      done (s.padPort img port.toNat [holder.toNat])
    else done s

end Sys2Proof.Machine
end

