-- ==== Sys2Proof/Machine/Stone.lean ====
section
/-! DEFINITION. Stones: passes, drains, the Kettle, panels, predicates, masks and sparse operands (R39-R42, R55-R79, R138, R142-R144, R166-R169, R411). -/
namespace Sys2Proof.Machine

/-! ### Operand pairs (R39, R61) -/

/-- Width class of a format at a Stone: 0 T2, 1 four bits, 2 eight bits, 3 MXINT8, 4 BF16 or FP16, 5 FP32. -/
def stoneClass (f : Nat) : Nat :=
  if f = 0x0C then 0 else if f = 9 ∨ f = 0x0B then 1 else if 3 ≤ f ∧ f ≤ 8 then 2 else if f = 0x0A then 3
  else if f = 1 ∨ f = 2 then 4 else 5
/-- An accepted operand pair; a reserved format and UINT32 belong to none (R39). -/
def pairOk (a b : Nat) : Bool :=
  let x := min (stoneClass a) (stoneClass b)
  let y := max (stoneClass a) (stoneClass b)
  decide (a < 0x0D) && decide (b < 0x0D) &&
    ((x, y) ∈ [(0, 1), (1, 1), (0, 2), (1, 2), (2, 2), (3, 3), (0, 4), (1, 4), (2, 4), (4, 4), (5, 5)] : Bool)
/-- Reduction group G of a pair (R39). -/
def groupSize (a b : Nat) : Nat :=
  if 4 ≤ stoneClass a ∨ 4 ≤ stoneClass b then 1
  else if a = 0x0C ∨ b = 0x0C ∨ a = 0x0B ∨ b = 0x0B then 16 else 32
/-- Kpb of a pair in sixteenths (R61). -/
def kpb16 (a b : Nat) : Nat :=
  let x := min (stoneClass a) (stoneClass b)
  let y := max (stoneClass a) (stoneClass b)
  if y = 1 then (if x = 0 then 64 else 32)
  else if y = 5 then 1
  else if y = 4 then (if x = 4 then 4 else if x = 2 then 8 else 16)
  else 16

/-! ### Kettle (R66-R70, R127) -/

def kettleAt (m : Nat) (sideB : Bool) (slot : Nat) : Nat := ((m * 2 + b2n sideB) * 8 + slot) * 16384
/-- Values of a slot, row by row. -/
def State.kettleSlot (s : State) (m : Nat) (sideB : Bool) (slot : Nat) : NMap Nat :=
  (s.kettle.filter fun p => decide (kettleAt m sideB slot ≤ p.1 ∧ p.1 < kettleAt m sideB slot + 16384)).map fun p =>
    (p.1 - kettleAt m sideB slot, p.2)
/-- Write a tile into its slot, with valid checks. -/
def State.kettleWrite (s : State) (m : Nat) (sideB : Bool) (slot : Nat) (v : NMap Nat) : State :=
  { s with
    kettle := v.foldl (fun k p => NMap.set 0 k (kettleAt m sideB slot + p.1) p.2) (NMap.clearRange s.kettle (kettleAt m sideB slot) 16384)
    kettleSyn := NMap.clearRange s.kettleSyn (kettleAt m sideB slot / 2) 8192 }

/-- The 64-bit word of a pair of adjacent elements, as stored. -/
def State.kettlePair (s : State) (q : Nat) : Nat := NMap.get 0 s.kettle (2 * q) + 2 ^ 32 * NMap.get 0 s.kettle (2 * q + 1)
/-- Verify one stored pair: a correction counts and repairs; an uncorrectable pair counts and is logged with the Mill in
bits [7:0] and the Stone's side in bit 8 of its address (R133). -/
def State.kettleVerify (s : State) (m q : Nat) : State × Bool :=
  match eccOf (s.kettlePair q) (NMap.get (0 : Byte) s.kettleSyn q).toNat with
  | .ok => (s, false)
  | .ce d => ({ s.count (cMill m 4) with
      kettle := NMap.set 0 (NMap.set 0 s.kettle (2 * q) (d % 2 ^ 32)) (2 * q + 1) (d / 2 ^ 32)
      kettleSyn := NMap.set 0 s.kettleSyn q 0 }, false)
  | .ue => ((s.count (cMill m 5)).logUe 3 (m + 256 * (q / 65536 % 2)), true)
/-- Read a slot: every pair is verified, with the outcome of its errors (R127, R130, R318). -/
def State.kettleRead (s : State) (m : Nat) (sideB : Bool) (slot : Nat) (group : Option Nat) : Out :=
  let lo := kettleAt m sideB slot / 2
  let qs := (s.kettleSyn.filter fun p => decide (lo ≤ p.1 ∧ p.1 < lo + 8192)).map (·.1)
  let r := qs.foldl (fun (a : State × Nat) q => let v := a.1.kettleVerify m q; (v.1, a.2 + b2n v.2)) (s, 0)
  outOf s ((List.range r.2).foldl (fun t _ => (t.millError m (t.classOf group)).classOutcome (t.classOf group)) r.1)

/-- A live tile by tag. -/
def Stream.tile (t : Stream) (tag : Nat) : Option Tile := (t.tiles.filter fun x => x.tag == tag).head?
/-- The lowest free slot (R67). -/
def Stream.freeTile (t : Stream) : Nat := ((List.range 8).filter fun k => !t.tiles.any fun x => x.slot == k).headD 0

/-- The tile in the working accumulators is written to its slot (R68, R70). -/
def State.flushTile (s : State) (m k : Nat) (sideB : Bool) : State :=
  let t := s.stream k
  match t.work with
  | none => s
  | some w => match t.tile w with
    | none => s
    | some x => s.kettleWrite m sideB x.slot t.acc

/-- Bring a tile into the working accumulators: a switch when it is not there already. The outgoing tile moves to the shadow
accumulators and from there to its slot, and a tile that the shadow still holds needs no read (R68). -/
def State.switchTo (s : State) (m k : Nat) (sideB : Bool) (tag : Nat) : Out :=
  let t := s.stream k
  if t.work = some tag then .go s
  else
    let u := s.flushTile m k sideB
    match t.tile tag with
    | none => .go (u.setStream k { t with work := some tag, shadow := t.work, acc := [], shAcc := t.acc })
    | some x =>
      if t.shadow = some tag then .go (u.setStream k { t with work := some tag, shadow := t.work, acc := t.shAcc, shAcc := t.acc })
      else (u.kettleRead m sideB x.slot none).andThen fun v =>
        .go (v.setStream k { v.stream k with
          work := some tag, shadow := t.work, acc := v.kettleSlot m sideB x.slot, shAcc := t.acc })

/-! ### Positions of a pass (R138, R142, R143) -/

/-- K dimension of an operand: dimension 0 for a plain A, 1 for a plain B (R138). -/
def View.kDim (v : View) (isB : Bool) : Nat := if v.d.xpose = isB then 0 else 1
/-- Extent along M or N. -/
def View.extM (v : View) (isB : Bool) : Nat := v.ext.get (1 - v.kDim isB)
def View.extK (v : View) (isB : Bool) : Nat := v.ext.get (v.kDim isB)

/-- Blocks that a row list of `n` entries makes. -/
def blocksOf (n : Nat) : Nat := max 1 (cdiv n 128)
/-- i2 and i3 of a row block (R138). -/
def View.outer23 (v : View) (t blk : Nat) : Nat × Nat := (blk / t % max 1 v.ext.i2, blk / t / max 1 v.ext.i2)
/-- The index of an operand element. -/
def View.opIx (v : View) (isB : Bool) (io : Nat × Nat) (mi ki : Nat) : Ix :=
  if v.kDim isB = 0 then ⟨ki, mi, io.1, io.2⟩ else ⟨mi, ki, io.1, io.2⟩

/-- The M or N indices of the 128 rows of a block; none where the edge predicate or an explicit mask turns a row off. -/
def View.rowsOf (v : View) (isB : Bool) (blk : Nat) (mask : BitVec 128) : List (Option Nat) :=
  let lo := 128 * (blk % blocksOf (v.extM isB))
  (List.range 128).map fun i =>
    if mask.getLsbD i && (v.d.edgeOff || decide (lo + i < v.extM isB)) then some (lo + i) else none

/-- The row mask's byte for row `r` and the block mask's: bytes from the mask descriptor's BASE and from its SCALE_BASE, clamped
to the Race slot that the descriptor is read in (R74, R412, log 29). -/
def View.maskAt (mv : View) (r : Nat) : (Nat × Bool) × (Nat × Bool) :=
  (mv.byteAt (r / 8), ({ mv with base := mv.scaleBase } : View).byteAt (r / 1024))
/-- Computed rows of a masked weight-gradient product (R74): one bit for each row and for each block of 128 rows, low bit
first (log 29). -/
def State.maskedRows (s : State) (img : Image) (ag : Agent) (mv : View) (rows : Nat) : List Nat :=
  (List.range rows).filter fun r =>
    bitOf (s.fabByte img ag (mv.maskAt r).1.1).toNat (r % 8) && bitOf (s.fabByte img ag (mv.maskAt r).2.1).toNat (r / 128 % 8)
/-- Bytes of both masks: addresses, with true for each that is clamped to the slot. -/
def maskBytes (mv : View) (rows : Nat) : List (Nat × Bool) :=
  ((List.range (cdiv rows 8)).map fun i => (mv.maskAt (8 * i)).1) ++ (List.range (cdiv rows 1024)).map fun i => (mv.maskAt (1024 * i)).2
/-- Read both masks of a product. -/
def State.fetchMasks (s : State) (e : Issue) (mv : View) (rows : Nat) : Out :=
  let bs := maskBytes mv rows
  let c := (bs.filter (·.2)).length
  (if c = 0 then s else s.countN (cLayout e.m 0) c).fetch e.img (e.agent false) (some mv.d.group) true (bs.map (·.1))
/-- Rows of compacted block `blk` of a row list. -/
def compactRows (list : List Nat) (blk : Nat) (mask : BitVec 128) : List (Option Nat) :=
  let lo := 128 * (blk % blocksOf list.length)
  (List.range 128).map fun i => if mask.getLsbD i then list[lo + i]? else none

/-- One K position of a pass: absolute index, each operand's K index, and whether a sparse feed kept it. -/
structure KPos where
  k : Nat
  ka : Nat
  kb : Nat
  kept : Bool
deriving DecidableEq, Repr

/-- The operand's K index of an absolute K index (R138). -/
def Desc.kIndex (d : Desc) (k : Nat) : Nat := (k + 2 ^ 32 - d.koff % 2 ^ 32) % 2 ^ 32

/-- What a pass names (R59, R204). -/
structure PassOp where
  kLo : Nat
  kHi : Nat
  rowBlk : Nat
  colBlk : Nat
  tag : Nat
  clear : Bool
  panel : Nat
  sparsity : Nat
  sparseB : Bool
deriving DecidableEq, Repr

def PassOp.of (i : SInstr) : PassOp :=
  ⟨i.op 31 0, i.op 63 32, i.op 79 64, i.op 95 80, i.op 103 96, bitOf i.operands 104, i.op 107 105, i.op 110 108, bitOf i.operands 111⟩

/-- Values kept in each group of four: 2:4 keeps two, 1:4 one; 0 when the pass is not structured (R77). -/
def PassOp.kept (p : PassOp) : Nat := if p.sparsity = 1 ∨ p.sparsity = 3 then 2 else if p.sparsity = 2 ∨ p.sparsity = 4 then 1 else 0

/-- The K index of the sparse operand, whose values tensor holds the kept positions alone, by their rank in it, and of the other
operand, which the Carder has gathered in the order of its scan, for a kept index (R166, R167). -/
def feedPos (p : PassOp) (feed : List (Nat × Nat)) (k : Nat) : KPos :=
  match findIdx (fun x => x.1 == k) feed with
  | none => ⟨k, 0, 0, false⟩
  | some i =>
    let rank := (feed.getD i (0, 0)).2
    if p.sparseB then ⟨k, i, rank, true⟩ else ⟨k, rank, i, true⟩
/-- K positions of a pass; a position that a sparse feed leaves out contributes +0 as one that is off does (R167). -/
def kPositions (p : PassOp) (a b : Desc) (feed : List (Nat × Nat)) : List KPos :=
  (List.range (p.kHi - p.kLo)).map fun t =>
    if p.sparsity = 5 then feedPos p feed (p.kLo + t) else ⟨p.kLo + t, a.kIndex (p.kLo + t), b.kIndex (p.kLo + t), true⟩

/-- A K position is off: beyond the K extent of either operand (R142), or left out by a sparse feed (R167). -/
def kIsOff (p : PassOp) (va vb : View) (q : KPos) : Bool :=
  !q.kept || (!va.d.edgeOff && decide (va.extK false ≤ q.ka)) ||
    (!vb.d.edgeOff && decide ((if p.kept = 0 then vb.extK true else vb.extK true * (4 / p.kept)) ≤ q.kb))

/-! ### Elements of a pass -/

/-- An element as the Shoe delivers it: element code and scale code. -/
abbrev Code := Nat × Nat

/-- Read one operand element; its scale is taken at K index `kScale` (R166). -/
def State.opCode (s : State) (img : Image) (ag : Agent) (v : View) (isB : Bool) (io : Nat × Nat) (mi ki kScale : Nat) : Code :=
  (s.codeAt img ag v (v.clamp (v.opIx isB io mi ki)), s.scaleAt img ag v (v.clamp (v.opIx isB io mi kScale)))

/-- The packed position of a kept value: group of four, kept value `j`. -/
def keptIndex (kept ki j : Nat) : Nat := ki / 4 * kept + j
/-- The 2-bit position code of a kept value; without a positions tensor value `j` is at position `j` (log 29). -/
def State.keptPos (s : State) (img : Image) (ag : Agent) (pv : Option View) (io : Nat × Nat) (ni ki kept j : Nat) : Nat :=
  match pv with
  | none => j
  | some v => s.codeAt img ag v (v.clamp (v.opIx true io ni (keptIndex kept ki j)))
/-- The kept values of a group whose position code names a dense K index of the structured operand: none where it is pruned
(R77, R171). -/
def State.structCode (s : State) (img : Image) (ag : Agent) (v : View) (pv : Option View) (io : Nat × Nat) (kept ni ki : Nat) :
    List Code :=
  ((List.range kept).filter fun j => s.keptPos img ag pv io ni ki kept j == ki % 4).map fun j =>
    s.opCode img ag v true io ni (keptIndex kept ki j) ki

/-- What a Shoe delivers at one position: nothing where the row is off, else the operand's elements there: one, or those of a
structured operand, which has none at a pruned position. -/
abbrev Slot := Option (List Code)

/-- One side of a pass: the rows' elements over the K positions. Both operands of a sparse feed carry the scale of the absolute
block of K (R166, R169, log 35). -/
def State.sideCodes (s : State) (img : Image) (ag : Agent) (p : PassOp) (v : View) (pv : Option View) (isB : Bool) (io : Nat × Nat)
    (rows : List (Option Nat)) (ks : List KPos) : List (List Slot) :=
  rows.map fun r => ks.map fun q =>
    match r with
    | none => none
    | some mi =>
      let ki := if isB then q.kb else q.ka
      if !q.kept then some []
      else if isB ∧ 0 < p.kept then some (s.structCode img ag v pv io p.kept mi ki)
      else some [s.opCode img ag v isB io mi ki (if p.sparsity = 5 then v.d.kIndex q.k else ki)]

/-- Indices that one side reads. -/
def sideIx (p : PassOp) (v : View) (isB : Bool) (io : Nat × Nat) (rows : List (Option Nat)) (ks : List KPos) : List Ix :=
  rows.flatMap fun r => match r with
    | none => []
    | some mi => ks.flatMap fun q =>
      let ki := if isB then q.kb else q.ka
      if isB ∧ 0 < p.kept then (List.range p.kept).map fun j => v.opIx isB io mi (keptIndex p.kept ki j)
      else [v.opIx isB io mi ki]

/-! ### Accumulation (R40, R41, R56, R71) -/

/-- First absolute K index above `k` at which an operand starts a new block: the block that holds `k` ends at the next multiple
of its size of the operand's own K index, which is K − KOFF modulo 2^32 (R41, R138). -/
def nextBlock (d : Desc) (k kHi : Nat) : Nat :=
  let b := fmtBlock d.format
  if b = 0 then kHi else k + (b - d.kIndex k % b)
/-- Ends of the reduction groups of a pass, ascending (R40, R41). -/
def groupEnds (g : Nat) (a b : Desc) (kHi : Nat) : Nat → Nat → List Nat
  | 0, _ => []
  | n + 1, k =>
    if kHi ≤ k then []
    else
      let e := min (min ((k / g + 1) * g) (nextBlock a k kHi)) (min (nextBlock b k kHi) kHi)
      e :: groupEnds g a b kHi n e
/-- The group of an absolute K index: how many groups end at or before it. -/
def groupOf (ends : List Nat) (k : Nat) : Nat := (ends.filter fun e => decide (e ≤ k)).length

/-- A zero code: ±0 of a floating-point format, T2 0b00 or 0b10 (R71, R161); the integer formats have none. -/
def zeroCode (f code : Nat) : Bool := f != 0x0A && f != 0x0D && (decodeElem f code).1.isZero

/-- An operand term with its gating facts: value, zero code or zero block scale, non-finite. -/
structure Term where
  val : FV
  zero : Bool
  nonFinite : Bool
deriving DecidableEq, Repr

def termFact (f : Nat) (c : Code) : Term :=
  let t := (termOf f c.1 c.2).1
  ⟨t, zeroCode f c.1 || (decide (fmtBlock f ≠ 0) && (decodeScale f c.2).isZero), !t.isFinite⟩
/-- The products of a pass at one position, exact; true for each that is gated (R71). A position that is off contributes +0
and is gated; a pruned position enters no group register, and of values that share a position each enters it (R77). -/
def productsOf (x y : Option (List Term)) : List (FV × Bool) :=
  match x, y with
  | some as, some bs => as.flatMap fun a => bs.map fun b => (a.val.mul b.val, (a.zero || b.zero) && !a.nonFinite && !b.nonFinite)
  | _, _ => [(.zero false, true)]

/-- The exact sum of the products of one group; signed zeros add as IEEE 754 adds them (R71, R169). -/
def sumTerms : List FV → FV
  | [] => .zero false
  | x :: xs => xs.foldl FV.add x

/-- Accumulate one output element over the groups in order: value and saturations (R41, R47, R69). -/
def accumulate (acc : Nat) : List (List FV) → Nat × Nat
  | [] => (acc, 0)
  | g :: gs =>
    let r := round32 ((dec32 acc).add (sumTerms g))
    let t := accumulate r.1 gs
    (t.1, t.2 + b2n r.2)

/-- One output element: new value, saturations, gated products. -/
def cellOf (acc : Nat) (ids : List Nat) (n : Nat) (row col : List (Option (List Term))) : Nat × Nat × Nat :=
  let ps := (ids.zip (row.zip col)).flatMap fun p => (productsOf p.2.1 p.2.2).map fun q => (p.1, q)
  let groups := (List.range n).map fun g => (ps.filter fun p => p.1 == g).map fun p => p.2.1
  let r := accumulate acc groups
  (r.1, r.2, (ps.filter fun p => p.2.2).length)

/-- All 128 × 128 elements: values, saturations, gated products. -/
def tileOf (acc : NMap Nat) (ids : List Nat) (n : Nat) (rows cols : List (List (Option (List Term)))) : NMap Nat × Nat × Nat :=
  ((List.range 128).flatMap fun i => (List.range 128).map fun j => (i, j)).foldl (fun (a : NMap Nat × Nat × Nat) ij =>
    let key := 128 * ij.1 + ij.2
    let c := cellOf (NMap.get 0 a.1 key) ids n (rows.getD ij.1 []) (cols.getD ij.2 [])
    (NMap.set 0 a.1 key c.1, a.2.1 + c.2.1, a.2.2 + c.2.2)) (acc, 0, 0)

/-- Broadcast beats of a pass (R59, R77, R168). -/
def passBeats (p : PassOp) (fa fb delta kept : Nat) : Nat :=
  let k := kpb16 fa fb
  if p.sparsity = 5 then max (cdiv (16 * kept) k) (cdiv delta k)
  else cdiv (16 * delta) (if 0 < p.kept then 2 * k else k)

/-! ### PASS -/

/-- Code faults among the elements read (R29, R34). -/
def faultCount (f : Nat) (xs : List (List Slot)) : Nat :=
  (xs.flatMap fun r => r.flatMap fun c => (c.getD []).map fun c => b2n (decodeElem f c.1).2).foldl (· + ·) 0

/-- The tile that a pass accumulates into: a clearing pass takes the lowest free slot and starts at +0.0 (R66, R67). -/
def Stream.openTile (t : Stream) (e : Issue) (p : PassOp) : Stream :=
  if p.clear ∨ t.tile p.tag = none then
    let rest := t.tiles.filter fun x => x.tag != p.tag
    let u := { t with tiles := rest }
    { u with tiles := ⟨p.tag, u.freeTile, e.ins.dIdx 0, e.ins.dIdx 1, e.ins.dIdx 2, 0⟩ :: rest, acc := if p.clear then [] else t.acc }
  else t

/-- Panel of a fill pass (R64, R65). -/
def panelOf (sideB : Bool) (di blk : Nat) (p : PassOp) (xs : List (List Slot)) : Panel :=
  ⟨sideB, di, blk, p.kLo, p.kHi, xs.flatMap fun r => r.map fun c => c.getD []⟩
/-- The codes that a replay presents in the place of those read; rows that are off stay off. -/
def replayed (pn : Panel) (nk : Nat) (rows : List (Option Nat)) : List (List Slot) :=
  (List.range rows.length).zip rows |>.map fun x => match x.2 with
    | none => List.replicate nk none
    | some _ => ((pn.codes.drop (x.1 * nk)).take nk).map some

/-- Work of a pass once its operands are in hand. -/
def State.passWork (s : State) (e : Issue) (p : PassOp) (va vb : View) (ks : List KPos) (ca cb : List (List Slot)) : State :=
  let sideB := e.kind == 1
  let offs := ks.map (kIsOff p va vb)
  let live := fun (f : Nat) (r : List Slot) => (r.zip offs).map fun x => if x.2 then none else x.1.map fun cs => cs.map (termFact f)
  let ends := groupEnds (groupSize va.d.format vb.d.format) va.d vb.d p.kHi (p.kHi - p.kLo) p.kLo
  let t := s.stream e.k
  let r := tileOf t.acc (ks.map fun q => groupOf ends q.k) ends.length (ca.map (live va.d.format)) (cb.map (live vb.d.format))
  let tiles := t.tiles.map fun x => if x.tag = p.tag then { x with sat := x.sat + r.2.1 } else x
  (s.setStream e.k { t with acc := r.1, tiles := tiles }).countN (cStone e.m sideB 3) r.2.2

/-- The operand rows of one side, and i2 and i3 of its block. -/
structure SideRun where
  rows : List (Option Nat)
  io : Nat × Nat
deriving DecidableEq, Repr

/-- What a pass runs on. D2 is the mask of a masked weight-gradient product. Operand B is the structured one of a structured
pass, and D3 names its positions tensor: R77 and R204 give neither a field (log 29). -/
structure PassRun where
  p : PassOp
  va : View
  vb : View
  mask : Option View
  pos : Option View
  zero : Bool
  ks : List KPos
  kept : Nat
deriving DecidableEq, Repr

/-- The descriptors and K positions of a pass. A zero extent of any of its descriptors makes it a zero shape, which covers no K
position; a K extent below the pass's range that is not zero turns the positions beyond it off and leaves the pass its length,
which DESIGN CHOICE log 73 takes the run-time Δ of R59 to be. -/
def Issue.passRun (e : Issue) (s : State) : PassRun :=
  let p := PassOp.of e.ins
  let va := e.view s false 0
  let vb := e.view s false 1
  let mask := if e.ins.dIdx 2 = 0xFFFF then none else some (e.view s false 2)
  let pos := if 0 < p.kept ∧ e.ins.dIdx 3 ≠ 0xFFFF then some { (e.view s false 3) with w := 2 } else none
  let zero := va.isZero || vb.isZero || mask.any View.isZero || pos.any View.isZero
  let feed := (((e.races false [0, 1, 2, 3]).filterMap fun u => (NMap.get [] s.feeds u.key).head?).headD [])
  ⟨p, va, vb, mask, pos, zero, if zero then [] else kPositions p va.d vb.d feed, feed.length⟩
def PassRun.views (r : PassRun) : List View := [r.va, r.vb] ++ r.mask.toList ++ r.pos.toList

/-- Rows of operand A in a pass, with a row or column mask of the Stone: those of a masked product are its computed rows. -/
def PassRun.rowsA (r : PassRun) (list : List Nat) (m : BitVec 128) : SideRun := match r.mask with
  | some _ => ⟨compactRows list r.p.rowBlk m, r.va.outer23 (blocksOf list.length) r.p.rowBlk⟩
  | none => ⟨r.va.rowsOf false r.p.rowBlk m, r.va.outer23 (blocksOf (r.va.extM false)) r.p.rowBlk⟩
def PassRun.rowsB (r : PassRun) (m : BitVec 128) : SideRun :=
  ⟨r.vb.rowsOf true r.p.colBlk m, r.vb.outer23 (blocksOf (r.vb.extM true)) r.p.colBlk⟩

/-- The pass takes the operand of this side from the panel buffer. -/
def PassRun.replays (r : PassRun) (pn : Option Panel) (b : Bool) : Bool :=
  (r.p.panel == if b then 4 else 3) && pn.any fun x => x.sideB == b

/-- Read one operand of a pass: clamps count, and runs and bytes are those of the indices. -/
def State.passReads (s : State) (e : Issue) (v : View) (is : List Ix) : Out :=
  (s.countClamps e.m v is).readElems e.img (e.agent false) v (is.map v.clamp)

/-- Fetch what a pass reads: both operands unless they are replayed, the positions with B, and the masks. -/
def State.passFetch (s : State) (e : Issue) (r : PassRun) (pn : Option Panel) (ra rb : SideRun) : Out :=
  let on := r.ks.filter fun q => !kIsOff r.p r.va r.vb q
  let ib := if r.replays pn true then [] else sideIx r.p r.vb true rb.io rb.rows on
  (((s.passReads e r.va (if r.replays pn false then [] else sideIx r.p r.va false ra.io ra.rows on)).andThen fun t =>
    t.passReads e r.vb ib).andThen fun t => match r.pos with
      | some v => if r.replays pn true then .go t else t.passReads e v (sideIx r.p v true rb.io rb.rows on)
      | none => .go t).andThen fun t => match r.mask with
      | some v => if r.zero then .go t else t.fetchMasks e v (r.va.extM false)
      | none => .go t

/-- The panel that a fill pass records: the operand's 128 rows or columns over the pass's K range (R64). -/
def State.passPanel (s : State) (e : Issue) (r : PassRun) (list : List Nat) (old : Option Panel) : Option Panel :=
  let ag := e.agent false
  if r.p.panel = 1 then
    let ra := r.rowsA list (BitVec.allOnes 128)
    some (panelOf false (e.ins.dIdx 0) r.p.rowBlk r.p (s.sideCodes e.img ag r.p r.va none false ra.io ra.rows r.ks))
  else if r.p.panel = 2 then
    let rb := r.rowsB (BitVec.allOnes 128)
    some (panelOf true (e.ins.dIdx 1) r.p.colBlk r.p (s.sideCodes e.img ag r.p r.vb r.pos true rb.io rb.rows r.ks))
  else old

/-- The body of PASS. -/
def State.passBody (s : State) (e : Issue) : Out :=
  let sideB := e.kind == 1
  let ag := e.agent false
  let r := e.passRun s
  let t0 := s.stream e.k
  let list := match r.mask with
    | some mv => s.maskedRows e.img ag mv (r.va.extM false)
    | none => []
  let ra := r.rowsA list t0.rowMask
  let rb := r.rowsB t0.colMask
  ((s.shapeCounts e.shapes e.l e.m r.views).passFetch e r t0.panel ra rb).andThen fun s1 =>
    let ca := match t0.panel, r.replays t0.panel false with
      | some pn, true => replayed pn r.ks.length ra.rows
      | _, _ => s1.sideCodes e.img ag r.p r.va none false ra.io ra.rows r.ks
    let cb := match t0.panel, r.replays t0.panel true with
      | some pn, true => replayed pn r.ks.length rb.rows
      | _, _ => s1.sideCodes e.img ag r.p r.vb r.pos true rb.io rb.rows r.ks
    let s2 := (s1.countFaults r.va (faultCount r.va.d.format ca)).countFaults r.vb (faultCount r.vb.d.format cb)
    let s3 := { s2 with feeds := (e.races false [0, 1, 2, 3]).foldl (fun (f : NMap (List (List (Nat × Nat)))) (u : RaceUse) =>
      NMap.set [] f u.key ((NMap.get [] f u.key).drop 1)) s2.feeds }
    (s3.switchTo e.m e.k sideB r.p.tag).andThen fun s4 =>
      let s5 := s4.setStream e.k { ((s4.stream e.k).openTile e r.p) with panel := s1.passPanel e r list t0.panel }
      let s6 := if r.zero then s5 else s5.passWork e r.p r.va r.vb r.ks ca cb
      .go ((s6.count (cStone e.m sideB 0)).countN (cStone e.m sideB 1)
        (if r.zero then 0 else passBeats r.p r.va.d.format r.vb.d.format (r.p.kHi - r.p.kLo) r.kept))

/-- The planned turns of a pass: both operands but what it replays, a structured operand's positions, the masks (R63, R206). -/
def State.passPlan (s : State) (e : Issue) : List Plan :=
  let ag := e.agent false
  let r := e.atPlan.passRun s
  let pn := (s.stream e.k).panel
  let all := BitVec.allOnes 128
  let side := fun (v : View) (b : Bool) (w : View) =>
    let x := if b then r.rowsB all else ⟨r.va.rowsOf false r.p.rowBlk all, r.va.outer23 (blocksOf (r.va.extM false)) r.p.rowBlk⟩
    if r.replays pn b then [] else v.plan ag false ((sideIx r.p w b x.io x.rows r.ks).map v.clamp)
  side r.va false r.va ++ side r.vb true r.vb ++ (r.pos.toList.flatMap fun v => side v true v) ++
    r.mask.toList.map fun v => ⟨ag, false, false, distinct ((maskBytes v (r.va.extM false)).map (·.1))⟩

/-- PASS (R59). -/
def execPass (mill : Fin 144) (sideB : Bool) (s : State) : Host.Outcome State Fault Refusal :=
  match s.issue mill.val (b2n sideB) 0x10 with
  | some e => done (s.planned e false [0, 1, 2, 3] (some (s.passPlan e)) fun t => t.passBody e)
  | none => done s

/-! ### DRAIN (R42, R69, R138, R142-R144) -/

/-- Tile rows that a drain writes, as M indices of the output; those of a masked tile are its compacted rows (R75). -/
def State.drainRows (s : State) (e : Issue) (v : View) (tile : Option Tile) (blk : Nat) (mask : BitVec 128) : List (Option Nat) × (Nat × Nat) :=
  match tile with
  | none => (v.rowsOf false blk mask, v.outer23 (blocksOf (v.extM false)) blk)
  | some x =>
    if x.mask = 0xFFFF then (v.rowsOf false blk mask, v.outer23 (blocksOf (v.extM false)) blk)
    else
      let list := s.maskedRows e.img (e.agent false) (e.desc x.mask) (v.extM false)
      (compactRows list blk mask, v.outer23 (blocksOf list.length) blk)

/-- Elements that a drain writes: position 128 × row + column and output index, in element order. -/
def drainIx (v : View) (rows : List (Option Nat)) (io : Nat × Nat) (colBlk : Nat) (mask : BitVec 128) : List (Nat × Ix) :=
  let n := v.ext.get (v.kDim false)
  let lo := 128 * (colBlk % blocksOf n)
  ((List.range rows.length).zip rows).flatMap fun (r : Nat × Option Nat) => match r.2 with
    | none => []
    | some mi => (List.range 128).filterMap fun j =>
      if mask.getLsbD j && (v.d.edgeOff || decide (lo + j < n)) then some (128 * r.1 + j, v.opIx false io mi (lo + j)) else none

/-- v of R42 for one element: FP32 code and saturations. -/
def drained (sab acc : Nat) : Nat × Nat :=
  let r := round32 ((dec32 acc).mul (dec32 sab))
  (r.1, b2n r.2)

/-- s_ab of R42: the product of the tensor scales of two operand descriptors, and its saturations. -/
def State.scaleAB (s : State) (img : Image) (ab : Option (Nat × Nat)) : Nat × Nat := match ab with
  | none => (one32, 0)
  | some (a, b) =>
    let r := mul32 (s.tensorScale img a) (s.tensorScale img b)
    (r.1, b2n r.2)

/-- Scale accumulated values by s_ab, convert them into an output and write them (R42): `xs` gives each value's position, its
index and its FP32 code; `sat` saturations are counted with those of the drain. -/
def State.drainInto (s : State) (e : Issue) (ag : Agent) (k : Nat) (v : View) (ab : Option (Nat × Nat)) (sat : Nat)
    (xs : List (Nat × Ix × Nat)) : Out :=
  let sab := s.scaleAB e.img ab
  let vs := xs.map fun x => drained sab.1 x.2.2
  let b := s.beginConv e.img k e.site v
  ((b.1.countN (cGroup v.d.group 2) (sat + sab.2 + vs.foldl (fun n p => n + p.2) 0)).storeItems e.img ag v
    ((xs.zip vs).map fun p => (⟨p.1.1, v.clamp p.1.2.1, dec32 p.2.1, Draws.word b.2 p.1.1⟩, v.clamp p.1.2.1)))

/-- Write a tile's accumulator as FP32, without scales or conversion (R144). -/
def State.drainPartial (s : State) (e : Issue) (v : View) (sat : Nat) (xs : List (Nat × Ix × Nat)) : Out :=
  let nan := (xs.filter fun x => (dec32 x.2.2).isNan).length
  let inf := (xs.filter fun x => (dec32 x.2.2).isInf).length
  let t := ((s.countN (cGroup v.d.group 0) nan).countN (cGroup v.d.group 1) inf).countN (cGroup v.d.group 2) sat
  (t.countRuns e.img (e.agent true) v (xs.map fun x => v.clamp x.2.1)).deposit e.img (e.agent true) (some v.d.group)
    (xs.map fun x => let a := v.elem (v.clamp x.2.1); ⟨a.1, a.2.1, 32, x.2.2⟩)

/-! ### Folds (R43, R144) -/

/-- The fold of one element: the first part, and each further one added with a rounding. -/
def foldCodes : List Nat → Nat × Nat
  | [] => (0, 0)
  | x :: xs => xs.foldl (fun a y => let r := add32 a.1 y; (r.1, a.2 + b2n r.2)) (x, 0)

/-- Read one element of a part at the width of 32 bits that its drain wrote. -/
def State.partAt (s : State) (e : Issue) (v : View) (i : Ix) : Nat := s.codeAt e.img (.mill e.m 6) v (v.clamp i)

/-- The Carder folds the drained parts of a tile: it reads them in the list's order, adds them element by element, scales and
converts the sums as a drain does, with the tensor scales of the first part's operands, and writes the output (R144). `dix` gives
the position and index of each element that the tile has. -/
def State.foldTile (s : State) (e : Issue) (f : FoldDef) (ab : Option (Nat × Nat)) (dix : View → List (Nat × Ix)) : Out :=
  let ag := Agent.mill e.m 6
  let out := e.desc f.out
  let parts := f.list.map fun di => { (e.desc di) with w := 32 }
  let xs : List (Nat × Ix) := if out.isZero then [] else dix out
  (parts.foldl (fun (o : Out) v => o.andThen fun t =>
      (t.countClamps e.m v (xs.map (·.2))).readElems e.img ag v (xs.map fun x => v.clamp x.2)) (.go s)).andThen fun t =>
    let ys := xs.map fun x => (x, foldCodes (parts.map fun v => t.partAt e v x.2))
    (t.countClamps e.m out (xs.map (·.2))).drainInto e ag (8 * e.l + 2) out ab (ys.foldl (fun n y => n + y.2.2) 0)
      (ys.map fun y => (y.1.1, y.1.2, y.2.1))

/-- Record a drained part in every list that names its descriptor, and fold each list whose parts of that tile are all there.
No instruction starts a fold, so it runs with the drain that completes the parts (DESIGN CHOICE, log 74). -/
def State.foldPart (s : State) (e : Issue) (di blk : Nat) (ab : Nat × Nat) (dix : View → List (Nat × Ix)) :
    List (Nat × FoldDef) → Out
  | [] => .go s
  | (n, f) :: fs =>
    match findIdx (· == di) f.list with
    | none => s.foldPart e di blk ab dix fs
    | some i =>
      let key := n * 2 ^ 32 + blk
      let got : List (Nat × Nat × Nat) := (i, ab) :: (NMap.get [] s.folds key).filter fun x => x.1 != i
      if got.length < f.list.length then { s with folds := NMap.set [] s.folds key got }.foldPart e di blk ab dix fs
      else ({ s with folds := NMap.set [] s.folds key [] }.foldTile e f ((got.filter fun (x : Nat × Nat × Nat) => x.1 == 0).head?.map Prod.snd) dix).andThen
        fun t => t.foldPart e di blk ab dix fs

/-- The tile is drained and its slot free. -/
def Stream.dropTile (t : Stream) (tag : Nat) : Stream :=
  { t with tiles := t.tiles.filter fun x => x.tag != tag
           work := if t.work = some tag then none else t.work
           shadow := if t.shadow = some tag then none else t.shadow
           shAcc := if t.shadow = some tag then [] else t.shAcc
           acc := if t.work = some tag then [] else t.acc }

/-- The body of DRAIN. -/
def State.drainBody (s : State) (e : Issue) : Out :=
  let sideB := e.kind == 1
  let t0 := s.stream e.k
  let v0 := e.view s true 0
  let v := if v0.d.partialOut then { v0 with w := 32 } else v0
  let tag := e.ins.op 7 0
  let tile := t0.tile tag
  let rows := s.drainRows e v tile (e.ins.op 23 8) t0.rowMask
  let xs : List (Nat × Ix) := if v.isZero then [] else drainIx v rows.1 rows.2 (e.ins.op 39 24) t0.colMask
  let ab := tile.map fun x => (x.dA, x.dB)
  let sat := match tile with
    | some x => x.sat
    | none => 0
  let s1 := s.shapeCounts e.shapes e.l e.m [v]
  let s2 := if t0.work = some tag then s1.flushTile e.m e.k sideB else s1
  (((match tile with
    | some x => s2.kettleRead e.m sideB x.slot (some v.d.group)
    | none => .go s2).andThen fun s3 =>
      let acc := match tile with
        | some x => s3.kettleSlot e.m sideB x.slot
        | none => []
      let ys := xs.map fun (x : Nat × Ix) => (x.1, x.2, NMap.get 0 acc x.1)
      let s4 := s3.countClamps e.m v (xs.map Prod.snd)
      if v.d.partialOut then s4.drainPartial e v sat ys else s4.drainInto e (e.agent true) e.k v ab sat ys).andThen fun s5 =>
    if v.d.partialOut then
      s5.foldPart e (e.ins.dIdx 0) (e.ins.op 23 8 * 65536 + e.ins.op 39 24) (ab.getD (0xFFFF, 0xFFFF))
        (fun w => drainIx w rows.1 (w.outer23 (blocksOf (w.extM false)) (e.ins.op 23 8)) (e.ins.op 39 24) t0.colMask)
        ((List.range e.img.folds.length).zip e.img.folds)
    else .go s5).andThen fun s6 =>
    .go (s6.setStream e.k ((s6.stream e.k).dropTile tag))

/-- The planned turns of a drain: the writes of its block (R206). -/
def State.drainPlan (s : State) (e : Issue) : List Plan :=
  let v0 := e.atPlan.view s true 0
  let v := if v0.d.partialOut then { v0 with w := 32 } else v0
  let all := BitVec.allOnes 128
  let is := drainIx v (v.rowsOf false (e.ins.op 23 8) all) (v.outer23 (blocksOf (v.extM false)) (e.ins.op 23 8)) (e.ins.op 39 24) all
  v.plan (e.agent true) true (is.map fun x => v.clamp x.2)

/-- DRAIN (R69). -/
def execDrain (mill : Fin 144) (sideB : Bool) (s : State) : Host.Outcome State Fault Refusal :=
  match s.issue mill.val (b2n sideB) 0x11 with
  | some e => done (s.planned e true [0] (some (s.drainPlan e)) fun t => t.drainBody e)
  | none => done s

/-! ### MASK_LOAD (R143) -/

/-- The body of MASK_LOAD: 32 bytes of the Mill's Hopper. -/
def State.maskLoadBody (s : State) (e : Issue) : Out :=
  let a := hopperBase e.m + e.ins.op 20 0
  (s.fetch e.img (e.agent false) none true ((List.range 32).map (a + ·))).andThen fun t =>
    .go (t.setStream e.k { t.stream e.k with
      rowMask := BitVec.ofNat 128 (t.fabNum e.img (e.agent false) a 16)
      colMask := BitVec.ofNat 128 (t.fabNum e.img (e.agent false) (a + 16) 16) })
def execMaskLoad (mill : Fin 144) (sideB : Bool) (s : State) : Host.Outcome State Fault Refusal :=
  match s.issue mill.val (b2n sideB) 0x12 with
  | some e => done (s.engine e false [] fun t => t.maskLoadBody e)
  | none => done s

end Sys2Proof.Machine
end

