-- ==== Sys2Proof/Machine/Copy.lean ====
section
/-! DEFINITION. Copies: the DMA engine's COPY and the Tenter's TCOPY (R145-R147, R204, R206). -/
namespace Sys2Proof.Machine

/-- Format and block axis agree, so codes and scales travel unchanged (R146); `axis` is the source dimension that the
destination's block axis takes its index from. UINT32 has no blocks, and a copy of it keeps the bits (R410). -/
def sameForm (vs vd : View) (axis : Nat) : Bool :=
  vs.d.format == vd.d.format && (vs.d.format == 0x0D || axis == b2n vs.d.blockAxis)

/-- Count clamped accesses of a copy: a Mill's, or a Tenter's writes. A Tenter is of no Mill, so its clamped reads count at the
Mill whose shape registers it uses (R140, R149, log 27). -/
def State.countMoves (s : State) (e : Issue) (vs vd : View) (ms : List Move) : State :=
  let t := s.countClamps e.m vs (ms.map (·.src))
  if e.kind = 5 then
    let n := ms.foldl (fun n m => n + vd.clamps m.dst) 0
    if n = 0 then t else t.countN (cTenter e.owner 2) n
  else t.countClamps e.m vd (ms.map (·.dst))

/-- Move elements: every one is read before any is written, and writes land in list order. -/
def State.moveElems (s : State) (e : Issue) (vs vd : View) (same : Bool) (dr : Option Draws) (ms : List Move) : Out :=
  ((s.countMoves e vs vd ms).readElems e.img (e.agent false) vs (ms.map (·.src))).andThen fun t =>
    t.moveInto e.img (e.agent false) vs vd same dr ms

/-- The body of COPY: source elements in ascending index, clamped into the destination. -/
def State.copyBody (s : State) (e : Issue) : Out :=
  let vs := e.view s false 0
  let vd := e.view s false 1
  let s1 := s.shapeCounts e.shapes e.l e.m [vs, vd]
  if vs.isZero || vd.isZero then .go s1
  else
    let same := sameForm vs vd (b2n vd.d.blockAxis)
    let b := if same then (s1, none) else s1.beginConv e.img e.k e.site vd
    b.1.moveElems e vs vd same b.2 ((List.range vs.count).map fun p => ⟨vs.nth p, vs.nth p, p, vs.nth p⟩)

/-- The planned turns of a copy: it reads the source and writes the destination, which the index map reaches (R206). -/
def State.copyPlan (s : State) (e : Issue) (place : Ix → Ix) : List Plan :=
  let vs := e.atPlan.view s false 0
  let vd := e.atPlan.view s false 1
  vs.plan (e.agent false) false vs.allIx ++ vd.plan (e.agent false) true (vs.allIx.map fun i => vd.clamp (place i))

/-- COPY (R204). -/
def execCopy (mill : Fin 144) (s : State) : Host.Outcome State Fault Refusal :=
  match s.issue mill.val 3 0x40 with
  | some e => done (s.planned e false [0, 1] (some (s.copyPlan e id)) fun t => t.copyBody e)
  | none => done s

/-! ### TCOPY (R145-R147) -/

/-- PERM: the source dimension of destination dimension `d`. -/
def permOf (perm d : Nat) : Nat := perm / 4 ^ d % 4
/-- The destination index of a source index. -/
def permIx (perm : Nat) (i : Ix) : Ix := ⟨i.get (permOf perm 0), i.get (permOf perm 1), i.get (permOf perm 2), i.get (permOf perm 3)⟩

/-- Tiles over the source: i3, i2, t1, t0 with t0 fastest. -/
def tilesOf (v : View) : List Ix :=
  (List.range v.ext.i3).flatMap fun i3 => (List.range v.ext.i2).flatMap fun i2 =>
    (List.range (cdiv v.ext.i1 32)).flatMap fun t1 => (List.range (cdiv v.ext.i0 32)).map fun t0 => ⟨t0, t1, i2, i3⟩

/-- The elements of a tile in ascending order of destination element index: source and destination indices. -/
def tileMoves (v : View) (perm : Nat) (t : Ix) : List (Ix × Ix) :=
  let srcs := (List.range (min 32 (v.ext.i1 - 32 * t.i1))).flatMap fun b =>
    (List.range (min 32 (v.ext.i0 - 32 * t.i0))).map fun a => (⟨32 * t.i0 + a, 32 * t.i1 + b, t.i2, t.i3⟩ : Ix)
  let e := permIx perm v.ext
  let key := fun (d : Ix) => ((d.i3 * e.i2 + d.i2) * e.i1 + d.i1) * e.i0 + d.i0
  (srcs.foldl (fun (m : NMap (List (Ix × Ix))) i =>
    let d := permIx perm i
    NMap.set [] m (key d) (NMap.get [] m (key d) ++ [(i, d)])) []).flatMap (·.2)
/-- The same as moves, whose words are numbered from `lo`. -/
def numberMoves (lo : Nat) (ms : List (Ix × Ix)) : List Move :=
  ((List.range ms.length).zip ms).map fun p => ⟨p.2.1, p.2.2, lo + p.1, p.2.2⟩

/-- Copy the tiles in order, from tile `n` on; each tile's reads follow the writes of the tiles before it. -/
def State.tcopyTiles (s : State) (e : Issue) (vs vd : View) (perm : Nat) (same : Bool) (dr : Option Draws) : Nat → Nat → List Ix → Out
  | _, _, [] => .go s
  | n, lo, t :: ts =>
    let ms := numberMoves lo (tileMoves vs perm t)
    ((s.moveElems e vs vd same dr ms).atStep n).andThen fun u =>
      (u.count (cTenter e.owner 0)).tcopyTiles e vs vd perm same dr (n + 1) (lo + ms.length) ts

/-- The body of TCOPY. -/
def State.tcopyBody (s : State) (e : Issue) : Out :=
  let vs := e.view s false 0
  let vd := e.view s false 1
  let s1 := s.shapeCounts e.shapes e.l e.m [vs, vd]
  if vs.isZero || vd.isZero then .go s1
  else
    let perm := e.ins.op 7 0
    let same := sameForm vs vd (permOf perm (b2n vd.d.blockAxis))
    let s2 := if rangesMeet vs.ranges vd.ranges then s1.count (cTenter e.owner 1) else s1
    let b := if same then (s2, none) else s2.beginConv e.img e.k e.site vd
    b.1.tcopyTiles e vs vd perm same b.2 0 0 (tilesOf vs)

/-- TCOPY (R145). -/
def execTcopy (floor : Fin 8) (s : State) : Host.Outcome State Fault Refusal :=
  match s.issue floor.val 5 0x50 with
  | some e => done (s.planned e false [0, 1] (some (s.copyPlan e (permIx (e.ins.op 7 0)))) fun t => t.tcopyBody e)
  | none => done s

end Sys2Proof.Machine
end

