-- ==== Sys2Proof/Machine/Carder.lean ====
section
/-! DEFINITION. Carders: indices, gather, scatter-add, gather-add, merge and merge-sum (R150-R160, R413). -/
namespace Sys2Proof.Machine

/-! ### Rows, flat lists and indices (R152, R153, R413) -/

/-- Rows of a table. -/
def View.rows (v : View) : Nat := v.ext.i1 * v.ext.i2 * v.ext.i3
/-- Element `i0` of row `r`. -/
def View.rowIx (v : View) (r i0 : Nat) : Ix := ⟨i0, r % v.ext.i1, r / v.ext.i1 % v.ext.i2, r / v.ext.i1 / v.ext.i2⟩
/-- Entry `p` of a flat list; at or beyond the list's own count, its last entry. -/
def View.flat (v : View) (p : Nat) : Ix := v.nth (min p (v.count - 1))
/-- Clamped accesses of an entry: beyond the count, or clamped to its slot. -/
def View.flatClamps (v : View) (p : Nat) : Nat :=
  b2n (decide (v.count ≤ p) || v.offSlot (v.flat p)) + b2n (v.scaleOff (v.flat p))

/-- A resolved index: row, and what it counts: 0 nothing, 1 negative, 2 high (R153). -/
def resolveIdx (rows v : Nat) : Nat × Nat :=
  if 2 ^ 31 ≤ v then (0, 1) else if rows ≤ v then (rows - 1, 2) else (v, 0)
/-- The same for an index tensor that is not UINT32, from its exact value. -/
def resolveVal (rows : Nat) : FV → Nat × Nat
  | .nan => (0, 1)
  | .inf neg => if neg then (0, 1) else (rows - 1, 2)
  | .fin neg num den e =>
    let n := roundInt .rne num den e
    if neg ∧ 0 < n then (0, 1) else if rows ≤ n then (rows - 1, 2) else (n, 0)

/-- Index entry `p`, resolved against a row count. -/
def State.indexAt (s : State) (img : Image) (ag : Agent) (v : View) (st rows p : Nat) : Nat × Nat :=
  if v.d.format = 0x0D then resolveIdx rows (s.codeAt img ag v (v.flat p))
  else resolveVal rows (s.fullAt img ag v st (v.flat p)).exact

/-- Count an index clamp. -/
def State.countIdx (s : State) (m c : Nat) : State :=
  if c = 1 then s.count (cCarder m 0) else if c = 2 then s.count (cCarder m 1) else s

/-- Count a number of clamped accesses of a Mill. -/
def State.countClamped (s : State) (m n : Nat) : State := if n = 0 then s else s.countN (cLayout m 0) n

/-- Read an entry of a flat list: accesses, clamps, and on its first reading a code fault (R29, R153). -/
def State.fetchFlat (s : State) (e : Issue) (v : View) (first : Bool) (p : Nat) : Out :=
  ((s.countClamped e.m (v.flatClamps p)).fetch e.img (e.agent false) (some v.d.group) (!v.d.noalloc)
    (v.bytesOf (v.flat p))).andThen fun t =>
      .go (if first then t.countValues v (t.fulls e.img (e.agent false) v [v.flat p]) else t)

/-- Bytes of a row. -/
def View.rowBytes (v : View) (r : Nat) : List Nat := (List.range v.ext.i0).flatMap fun i => v.bytesOf (v.rowIx r i)

/-- A row fits the line buffer of 4 KiB (R155). -/
def View.buffers (v : View) : Bool := decide (v.ext.i0 * v.w ≤ 32768)

/-- Fetch the elements that are used of a table row, or serve the row from the line buffer (R154, R155). -/
def State.fetchRow (s : State) (e : Issue) (v : View) (buf : Option Nat) (r : Nat) (is : List Ix) : Out :=
  if buf = some r ∧ v.buffers then .go (s.count (cCarder e.m 2)) else s.readElems e.img (e.agent false) v is

/-- The buffer after a write to some bytes: emptied when any byte of the buffered row is written (R155). -/
def bufAfter (v : View) (buf : Option Nat) (written : List Nat) : Option Nat := match buf with
  | none => none
  | some r => if (v.rowBytes r).any fun a => written.contains a then none else some r

/-! ### Gather (R154, R155) -/

/-- The moves of table row `r` into output row `row`, their words numbered from `w`: an element at or beyond the table's row
takes its last element, and a row at or beyond the output's lands on its last row. -/
def rowMoves (tab out : View) (r row w : Nat) : List Move :=
  (List.range out.ext.i0).map fun i =>
    let d := out.rowIx (min row (out.rows - 1)) i
    ⟨tab.rowIx r (min i (tab.ext.i0 - 1)), d, w + i, d⟩
/-- Clamped accesses of those moves: each clamped element counts once, and each clamped block scale. -/
def rowClamps (tab out : View) (r row : Nat) : Nat :=
  (rowMoves tab out r row 0).foldl (fun n m =>
    n + b2n (decide (out.rows ≤ row) || decide (tab.ext.i0 ≤ m.word) || tab.offSlot m.src || out.offSlot m.dst) +
      b2n (tab.scaleOff m.src) + b2n (out.scaleOff m.dst)) 0
/-- Move one table row into an output row. -/
def State.moveRow (s : State) (e : Issue) (tab out : View) (dr : Option Draws) (buf : Option Nat) (w r row : Nat) : Out :=
  let ms := rowMoves tab out r row w
  (s.fetchRow e tab buf r (ms.map (·.src))).andThen fun t =>
    (t.countClamped e.m (rowClamps tab out r row)).moveInto e.img (e.agent false) tab out (tab.d.format == out.d.format) dr ms
/-- The line buffer after that move. -/
def rowBuf (tab out : View) (r row : Nat) : Option Nat :=
  bufAfter tab (some r) ((rowMoves tab out r row 0).flatMap fun m => out.bytesOf m.dst)

/-- Output row `p` of a gather, and the line buffer afterwards. -/
def State.gatherRow (s : State) (e : Issue) (tab idx out : View) (dr : Option Draws) (buf : Option Nat) (p : Nat) : Out × Option Nat :=
  let r := s.indexAt e.img (e.agent false) idx (s.tensorScale e.img idx.di) tab.rows p
  ((s.fetchFlat e idx true p).andThen fun t => (t.countIdx e.m r.2).moveRow e tab out dr buf (p * out.ext.i0) r.1 p,
    rowBuf tab out r.1 p)

/-- Rows of a gather from `p` on. -/
def State.gatherRows (s : State) (e : Issue) (tab idx out : View) (dr : Option Draws) : Option Nat → Nat → Nat → Out
  | _, _, 0 => .go s
  | buf, p, n + 1 =>
    let r := s.gatherRow e tab idx out dr buf p
    (r.1.atStep p).andThen fun t => t.gatherRows e tab idx out dr r.2 (p + 1) n

/-- The body of a gather. -/
def State.gatherBody (s : State) (e : Issue) : Out :=
  let tab := e.view s false 0
  let idx := e.view s false 1
  let out := e.view s false 2
  let s1 := s.shapeCounts e.shapes e.l e.m [tab, idx, out]
  if tab.isZero || idx.isZero || out.isZero then .go s1
  else
    let b := if tab.d.format = out.d.format then (s1, none) else s1.beginConv e.img e.k e.site out
    b.1.gatherRows e tab idx out b.2 none 0 idx.count

/-- GATHER (R154). -/
def execGather (mill : Fin 144) (s : State) : Host.Outcome State Fault Refusal :=
  match s.issue mill.val 2 0x21 with
  | some e => done (s.engine e false [0, 1, 2] fun t => t.gatherBody e)
  | none => done s

/-! ### Scatter-add and gather-add (R156-R158) -/

/-- The descriptors of an accumulating operation. -/
structure ScatterOp where
  dst : View
  idx : View
  src : View
  weight : Option View
  /-- source index tensor of a gather-add -/
  sidx : Option View
  clear : Bool
deriving DecidableEq, Repr

/-- What a segment carries from entry to entry. -/
structure Seg where
  cur : Option Nat
  acc : List Nat
  seen : List Nat
  buf : Option Nat
  /-- row writes of the operation so far (R157) -/
  writes : Nat
deriving DecidableEq, Repr

/-- write_row of R156: the accumulator's lanes into the row, converted for BF16. -/
def State.writeRow (s : State) (e : Issue) (dst : View) (dr : Option Draws) (lo row : Nat) (acc : List Nat) (writes : Nat) : Out :=
  let ixs := (List.range acc.length).map fun i => dst.rowIx row (lo + i)
  (s.countClamps e.m dst ixs).storeItems e.img (e.agent false) dst
    (((List.range acc.length).zip (ixs.zip acc)).map fun q =>
      (⟨q.1, q.2.1, dec32 q.2.2, Draws.word dr (128 * writes + q.1)⟩, q.2.1))
/-- read_row of R156: the row's elements on the wide lanes. -/
def State.readRow (s : State) (e : Issue) (dst : View) (ixs : List Ix) : Out :=
  ((s.countClamps e.m dst ixs).readElems e.img (e.agent false) dst ixs).andThen fun t =>
    .go (t.countFulls dst dst.d.group (t.fulls e.img (e.agent false) dst ixs))

/-- One accumulation over the lanes: a source value is weighted, or taken as it is, with one rounding, and added with another:
new accumulator and saturations (R156, R47). -/
def addLanes (w : Option Nat) : List Nat → List FV → List Nat × Nat
  | a :: as, x :: xs =>
    let y := match w with
      | some k => arith32 ((dec32 k).isFinite && x.isFinite) ((dec32 k).mul x)
      | none => round32 x
    let r := add32 a y.1
    let t := addLanes w as xs
    (r.1 :: t.1, t.2 + b2n y.2 + b2n r.2)
  | _, _ => ([], 0)

/-- Add source elements, read at their values, into the lanes: code faults count for the source, and its non-finite elements and
the saturations in the destination's group (R158). -/
def State.addRow (s : State) (e : Issue) (dst src : View) (w : Option Nat) (acc : List Nat) (ixs : List Ix) : State × List Nat :=
  let xs := s.fulls e.img (e.agent false) src (ixs.map src.clamp)
  let a := addLanes w acc (xs.map (·.exact))
  let t := (s.countClamps e.m src ixs).countValues src xs
  let g := dst.d.group
  (((t.countN (cGroup g 0) (xs.filter fun x => x.exact.isNan).length).countN (cGroup g 1)
    (xs.filter fun x => x.exact.isInf).length).countN (cGroup g 2) a.2, a.1)

/-- The source row of entry `p`, and its clamp (R153): the entry's own row, or the one that the source index names. -/
def State.sourceIdx (s : State) (e : Issue) (o : ScatterOp) (p : Nat) : Nat × Nat := match o.sidx with
  | none => (p, 0)
  | some si => s.indexAt e.img (e.agent false) si (s.tensorScale e.img si.di) o.src.rows p
/-- Fetch a segment of the source row of entry `p`: a gather-add reads the index and goes through the line buffer. -/
def State.sourceRow (s : State) (e : Issue) (o : ScatterOp) (buf : Option Nat) (first : Bool) (p : Nat) (r : Nat × Nat) (ixs : List Ix) :
    Out :=
  match o.sidx with
  | none => s.readElems e.img (e.agent false) o.src (ixs.map o.src.clamp)
  | some si => (s.fetchFlat e si first p).andThen fun t =>
      (if first then t.countIdx e.m r.2 else t).fetchRow e o.src buf r.1 (ixs.map o.src.clamp)

/-- Start a destination row: the row in hand is written, and the new one read or cleared. -/
def State.turnRow (s : State) (e : Issue) (o : ScatterOp) (dr : Option Draws) (lo : Nat) (g : Seg) (r : Nat) : Out × Seg :=
  let lanes := List.range (min 128 (o.dst.ext.i0 - lo))
  let w := match g.cur with
    | none => (Out.go s, g.buf, g.writes)
    | some c => (s.writeRow e o.dst dr lo c g.acc g.writes,
        bufAfter o.src g.buf (lanes.flatMap fun i => o.dst.bytesOf (o.dst.rowIx c (lo + i))), g.writes + 1)
  let fresh := o.clear && !g.seen.contains r
  let ixs := lanes.map fun i => o.dst.rowIx r (lo + i)
  let o1 := w.1.andThen fun t => if fresh then .go t else t.readRow e o.dst ixs
  let acc := match o1 with
    | .go t => if fresh then ixs.map fun _ => 0 else (t.fulls e.img (e.agent false) o.dst ixs).map (·.code)
    | _ => []
  (o1, { g with cur := some r, acc := acc, seen := r :: g.seen, buf := w.2.1, writes := w.2.2 })

/-- Entry `p` of a segment. -/
def State.scatterStep (s : State) (e : Issue) (o : ScatterOp) (dr : Option Draws) (lo : Nat) (g : Seg) (p : Nat) : Out × Seg :=
  let first := lo == 0
  let r := s.indexAt e.img (e.agent false) o.idx (s.tensorScale e.img o.idx.di) o.dst.rows p
  match (s.fetchFlat e o.idx first p).andThen fun t => .go (if first then t.countIdx e.m r.2 else t) with
  | .go t0 =>
    let q := if g.cur = some r.1 then (Out.go t0, g) else t0.turnRow e o dr lo g r.1
    match q.1 with
    | .go t1 =>
      let sr := t1.sourceIdx e o p
      let ixs := (List.range q.2.acc.length).map fun i => o.src.rowIx sr.1 (lo + i)
      match (t1.sourceRow e o q.2.buf first p sr ixs).andThen fun t2 => match o.weight with
          | some wv => t2.fetchFlat e wv first p
          | none => .go t2 with
      | .go t3 =>
        let ws : List Full := match o.weight with
          | some wv => t3.fulls e.img (e.agent false) wv [wv.flat p]
          | none => []
        let t4 := t3.countN (cGroup o.dst.d.group 2) (if first then (ws.filter (·.sat)).length else 0)
        let a := t4.addRow e o.dst o.src (ws.head?.map (·.code)) q.2.acc ixs
        (.go a.1, { q.2 with acc := a.2, buf := if o.sidx.isSome then some sr.1 else none })
      | o3 => (o3, g)
    | o4 => (o4, g)
  | o5 => (o5, g)

/-- Entries of a segment from `p` on, then the last row's write. -/
def State.scatterSeg (s : State) (e : Issue) (o : ScatterOp) (dr : Option Draws) (lo : Nat) : Seg → Nat → Nat → Out × Nat
  | g, _, 0 => match g.cur with
    | none => (.go s, g.writes)
    | some c => (s.writeRow e o.dst dr lo c g.acc g.writes, g.writes + 1)
  | g, p, n + 1 =>
    let r := s.scatterStep e o dr lo g p
    match r.1.atStep p with
    | .go t => t.scatterSeg e o dr lo r.2 (p + 1) n
    | x => (x, g.writes)

/-- The 128-element segments of the destination row, in order. -/
def State.scatterSegs (s : State) (e : Issue) (o : ScatterOp) (dr : Option Draws) : Nat → List Nat → Out
  | _, [] => .go s
  | w, lo :: los =>
    let r := s.scatterSeg e o dr lo ⟨none, [], [], none, w⟩ 0 o.idx.count
    r.1.andThen fun t => t.scatterSegs e o dr r.2 los

/-- The body of a scatter-add or gather-add. -/
def State.scatterBody (s : State) (e : Issue) (gadd : Bool) : Out :=
  let o : ScatterOp :=
    { dst := e.view s false 0, idx := e.view s false 1, src := e.view s false 2
      weight := if e.ins.dIdx 3 = 0xFFFF then none else some (e.view s false 3)
      sidx := if gadd then some (e.desc (e.ins.op 15 0)) else none, clear := e.ins.flag 0 }
  let vs := [o.dst, o.idx, o.src] ++ o.weight.toList ++ o.sidx.toList
  let s1 := s.shapeCounts e.shapes e.l e.m vs
  if vs.any View.isZero then .go s1
  else
    let b := if o.dst.d.format = 0 then (s1, none) else s1.beginConv e.img e.k e.site o.dst
    b.1.scatterSegs e o b.2 0 ((List.range (cdiv o.dst.ext.i0 128)).map (128 * ·))

/-- SCATTER_ADD (R156). -/
def execScatterAdd (mill : Fin 144) (s : State) : Host.Outcome State Fault Refusal :=
  match s.issue mill.val 2 0x22 with
  | some e => done (s.engine e false [0, 1, 2, 3] fun t => t.scatterBody e false)
  | none => done s
/-- GATHER_ADD (R156). -/
def execGatherAdd (mill : Fin 144) (s : State) : Host.Outcome State Fault Refusal :=
  match s.issue mill.val 2 0x23 with
  | some e => done (s.engine e false [0, 1, 2, 3] fun t => t.scatterBody e true)
  | none => done s

/-! ### Merge (R159, R160) -/

/-- A merge record: key and payload. -/
abbrev MRec := Nat × Nat

/-- Record `p` of a run, from an 8-byte view. -/
def State.recordAt (s : State) (e : Issue) (v : View) (p : Nat) : MRec :=
  let a := v.elem (v.flat p)
  (s.fabNum e.img (e.agent false) a.1 4, s.fabNum e.img (e.agent false) (a.1 + 4) 4)
/-- The head record of a run that is not exhausted. -/
def State.headOf (s : State) (e : Issue) (v : View) (p : Nat) : Option MRec := if p < v.count then some (s.recordAt e v p) else none

/-- Which run gives the next record: run 0 when the keys are equal or run 1 is exhausted (R159); none when both are. -/
def pickRun : Option MRec → Option MRec → Option (Bool × MRec)
  | none, none => none
  | some x, none => some (false, x)
  | none, some y => some (true, y)
  | some x, some y => if y.1 < x.1 then some (true, y) else some (false, x)

/-- What a merge carries from step to step: entries taken of each run with the last key, records written, and of a merge-sum
the record in hand. -/
structure Merging where
  i : Nat
  j : Nat
  last0 : Nat
  last1 : Nat
  out : Nat
  cur : Option MRec
deriving DecidableEq, Repr

/-- Take a record from a run: a key below the one before it counts (R160). -/
def Merging.take (g : Merging) (run1 : Bool) (key : Nat) : Merging × Nat :=
  if run1 then ({ g with j := g.j + 1, last1 := key }, b2n (decide (key < g.last1)))
  else ({ g with i := g.i + 1, last0 := key }, b2n (decide (key < g.last0)))

/-- Write the next output record. -/
def State.putRecord (s : State) (e : Issue) (out : View) (p : Nat) (r : MRec) : Out :=
  let a := out.elem (out.flat p)
  (s.countClamped e.m (out.flatClamps p)).deposit e.img (e.agent false) (some out.d.group) [⟨a.1, a.2.1, 64, r.1 + 2 ^ 32 * r.2⟩]

/-- Sum a record into the one in hand: its payload, counts of non-finite results and saturations. -/
def State.sumRecord (s : State) (g : Nat) (c r : MRec) : State × MRec :=
  let v := add32 c.2 r.2
  (((s.countN (cGroup g 0) (b2n (dec32 v.1).isNan)).countN (cGroup g 1) (b2n (dec32 v.1).isInf)).countN (cGroup g 2) (b2n v.2),
    (c.1, v.1))

/-- The steps of a merge, each of which reads the heads after the writes of those before it (R150, R159). -/
def State.mergeSteps (s : State) (e : Issue) (v0 v1 out : View) (sum : Bool) : Nat → Merging → Out
  | 0, _ => .go s
  | n + 1, g =>
    match pickRun (s.headOf e v0 g.i) (s.headOf e v1 g.j) with
    | none => match g.cur with
      | none => .go s
      | some c => (s.putRecord e out g.out c).atStep g.out
    | some (run1, r) =>
      let k := g.take run1 r.1
      let v := if run1 then v1 else v0
      let t := (s.countN (cCarder e.m 3) k.2).countClamped e.m (v.flatClamps (if run1 then g.j else g.i))
      if !sum then
        ((t.putRecord e out g.out r).atStep g.out).andThen fun u => u.mergeSteps e v0 v1 out sum n { k.1 with out := g.out + 1 }
      else match g.cur with
        | none => t.mergeSteps e v0 v1 out sum n { k.1 with cur := some r }
        | some c =>
          if c.1 = r.1 then
            let x := t.sumRecord out.d.group c r
            x.1.mergeSteps e v0 v1 out sum n { k.1 with cur := some x.2 }
          else ((t.putRecord e out g.out c).atStep g.out).andThen fun u =>
            u.mergeSteps e v0 v1 out sum n { k.1 with out := g.out + 1, cur := some r }

/-- The body of MERGE and MERGE_SUM. -/
def State.mergeBody (s : State) (e : Issue) (sum : Bool) : Out :=
  let v0 := { (e.view s false 0) with w := 64 }
  let v1 := { (e.view s false 1) with w := 64 }
  let out := { (e.view s false 2) with w := 64 }
  let s1 := s.shapeCounts e.shapes e.l e.m [v0, v1, out]
  if v0.isZero || v1.isZero || out.isZero then .go s1
  else
    let all := fun (v : View) => (List.range v.count).map v.flat
    ((s1.readElems e.img (e.agent false) v0 (all v0)).andThen fun t => t.readElems e.img (e.agent false) v1 (all v1)).andThen fun t =>
      t.mergeSteps e v0 v1 out sum (v0.count + v1.count + 1) ⟨0, 0, 0, 0, 0, none⟩

/-- MERGE (R159). -/
def execMerge (mill : Fin 144) (s : State) : Host.Outcome State Fault Refusal :=
  match s.issue mill.val 2 0x24 with
  | some e => done (s.engine e false [0, 1, 2] fun t => t.mergeBody e false)
  | none => done s
/-- MERGE_SUM (R159). -/
def execMergeSum (mill : Fin 144) (s : State) : Host.Outcome State Fault Refusal :=
  match s.issue mill.val 2 0x25 with
  | some e => done (s.engine e false [0, 1, 2] fun t => t.mergeBody e true)
  | none => done s

end Sys2Proof.Machine
end

