-- ==== Sys2Proof/Machine/Sparse.lean ====
section
/-! DEFINITION. Carders: compressed vectors, intersections, sparse feeds, structured packs, predictor unions and audits (R161-R175, R411). The operand places that the rules leave open are those of log 35. -/
namespace Sys2Proof.Machine

/-! ### Bytes relative to a descriptor's base -/

/-- A little-endian field at an offset. -/
def State.fieldOf (s : State) (e : Issue) (v : View) (off n : Nat) : Nat :=
  leNat ((List.range n).map fun i => s.fabByte e.img (e.agent false) (v.byteAt (off + i)).1)
/-- Clamped bytes among `n` at an offset. -/
def View.byteClamps (v : View) (off n : Nat) : Nat := ((List.range n).filter fun i => (v.byteAt (off + i)).2).length
/-- Read accesses of `n` bytes at an offset. -/
def State.fetchBytes (s : State) (e : Issue) (v : View) (off n : Nat) : Out :=
  (s.countClamped e.m (v.byteClamps off n)).fetch e.img (e.agent false) (some v.d.group) (!v.d.noalloc)
    ((List.range n).map fun i => (v.byteAt (off + i)).1)
/-- Write bytes at an offset. -/
def State.storeBytes (s : State) (e : Issue) (v : View) (off : Nat) (bs : List Byte) : Out :=
  (s.countClamped e.m (v.byteClamps off bs.length)).deposit e.img (e.agent false) (some v.d.group)
    (((List.range bs.length).zip bs).map fun p => ⟨(v.byteAt (off + p.1)).1, 0, 8, p.2.toNat⟩)

/-! ### BMV and IXV (R161-R163) -/

/-- Cut a list into pieces of `n`. -/
def piecesOf {α : Type} (n : Nat) : Nat → List α → List (List α)
  | 0, _ => []
  | k + 1, xs => if xs.isEmpty then [] else xs.take n :: piecesOf n k (xs.drop n)

/-- Codes packed per R35, element 0 lowest. -/
def packCodes (w : Nat) (cs : List Nat) : List Byte :=
  leBytes (cdiv (cs.length * w) 8) ((cs.reverse).foldl (fun n c => n * 2 ^ w + c % 2 ^ w) 0)

/-- Convert kept values for a vector: blocks are B consecutive kept values, and the last may be short (R38, R161). -/
def convVector (f st : Nat) (xs : List (FV × Option Nat)) : List Conv :=
  (piecesOf (if fmtBlock f = 0 then max 1 xs.length else fmtBlock f) (xs.length + 1) xs).map fun g =>
    convertOf f g.length (dec32 st) g
/-- The counts of such a conversion. -/
def storedOf (cs : List Conv) (codes : List Put) : Stored :=
  ⟨codes, [], cs.foldl (fun n c => n + c.nan) 0, cs.foldl (fun n c => n + c.inf) 0, cs.foldl (fun n c => n + c.sat) 0,
    cs.foldl (fun n c => max n c.amax) 0⟩

/-- Mask words of a vector of `n` elements. -/
def maskWords (n : Nat) (kept : List Nat) : List Byte :=
  leBytes (32 * cdiv n 256) (kept.foldl (fun m k => m + 2 ^ k) 0)
/-- Value counts of the mask words. -/
def valueCounts (n : Nat) (kept : List Nat) : List Byte :=
  (List.range (cdiv n 256)).flatMap fun s => leBytes 4 (kept.filter fun k => decide (k < 256 * s)).length

/-- A BMV vector (R162). -/
def bmvBytes (f n : Nat) (kept : List Nat) (cs : List Conv) : List Byte :=
  let head := leBytes 8 (f * 2 ^ 59 + n) ++ leBytes 8 kept.length ++ maskWords n kept ++ valueCounts n kept
  padTo (roundUp head.length 8) 0 head ++ packCodes (fmtBits f) (cs.flatMap (·.codes)) ++
    (cs.flatMap (·.scales)).map (BitVec.ofNat 8)
/-- An IXV vector (R163). -/
def ixvBytes (f n : Nat) (kept : List Nat) (cs : List Conv) : List Byte :=
  leBytes 8 (f * 2 ^ 59 + n) ++ leBytes 8 kept.length ++
    (kept.zip (cs.flatMap (·.codes))).flatMap fun p => leBytes 4 p.1 ++ leBytes 4 (if f = 1 then p.2 * 65536 else p.2)

/-- The non-zero elements of a source vector (R161): position and index. -/
def State.keptOf (s : State) (e : Issue) (v : View) : List (Nat × Ix) :=
  ((List.range v.count).map fun p => (p, v.nth p)).filter fun x => !zeroCode v.d.format (s.codeAt e.img (e.agent false) v x.2)

/-- The body of a compress into BMV, or into IXV: the source's codes are tested and kept, and then the kept values converted
and the vector written (R161). -/
def State.compressBody (s : State) (e : Issue) (ixv : Bool) : Out :=
  let ag := e.agent false
  let src := e.view s false 0
  let out := e.view s false 1
  let s1 := s.shapeCounts e.shapes e.l e.m [src, out]
  if src.isZero || out.isZero then .go s1
  else
    let f := if ixv then (if out.d.format = 1 then 1 else 0) else out.d.format
    let b := s1.beginConv e.img e.k e.site out
    let all := (List.range src.count).map src.nth
    ((b.1.countClamps e.m src all).readElems e.img ag src all).andThen fun s2 =>
      let k := s2.keptOf e src
      let xs := s2.fulls e.img ag src (k.map (·.2))
      let cs := convVector f (s2.tensorScale e.img out.di) (((List.range xs.length).zip xs).map fun q =>
        (src.convVal q.2, Draws.word b.2 q.1))
      let faults := src.badCodes (all.map (s2.codeAt e.img ag src))
      let s3 := ((s2.countFaults src faults).countFulls src out.d.group (xs.map fun x => { x with fault := false })).recordConv out
        (storedOf cs [])
      s3.storeBytes e out 0 (if ixv then ixvBytes f src.count (k.map (·.1)) cs else bmvBytes f src.count (k.map (·.1)) cs)

/-- COMPRESS_BMV (R161, R162). -/
def execCompressBmv (mill : Fin 144) (s : State) : Host.Outcome State Fault Refusal :=
  match s.issue mill.val 2 0x26 with
  | some e => done (s.engine e false [0, 1] fun t => t.compressBody e false)
  | none => done s

/-! ### PBM (R166) -/

/-- K range, block and side of a panel operation (R411, log 35). -/
structure PanelOp where
  kLo : Nat
  kHi : Nat
  blk : Nat
  isB : Bool
deriving DecidableEq, Repr

/-- Rows of a panel within the operand's extent. -/
def panelRows (v : View) (p : PanelOp) : List Nat :=
  (List.range 128).filterMap fun i =>
    let mi := 128 * (p.blk % blocksOf (v.extM p.isB)) + i
    if v.d.edgeOff || decide (mi < v.extM p.isB) then some mi else none

/-- Mask bytes of the words below K index `k`'s word, and the number of mask bits set below `k`, which is the rank of the first
kept position from `k` on (R166). -/
def State.rankBelow (s : State) (e : Issue) (msk : View) (k : Nat) : Nat :=
  ((List.range k).filter fun q => bitOf (s.fieldOf e msk (q / 8) 1) (q % 8)).length

/-- One element of a panel on its way into a values tensor: the item, the index that locates its scale, and whether its K
position is kept. -/
structure PanelItem where
  item : Item
  sc : Ix
  kept : Bool
deriving DecidableEq, Repr

/-- Convert a panel: every element of a block makes its scale, kept and left out alike, and only the kept ones are stored
(R161, R166). Without block scales the kept ones alone are converted. -/
def View.convertPanel (v : View) (st : Nat) (xs : List PanelItem) : Stored :=
  let ys := if v.blocked then xs else xs.filter (·.kept)
  let c := v.convertAt st (ys.map fun x => (x.item, x.sc))
  let order := (ys.map fun x => (x.item.pos, x.kept)).mergeSort fun a b => decide (a.1 ≤ b.1)
  { c with elems := (order.zip c.elems).filterMap fun q => if q.1.2 then some q.2 else none }

/-- The body of a compress into PBM: mask array, values and scales. -/
def State.pbmBody (s : State) (e : Issue) : Out :=
  let ag := e.agent false
  let src := e.view s false 0
  let msk := e.view s false 1
  let out := e.view s false 2
  let p : PanelOp := ⟨e.ins.op 47 16, e.ins.op 79 48, e.ins.op 95 80, bitOf e.ins.operands 96⟩
  let s1 := s.shapeCounts e.shapes e.l e.m [src, msk, out]
  if src.isZero || msk.isZero || out.isZero then .go s1
  else
    let b := s1.beginConv e.img e.k e.site out
    let io := src.outer23 (blocksOf (src.extM p.isB)) p.blk
    let oo := out.outer23 (blocksOf (out.extM p.isB)) p.blk
    let rows := panelRows src p
    let ks := (List.range (p.kHi - p.kLo)).map (p.kLo + ·)
    let ixOf := fun (mi k : Nat) => src.opIx p.isB io mi (src.d.kIndex k)
    let ixs := rows.flatMap fun mi => ks.map (ixOf mi)
    let lo := p.kLo / 256
    (((b.1.countClamps e.m src ixs).readElems e.img ag src (ixs.map src.clamp)).andThen fun s2 =>
        s2.fetchBytes e msk 0 (cdiv p.kLo 8)).andThen fun s2 =>
      let zero := fun (mi k : Nat) => zeroCode src.d.format (s2.codeAt e.img ag src (src.clamp (ixOf mi k)))
      let kept := ks.filter fun k => rows.any fun mi => !zero mi k
      let rank := fun (k : Nat) => s2.rankBelow e msk p.kLo + (kept.filter fun q => decide (q < k)).length
      let xs := s2.fulls e.img ag src (ixs.map src.clamp)
      let items := (((rows.flatMap fun mi => ks.map fun k => (mi, k)).zip xs)).map fun q =>
        let t := rank q.1.2
        let ix := out.opIx p.isB oo q.1.1 t
        ((⟨⟨128 * (q.1.2 - p.kLo) + q.1.1 % 128, out.clamp ix, src.convVal q.2, Draws.word b.2 (128 * t + q.1.1 % 128)⟩,
          out.opIx p.isB oo q.1.1 (out.d.kIndex q.1.2), kept.contains q.1.2⟩ : PanelItem), ix)
      let c := out.convertPanel (s2.tensorScale e.img out.di) (items.map (·.1))
      let outIx := (items.filter fun q => q.1.kept).map (·.2)
      let old := if p.kLo % 256 = 0 then 0 else s2.fieldOf e msk (32 * lo) 32 % 2 ^ (p.kLo % 256)
      let mask := leBytes (32 * (cdiv p.kHi 256 - lo)) (kept.foldl (fun m k => m + 2 ^ (k - 256 * lo)) old)
      let s3 := ((s2.countFulls src out.d.group xs).countClamps e.m out outIx).recordConv out c
      (s3.storeBytes e msk (32 * lo) mask).andThen fun s4 =>
        (s4.countRuns e.img ag out (outIx.map out.clamp)).deposit e.img ag (some out.d.group) (c.elems ++ c.scales)

/-- COMPRESS_IXV_PBM: FLAGS[0] chooses PBM (R163, R166). -/
def execCompressIxvPbm (mill : Fin 144) (s : State) : Host.Outcome State Fault Refusal :=
  match s.issue mill.val 2 0x27 with
  | some e => done (s.engine e false [0, 1, 2] fun t => if e.ins.flag 0 then t.pbmBody e else t.compressBody e true)
  | none => done s

/-! ### Intersection (R164, R165) -/

/-- A BMV vector as it is read: format, elements, mask, offset of the values and of the scales. -/
structure Bmv where
  fmt : Nat
  n : Nat
  nnz : Nat
deriving DecidableEq, Repr

def State.bmvOf (s : State) (e : Issue) (v : View) : Bmv :=
  ⟨s.fieldOf e v 0 8 / 2 ^ 59, s.fieldOf e v 0 4, s.fieldOf e v 8 4⟩
/-- Offsets of values and of block scales. -/
def Bmv.valuesAt (b : Bmv) : Nat := roundUp (16 + 36 * cdiv b.n 256) 8
def Bmv.scalesAt (b : Bmv) : Nat := b.valuesAt + cdiv (b.nnz * fmtBits b.fmt) 8
/-- Bytes of the whole vector. -/
def Bmv.size (b : Bmv) : Nat := b.scalesAt + (if fmtBlock b.fmt = 0 then 0 else cdiv b.nnz (fmtBlock b.fmt))
/-- The mask bit of position `p`. -/
def State.bmvBit (s : State) (e : Issue) (v : View) (p : Nat) : Bool := bitOf (s.fieldOf e v (16 + p / 8) 1) (p % 8)
/-- The offset of a position's value: the word's value count plus the mask bits below it (R164). -/
def State.bmvOffset (s : State) (e : Issue) (v : View) (b : Bmv) (p : Nat) : Nat :=
  s.fieldOf e v (16 + 32 * cdiv b.n 256 + 4 * (p / 256)) 4 +
    ((List.range (p % 256)).filter fun j => s.bmvBit e v (p / 256 * 256 + j)).length
/-- Value `o` of a vector as it is read at its value. -/
def State.bmvValue (s : State) (e : Issue) (v : View) (b : Bmv) (o : Nat) : Full :=
  let w := fmtBits b.fmt
  let bit := o * w
  let code := s.fieldOf e v (b.valuesAt + bit / 8) ((bit % 8 + w + 7) / 8) / 2 ^ (bit % 8) % 2 ^ w
  let sc := if fmtBlock b.fmt = 0 then 0 else s.fieldOf e v (b.scalesAt + o / fmtBlock b.fmt) 1
  let t := termOf b.fmt code sc
  let x := if fmtHist b.fmt then t.1.mul (dec32 (s.tensorScale e.img v.di)) else t.1
  let r := round32 x
  ⟨x, r.1, t.2, r.2⟩

/-- The dot product over matches: FP32 code, saturations. -/
def dotOf : Nat → List (Nat × Nat) → Nat × Nat
  | acc, [] => (acc, 0)
  | acc, (a, b) :: ps =>
    let m := mul32 a b
    let r := add32 acc m.1
    let t := dotOf r.1 ps
    (t.1, t.2 + b2n m.2 + b2n r.2)

/-- The matches of mask-word pair `w` of two vectors, ascending, over the first `n` positions. -/
def State.wordMatches (s : State) (e : Issue) (va vb : View) (n w : Nat) : List Nat :=
  ((List.range (min 256 (n - 256 * w))).map (256 * w + ·)).filter fun p => s.bmvBit e va p && s.bmvBit e vb p

/-- The dot mode of an intersection (R165). -/
def State.dotBody (s : State) (e : Issue) (va vb out : View) (a b : Bmv) : Out :=
  let n := min a.n b.n
  let ms := (List.range (cdiv n 256)).flatMap (s.wordMatches e va vb n)
  let xs := ms.map fun p => (s.bmvValue e va a (s.bmvOffset e va a p), s.bmvValue e vb b (s.bmvOffset e vb b p))
  let r := dotOf 0 (xs.map fun x => (x.1.code, x.2.code))
  let g := out.d.group
  let x := out.elem (out.flat 0)
  let t := ((s.countFulls va g (xs.map (·.1))).countFulls vb g (xs.map (·.2))).countClamped e.m (out.flatClamps 0)
  (((t.countN (cGroup g 0) (b2n (dec32 r.1).isNan)).countN (cGroup g 1) (b2n (dec32 r.1).isInf)).countN (cGroup g 2)
    r.2).deposit e.img (e.agent false) (some g) [⟨x.1, x.2.1, 32, r.1⟩]

/-- The position mode: the matches of each mask-word pair are written before the next pair is read (R150, R164, R165); `q` counts
the positions written. -/
def State.positionSteps (s : State) (e : Issue) (va vb out : View) (n : Nat) : Nat → List Nat → Out
  | _, [] => .go s
  | q, w :: ws =>
    let ms := s.wordMatches e va vb n w
    let c := (List.range ms.length).foldl (fun k i => k + out.flatClamps (q + i)) 0
    (((s.countClamped e.m c).deposit e.img (e.agent false) (some out.d.group) (((List.range ms.length).zip ms).map fun x =>
      let a := out.elem (out.flat (q + x.1)); ⟨a.1, a.2.1, 32, x.2⟩)).atStep w).andThen fun t =>
      t.positionSteps e va vb out n (q + ms.length) ws

/-- The body of an intersection; FLAGS[0] chooses dot mode. -/
def State.intersectBody (s : State) (e : Issue) : Out :=
  let va := e.view s false 0
  let vb := e.view s false 1
  let out := { (e.view s false 2) with w := 32 }
  let s1 := s.shapeCounts e.shapes e.l e.m [va, vb, out]
  if va.isZero || vb.isZero || out.isZero then .go s1
  else
    let a := s1.bmvOf e va
    let b := s1.bmvOf e vb
    ((s1.fetchBytes e va 0 a.size).andThen fun s2 => s2.fetchBytes e vb 0 b.size).andThen fun s3 =>
      if e.ins.flag 0 then s3.dotBody e va vb out a b
      else s3.positionSteps e va vb out (min a.n b.n) 0 (List.range (cdiv (min a.n b.n) 256))

/-- INTERSECTION (R164). -/
def execIntersection (mill : Fin 144) (s : State) : Host.Outcome State Fault Refusal :=
  match s.issue mill.val 2 0x28 with
  | some e => done (s.engine e false [0, 1, 2] fun t => t.intersectBody e)
  | none => done s

/-! ### Sparse feed (R167, R411) -/

/-- The other operand of the paired PASS is B: the Stone PASS of this Mill with sparsity 5 that names descriptor `di`
as its other operand tells. -/
def Image.feedSideB (img : Image) (l di : Nat) : Bool :=
  let ps := [0, 1].flatMap fun k => match img.stream l k with
    | none => []
    | some r => (List.range r.count).filterMap fun i =>
      let x := r.at i
      let p := PassOp.of x
      if x.opcode = 0x10 ∧ p.sparsity = 5 ∧ x.dIdx (if p.sparseB then 0 else 1) = di then some (!p.sparseB) else none
  ps.headD true

/-- The body of a sparse feed. The gathered slices stand in the order of the scan, and each block scale at the absolute block of
K, as the PBM operand's own do (R166, R169, log 35). -/
def State.feedBody (s : State) (e : Issue) : Out :=
  let msk := e.view s false 0
  let src := e.view s false 1
  let out := e.view s false 2
  let p : PanelOp := ⟨e.ins.op 47 16, e.ins.op 79 48, e.ins.op 95 80, e.img.feedSideB e.l (e.ins.dIdx 2)⟩
  let s1 := s.shapeCounts e.shapes e.l e.m [msk, src, out]
  if msk.isZero || src.isZero || out.isZero then .go s1
  else
    let ks := (List.range (p.kHi - p.kLo)).map (p.kLo + ·)
    (s1.fetchBytes e msk 0 (32 * cdiv p.kHi 256)).andThen fun s2 =>
      let kept := ks.filter fun k => bitOf (s2.fieldOf e msk (k / 8) 1) (k % 8)
      let r0 := s2.rankBelow e msk p.kLo
      let io := src.outer23 (blocksOf (src.extM p.isB)) p.blk
      let oo := out.outer23 (blocksOf (out.extM p.isB)) p.blk
      let sLo := 128 * (p.blk % blocksOf (src.extM p.isB))
      let oLo := 128 * (p.blk % blocksOf (out.extM p.isB))
      let raw := ((List.range kept.length).zip kept).flatMap fun q => (panelRows src p).map fun mi =>
        let row := oLo + (mi - sLo)
        (src.opIx p.isB io mi (src.d.kIndex q.2), out.opIx p.isB oo row q.1, out.opIx p.isB oo row (out.d.kIndex q.2))
      let ms := ((List.range raw.length).zip raw).map fun q => (⟨src.clamp q.2.1, q.2.2.1, q.1, q.2.2.2⟩ : Move)
      let same := src.d.format == out.d.format
      let b := if same then (s2, none) else s2.beginConv e.img e.k e.site out
      (((b.1.countClamps e.m src (raw.map (·.1))).countClamps e.m out (raw.map (·.2.1))).readElems e.img (e.agent false) src
        (ms.map (·.src))).andThen fun s3 =>
        (s3.moveInto e.img (e.agent false) src out same b.2 ms).andThen fun s4 =>
          match e.img.raceUse e.owner e.kind false (e.ins.race 2) with
          | none => .go s4
          | some u => .go { s4 with feeds := NMap.set [] s4.feeds u.key (NMap.get [] s4.feeds u.key ++
              [((List.range kept.length).zip kept).map fun q => (q.2, r0 + q.1)]) }

/-- SPARSE_FEED (R411). -/
def execSparseFeed (mill : Fin 144) (s : State) : Host.Outcome State Fault Refusal :=
  match s.issue mill.val 2 0x29 with
  | some e => done (s.engine e false [0, 1, 2] fun t => t.feedBody e)
  | none => done s

/-! ### Structured pack (R170-R173) -/

/-- Positions kept of a nibble, ascending, and whether the nibble named the right number; positions made up are marked
false (R172). -/
def keptOfNibble (keep nib : Nat) : List (Nat × Bool) × Bool :=
  let on := (List.range 4).filter fun j => bitOf nib j
  let off := (List.range 4).filter fun j => !bitOf nib j
  let sel := (on.take keep).map (fun j => (j, true)) ++ (off.take (keep - on.length)).map (fun j => (j, false))
  ((List.range 4).filterMap fun j => (sel.filter fun x => x.1 == j).head?, on.length != keep)

/-- One packed form: the dense weight read in groups along K (or, transposed, along N). -/
structure PackForm where
  keep : Nat
  trans : Bool
  vals : View
  poss : View
deriving DecidableEq, Repr

/-- Dense index of (row `o`, group position `k`): for the forward form `k` runs along K. -/
def PackForm.denseIx (f : PackForm) (src : View) (io : Nat × Nat) (o k : Nat) : Ix :=
  if f.trans then src.opIx true io k o else src.opIx true io o k
/-- The mask nibble of group `g` of row `o`: the forward nibble, or the four forward bits across a transposed group. -/
def State.nibble (s : State) (e : Issue) (f : PackForm) (msk : View) (io : Nat × Nat) (o g : Nat) : Nat :=
  if f.trans then
    (List.range 4).foldl (fun n j =>
      n + b2n (bitOf (s.codeAt e.img (e.agent false) msk (msk.clamp (msk.opIx true io (4 * g + j) (o / 4)))) (o % 4)) * 2 ^ j) 0
  else s.codeAt e.img (e.agent false) msk (msk.clamp (msk.opIx true io o g))

/-- One value of a packed form: row, dense index, value index, position code, kept. -/
structure PackVal where
  row : Nat
  k : Nat
  q : Nat
  code : Nat
  real : Bool
deriving DecidableEq, Repr

/-- The values of a form for one (i2, i3), with the number of faulty nibbles. -/
def State.packVals (s : State) (e : Issue) (f : PackForm) (msk : View) (io : Nat × Nat) (rows groups : Nat) : List PackVal × Nat :=
  let xs := (List.range rows).flatMap fun o => (List.range groups).map fun g => (o, g, keptOfNibble f.keep (s.nibble e f msk io o g))
  (xs.flatMap fun x => ((List.range x.2.2.1.length).zip x.2.2.1).map fun p =>
      (⟨x.1, 4 * x.2.1 + p.2.1, x.2.1 * f.keep + p.1, p.2.1, p.2.2⟩ : PackVal),
    (xs.filter fun x => x.2.2.2).length)

/-- The values of a form over every (i2, i3) of the source. -/
def State.packed (s : State) (e : Issue) (src msk : View) (f : PackForm) : List ((Nat × Nat) × List PackVal × Nat) :=
  let rows := if f.trans then src.extK true else src.extM true
  let groups := (if f.trans then src.extM true else src.extK true) / 4
  ((List.range src.ext.i3).flatMap fun i3 => (List.range src.ext.i2).map fun i2 => (i2, i3)).map fun io =>
    (io, s.packVals e f msk io rows groups)

/-- Non-zero values of the source outside the mask (R171). -/
def State.packDiscards (s : State) (e : Issue) (src : View) (f : PackForm) (per : List ((Nat × Nat) × List PackVal × Nat)) : Nat :=
  per.foldl (fun n x =>
    let kept := x.2.1.filter (·.real)
    n + ((List.range (src.extM true)).flatMap fun o => (List.range (src.extK true / 4 * 4)).filter fun k =>
      !zeroCode src.d.format (s.codeAt e.img (e.agent false) src (f.denseIx src x.1 o k)) &&
        !kept.any fun v => v.row == o && v.k == k).length) 0

/-- Write one packed form: values with the scale of each absolute block of K, and positions. -/
def State.packForm (s : State) (e : Issue) (src msk : View) (f : PackForm) (dr : Option Draws) : Out :=
  let ag := e.agent false
  let per := s.packed e src msk f
  let vs := per.flatMap fun x => x.2.1.map fun v => (x.1, v)
  let xs := s.fulls e.img ag src (vs.map fun q => f.denseIx src q.1 q.2.row q.2.k)
  let raw := vs.map fun q => f.vals.opIx true q.1 q.2.row q.2.q
  let items := (vs.zip (raw.zip xs)).map fun q =>
    let ix := f.vals.clamp q.2.1
    let lin := ((ix.i3 * f.vals.ext.i2 + ix.i2) * f.vals.ext.i1 + ix.i1) * f.vals.ext.i0 + ix.i0
    ((⟨lin, ix, if q.1.2.real then src.convVal q.2.2 else .zero false, Draws.word dr lin⟩ : Item),
      f.vals.opIx true q.1.1 q.1.2.row q.1.2.k)
  let rawPos := vs.map fun q => f.poss.opIx true q.1 q.2.row q.2.q
  let poss := (rawPos.zip vs).map fun q => let a := f.poss.elem (f.poss.clamp q.1); (⟨a.1, a.2.1, 2, q.2.2.code⟩ : Put)
  let t := ((s.countN (cCarder e.m 5) (per.foldl (fun n x => n + x.2.2) 0)).countN (cCarder e.m 4)
    (if f.trans then 0 else s.packDiscards e src f per)).countFulls src f.vals.d.group
      (((vs.zip xs).filter fun q => q.1.2.real).map fun q => { q.2 with fault := false })
  (((t.countClamps e.m f.vals raw).countClamps e.m f.poss rawPos).storeItems e.img ag f.vals items).andThen fun u =>
    (u.countRuns e.img ag f.poss (rawPos.map f.poss.clamp)).deposit e.img ag (some f.poss.d.group) poss

/-- The body of a structured pack: FLAGS[0] names 1:4, FLAGS[1] a transposable mask. The chapter gives its element steps no
order: both inputs are read before the first write (log 35). -/
def State.packBody (s : State) (e : Issue) : Out :=
  let ag := e.agent false
  let src := e.view s false 0
  let msk := { (e.view s false 1) with w := 4 }
  let keep := if e.ins.flag 0 then 1 else 2
  let f : PackForm := ⟨keep, false, e.view s false 2, { (e.view s false 3) with w := 2 }⟩
  let t : PackForm := ⟨keep, true, e.desc (e.ins.op 15 0), { (e.desc (e.ins.op 31 16)) with w := 2 }⟩
  let vs := [src, msk, f.vals, f.poss] ++ if e.ins.flag 1 then [t.vals, t.poss] else []
  let s1 := s.shapeCounts e.shapes e.l e.m vs
  if vs.any View.isZero then .go s1
  else
    let all := fun (v : View) => (List.range v.count).map v.nth
    (((s1.countClamps e.m src (all src)).readElems e.img ag src (all src)).andThen fun s2 =>
      (s2.countClamps e.m msk (all msk)).readElems e.img ag msk (all msk)).andThen fun s3 =>
      let b := s3.beginConv e.img e.k e.site f.vals
      ((b.1.countFaults src (src.badCodes ((all src).map (b.1.codeAt e.img ag src)))).packForm e src msk f b.2).andThen fun s4 =>
        if e.ins.flag 1 then
          let c := s4.beginConv e.img e.k e.site t.vals
          c.1.packForm e src msk t c.2
        else .go s4

/-- STRUCTURED_PACK (R171). -/
def execStructuredPack (mill : Fin 144) (s : State) : Host.Outcome State Fault Refusal :=
  match s.issue mill.val 2 0x2A with
  | some e => done (s.engine e false [0, 1, 2, 3] fun t => t.packBody e)
  | none => done s

/-! ### Predictor union and audit (R174, R175) -/

/-- A score above a threshold. -/
def aboveTheta (theta : Nat) (x : Full) : Bool := (dec32 theta).lt x.exact && !x.exact.isNan
/-- The neurons of row `t` of a score tensor that are above a threshold. -/
def State.activeIn (s : State) (e : Issue) (v : View) (theta n t : Nat) : List Nat :=
  (((List.range n).zip (s.fulls e.img (e.agent false) v ((List.range n).map fun i => v.clamp ⟨i, t, 0, 0⟩))).filter fun q =>
    aboveTheta theta q.2).map (·.1)
/-- Read rows of a score tensor: accesses, clamps and code faults. -/
def State.readScores (s : State) (e : Issue) (v : View) (n : Nat) (toks : List Nat) : Out :=
  let raw := toks.flatMap fun t => (List.range n).map fun i => (⟨i, t, 0, 0⟩ : Ix)
  ((s.countClamps e.m v raw).readElems e.img (e.agent false) v (raw.map v.clamp)).andThen fun t =>
    .go (t.countValues v (t.fulls e.img (e.agent false) v (raw.map v.clamp)))

/-- The body of a predictor union over one tile of 128 tokens: the union as a mask array in D1, or, with FLAGS[0], +0 into the
elements of D2 that are in the union and not predicted for their token. R174 gives this second write no encoding of its own:
the flag, the tile in OPERANDS[63:48] and the rank in the union as D2's neuron index are the model's (log 35). -/
def State.unionBody (s : State) (e : Issue) : Out :=
  let v := e.view s false 0
  let msk := e.view s false 1
  let act := e.view s false 2
  let theta := e.ins.op 47 16
  let lo := 128 * e.ins.op 63 48
  let vs := if e.ins.flag 0 then [v, act] else [v, msk]
  let s1 := s.shapeCounts e.shapes e.l e.m vs
  if vs.any View.isZero then .go s1
  else
    let n := v.ext.i0
    let toks := ((List.range 128).map (lo + ·)).filter fun t => decide (t < v.ext.i1)
    (s1.readScores e v n toks).andThen fun s2 =>
      let on := toks.map fun t => (t, s2.activeIn e v theta n t)
      let un := distinct (on.flatMap (·.2))
      if e.ins.flag 0 then
        let raw := on.flatMap fun x => ((List.range un.length).zip un).filterMap fun q =>
          if x.2.contains q.2 then none else some (⟨q.1, x.1, 0, 0⟩ : Ix)
        ((s2.countClamps e.m act raw).countRuns e.img (e.agent false) act (raw.map act.clamp)).deposit e.img (e.agent false)
          (some act.d.group) (raw.map fun i => let a := act.elem (act.clamp i); ⟨a.1, a.2.1, act.w, 0⟩)
      else s2.storeBytes e msk 0 (maskWords n un)

/-- PREDICTOR_UNION (R174). -/
def execPredictorUnion (mill : Fin 144) (s : State) : Host.Outcome State Fault Refusal :=
  match s.issue mill.val 2 0x2B with
  | some e => done (s.engine e false [0, 1, 2] fun t => t.unionBody e)
  | none => done s

/-- The audit set of a micro-batch of `n` tokens: those with t mod A = step mod A, A = 2^a; a over 10 is the default 6 (R175). -/
def auditSet (a step n : Nat) : List Nat :=
  let m := 2 ^ (if 10 < a then 6 else a)
  (List.range n).filter fun t => t % m == step % m

/-- The body of an audit compare: D0 the full pre-activations, one row for each audited token of the tile, and D1 the
predictor's scores, one row for each token of the micro-batch. R175 gives no encoding: the truth threshold in OPERANDS[47:16],
the prediction threshold in [79:48], a in [83:80] and the audit tile in [99:84] are the model's (log 35). -/
def State.auditBody (s : State) (e : Issue) : Out :=
  let v := e.view s false 0
  let pr := e.view s false 1
  let s1 := s.shapeCounts e.shapes e.l e.m [v, pr]
  if v.isZero || pr.isZero then .go s1
  else
    let n := v.ext.i0
    let toks := ((auditSet (e.ins.op 83 80) s.run.step pr.ext.i1).drop (128 * e.ins.op 99 84)).take 128
    ((s1.readScores e v n (List.range toks.length)).andThen fun s2 => s2.readScores e pr n toks).andThen fun s3 =>
      let missed := ((List.range toks.length).zip toks).foldl (fun k t =>
        let p := s3.activeIn e pr (e.ins.op 79 48) n t.2
        k + ((s3.activeIn e v (e.ins.op 47 16) n t.1).filter fun x => !p.contains x).length) 0
      .go ((s3.countN (cCarder e.m 6) toks.length).countN (cCarder e.m 7) missed)

/-- AUDIT_COMPARE (R175). -/
def execAuditCompare (mill : Fin 144) (s : State) : Host.Outcome State Fault Refusal :=
  match s.issue mill.val 2 0x2C with
  | some e => done (s.engine e false [0, 1] fun t => t.auditBody e)
  | none => done s

end Sys2Proof.Machine
end

