-- ==== Sys2Proof/Machine/Routing.lean ====
section
/-! DEFINITION. Expert routing: rank, place, dispatch pack, receive compact and combine (R179-R191). The places that the rules leave open are those of log 36. -/
namespace Sys2Proof.Machine

/-! ### exp_fp32 (R184) -/

/-- Terms of the exponential series in fixed point with 320 fraction bits: `n` more terms, the latest being `t`, the
`i`-th. -/
def expSeries (y : Nat) : Nat → Nat → Nat → Nat
  | 0, _, _ => 0
  | n + 1, i, t => t + expSeries y n (i + 1) (t * y / 2 ^ 320 / (i + 1))
/-- `n` squarings in that fixed point. -/
def expSquare : Nat → Nat → Nat
  | 0, v => v
  | n + 1, v => expSquare n (v * v / 2 ^ 320)
/-- e^x for |x| ≤ 128, with 320 fraction bits: the series at x / 256, then eight squarings. -/
def expFix (neg : Bool) (num den : Nat) (e : Int) : Nat :=
  let p := scaled num den (e + 312)
  let v := expSquare 8 (expSeries (p.1 / p.2) 64 0 (2 ^ 320))
  if neg then 2 ^ 640 / v else v

/-- The correctly rounded FP32 value of e^x, and whether it saturated (R47, R184). -/
def exp32 (x : Nat) : Nat × Bool :=
  match dec32 x with
  | .nan => (ffFP32.nanCode, false)
  | .inf neg => if neg then (0, false) else (x, false)
  | .fin neg num den e =>
    if (FV.ofNat 128).magLt (.fin false num den e) then round32 (.fin false 1 1 (if neg then -200 else 200))
    else round32 (.fin false (expFix neg num den e) 1 (-320))

/-! ### What a router's operations read -/

/-- Entry `p` of a UINT32 list. -/
def State.uintAt (s : State) (img : Image) (ag : Agent) (v : View) (p : Nat) : Nat :=
  if v.d.format = 0x0D then s.codeAt img ag v (v.flat p)
  else (toUint32 .rne (s.fullAt img ag v (s.tensorScale img v.di) (v.flat p)).exact).1
/-- Read the first `n` entries of a flat list: accesses, clamps and code faults. -/
def State.fetchList (s : State) (e : Issue) (v : View) (n : Nat) : Out :=
  ((s.countClamped e.m ((List.range n).foldl (fun k p => k + v.flatClamps p) 0)).fetch e.img (e.agent false) (some v.d.group)
    (!v.d.noalloc) ((List.range n).flatMap fun p => v.bytesOf (v.flat p))).andThen fun t =>
      .go (t.countValues v (t.fulls e.img (e.agent false) v ((List.range n).map v.flat)))

/-- The quotas q_e as an agent reads them, with the shape registers of logical Mill `l`. -/
def State.quotasOf (s : State) (img : Image) (ag : Agent) (l : Nat) (r : RouterDef) : List Nat :=
  (List.range r.e).map (s.uintAt img ag (s.view img l r.quota none))
/-- The quotas as an instruction's Carder reads them. -/
def State.quotas (s : State) (e : Issue) (r : RouterDef) : List Nat :=
  (List.range r.e).map (s.uintAt e.img (e.agent false) (e.desc r.quota))
/-- The prefix sums QOFF. -/
def prefixSums : Nat → List Nat → List Nat
  | _, [] => []
  | a, q :: qs => a :: prefixSums (a + q) qs

/-! ### Rank (R180-R182) -/

/-- A candidate: expert, key, raw logit. -/
structure Cand where
  ex : Nat
  key : Nat
  raw : Nat
deriving DecidableEq, Repr

/-- Insert a candidate below every one whose key is not smaller. -/
def insertCand (c : Cand) : List Cand → List Cand
  | [] => [c]
  | x :: xs => if (dec32 x.key).lt (dec32 c.key) then c :: x :: xs else x :: insertCand c xs
/-- The best `d` candidates, from highest to lowest. -/
def rankCands (d : Nat) (cs : List Cand) : List Cand := cs.foldl (fun l c => (insertCand c l).take d) []

/-- The 64 bytes of a ranked list; no valid entry for a token that is not ranked. -/
def rankedList (cs : List Cand) : List Byte :=
  padTo 64 0 (cs.flatMap fun c => leBytes 4 (2 ^ 31 + c.ex) ++ leBytes 4 c.raw)

/-- The candidates of a token: its logits with the biases added, and the saturations. -/
def candsOf (logits : List Nat) (bias : Option (List Nat)) : List Cand × Nat :=
  let keys : List (Nat × Bool) := match bias with
    | none => logits.map fun l => (l, false)
    | some bs => (logits.zip bs).map fun p => add32 p.1 p.2
  (((List.range logits.length).zip (keys.zip logits)).map fun p => ⟨p.1, p.2.1.1, p.2.2⟩, (keys.filter (·.2)).length)

/-- The logits of a token as FP32 codes. -/
def State.logitsOf (s : State) (e : Issue) (r : RouterDef) (lg : View) (t : Nat) : List Full :=
  s.fulls e.img (e.agent false) lg ((List.range r.e).map fun x => lg.clamp (lg.rowIx t x))
/-- Read the logits of tokens: accesses, clamps, code faults, and the saturations in group `g`. -/
def State.readLogits (s : State) (e : Issue) (r : RouterDef) (lg : View) (g n : Nat) : Out :=
  let raw := (List.range n).flatMap fun t => (List.range r.e).map fun x => lg.rowIx t x
  ((s.countClamps e.m lg raw).readElems e.img (e.agent false) lg (raw.map lg.clamp)).andThen fun u =>
    .go (u.countFulls lg g ((List.range n).flatMap (u.logitsOf e r lg)))

/-- Rank one token: its list is written; a non-finite logit or key leaves it unranked. -/
def State.rankToken (s : State) (e : Issue) (num : Nat) (r : RouterDef) (lg out : View) (bias : Option (List Nat)) (t : Nat) : Out :=
  let c := candsOf ((s.logitsOf e r lg t).map (·.code)) bias
  let bad := c.1.any fun x => !(dec32 x.key).isFinite || !(dec32 x.raw).isFinite
  let s1 := s.countN (cGroup out.d.group 2) c.2
  let s2 := if bad then s1.count (cRouter num 3) else s1
  s2.storeBytes e out (64 * t) (rankedList (if bad then [] else rankCands r.d c.1))
def State.rankTokens (s : State) (e : Issue) (num : Nat) (r : RouterDef) (lg out : View) (bias : Option (List Nat)) : List Nat → Out
  | [] => .go s
  | t :: ts => ((s.rankToken e num r lg out bias t).atStep t).andThen fun u => u.rankTokens e num r lg out bias ts

/-- The body of a rank operation: logits rows in D0 (the router's when it names none), ranked lists in D1. -/
def State.rankBody (s : State) (e : Issue) : Out :=
  match e.img.router (e.ins.op 5 0) with
  | none => .go s
  | some r =>
    let lg := if e.ins.dIdx 0 = 0xFFFF then e.desc r.logits else e.view s false 0
    let out := e.view s false 1
    let bv := if r.bias = 0xFFFF then none else some (e.desc r.bias)
    let vs := lg :: out :: bv.toList
    let s1 := s.shapeCounts e.shapes e.l e.m vs
    if vs.any View.isZero then .go s1
    else
      ((s1.readLogits e r lg out.d.group lg.rows).andThen fun s2 => match bv with
        | none => .go s2
        | some b => (s2.fetchList e b r.e).andThen fun t =>
          .go (t.countFulls b out.d.group ((t.fulls e.img (e.agent false) b ((List.range r.e).map b.flat)).map fun x =>
            { x with fault := false }))).andThen fun s3 =>
        s3.rankTokens e r.num r lg out
          (bv.map fun b => (s3.fulls e.img (e.agent false) b ((List.range r.e).map b.flat)).map (·.code)) (List.range lg.rows)

/-- RANK (R180). -/
def execRank (mill : Fin 144) (s : State) : Host.Outcome State Fault Refusal :=
  match s.issue mill.val 2 0x30 with
  | some e => done (s.engine e false [0, 1] fun t => t.rankBody e)
  | none => done s

/-! ### Place (R183-R186, R190) -/

/-- A placed slot: expert, position, raw logit. -/
structure Placed where
  ex : Nat
  pos : Nat
  raw : Nat
deriving DecidableEq, Repr

/-- Look for an expert with room among the candidates left: the slot, the candidates after it, the counts of rows placed,
and the candidates found full. -/
def placeSlot (quota : List Nat) : List (Nat × Nat) → NMap Nat → Option Placed × List (Nat × Nat) × NMap Nat × Nat
  | [], used => (none, [], used, 0)
  | (x, l) :: cs, used =>
    let u := NMap.get 0 used x
    if u < quota.getD x 0 then (some ⟨x, u, l⟩, cs, NMap.set 0 used x (u + 1), 0)
    else
      let r := placeSlot quota cs used
      (r.1, r.2.1, r.2.2.1, r.2.2.2 + 1)
/-- `k` slots of a token. -/
def placeSlots (quota : List Nat) : Nat → List (Nat × Nat) → NMap Nat → List (Option Placed) × NMap Nat × Nat
  | 0, _, used => ([], used, 0)
  | k + 1, cs, used =>
    let r := placeSlot quota cs used
    let t := placeSlots quota k r.2.1 r.2.2.1
    (r.1 :: t.1, t.2.1, t.2.2 + r.2.2.2)

/-- The largest of some FP32 values. -/
def max32 : List Nat → Nat
  | [] => 0
  | x :: xs => xs.foldl (fun m y => if (dec32 m).lt (dec32 y) then y else m) x
/-- A sum with one rounding for each addition, and its saturations. -/
def sum32 : List Nat → Nat × Nat
  | [] => (0, 0)
  | x :: xs => xs.foldl (fun a y => let r := add32 a.1 y; (r.1, a.2 + b2n r.2)) (x, 0)
/-- exp_fp32(round_fp32(l − m)) and its saturations. -/
def expDiff (m l : Nat) : Nat × Nat :=
  let d := sub32 l m
  let r := exp32 d.1
  (r.1, b2n d.2 + b2n r.2)
/-- round_fp32(1 / round_fp32(1 + exp_fp32(−l))) and its saturations. -/
def sigmoid32 (l : Nat) : Nat × Nat :=
  let x := exp32 (l ^^^ 2 ^ 31)
  let y := add32 one32 x.1
  let r := div32 one32 y.1
  (r.1, b2n x.2 + b2n y.2 + b2n r.2)

/-- Gate weights of the placed logits, in slot order, and the saturations (R184); `all` holds the token's E logits in
mode 0. -/
def gateWeights (mode : Nat) (all ls : List Nat) : List Nat × Nat :=
  let m := if mode = 0 then max32 all else max32 ls
  let us := if mode = 2 then ls.map sigmoid32 else ls.map (expDiff m)
  let ts := if mode = 0 then all.map (expDiff m) else us
  let sm := sum32 (ts.map (·.1))
  let gs := us.map fun u => div32 u.1 sm.1
  (gs.map (·.1), (us.foldl (fun n u => n + u.2) 0) + (if mode = 0 then ts.foldl (fun n u => n + u.2) 0 else 0) + sm.2 +
    (gs.filter (·.2)).length)

/-- Spread the weights of the placed slots over all slots; an unplaced slot has none. -/
def spreadGates : List (Option Placed) → List Nat → List (Option (Placed × Nat))
  | [], _ => []
  | none :: ss, gs => none :: spreadGates ss gs
  | some x :: ss, gs => some (x, gs.headD 0) :: spreadGates ss (gs.drop 1)

/-- A token's tag (R185). -/
def tokenTag (dev mb t j : Nat) : Nat := dev % 2 ^ 13 * 2 ^ 19 + mb % 8 * 2 ^ 16 + t % 2 ^ 13 * 8 + j % 8
/-- One dispatch record (R186). -/
def dispatchRecord (tag : Nat) : Option (Placed × Nat) → List Byte
  | none => leBytes 16 0
  | some (x, g) => leBytes 4 tag ++ leBytes 4 g ++ leBytes 8 (2 ^ 31 + x.ex % 2 ^ 10 + x.pos % 2 ^ 16 * 2 ^ 48)

/-- What placement carries from token to token. -/
structure Placing where
  used : NMap Nat
  sums : NMap Nat
  cascade : Nat
  unplaced : Nat
  dropped : Nat
  sat : Nat
  recs : List (List Byte)
deriving DecidableEq, Repr

/-- Add a placed slot's gate to its expert's sum. -/
def Placing.addGate (p : Placing) (x : Option (Placed × Nat)) : Placing := match x with
  | none => p
  | some (sl, g) =>
    let r := add32 (NMap.get 0 p.sums sl.ex) g
    { p with sums := NMap.set 0 p.sums sl.ex r.1, sat := p.sat + b2n r.2 }

/-- Valid candidates of a ranked list: expert and raw logit, up to the first invalid entry. -/
def listCands (d : Nat) (bs : List Byte) : List (Nat × Nat) :=
  (((List.range d).map fun j => (fieldAt bs (8 * j) 4, fieldAt bs (8 * j + 4) 4)).takeWhile fun x => bitOf x.1 31).map
    fun x => (x.1 % 2 ^ 10, x.2)

/-- Place one token. -/
def Placing.token (p : Placing) (r : RouterDef) (quota : List Nat) (dev mb t : Nat) (list : List Byte) (all : List Nat) : Placing :=
  let x := placeSlots quota r.k (listCands r.d list) p.used
  let placed := x.1.filterMap id
  let g := if placed.isEmpty then ([], 0) else gateWeights r.gate all (placed.map (·.raw))
  let slots := spreadGates x.1 g.1
  let q := slots.foldl Placing.addGate p
  { q with
    used := x.2.1, cascade := p.cascade + x.2.2, unplaced := p.unplaced + (r.k - placed.length)
    dropped := p.dropped + b2n placed.isEmpty, sat := q.sat + g.2
    recs := p.recs ++ [((List.range r.k).zip slots).flatMap fun y => dispatchRecord (tokenTag dev mb t y.1) y.2] }

/-- Micro-batch whose forward phase runs, as a routing operation takes it (log 36). -/
def State.routeMb (s : State) : Nat := s.run.gated % 8

/-- Bytes of the statistics entries of a micro-batch: address and contents (R190). -/
def statPuts (r : RouterDef) (mb : Nat) (used sums : NMap Nat) : List Put :=
  (List.range r.e).flatMap fun x => [⟨r.stats + 64 * x + 8 * mb, 0, 32, NMap.get 0 used x⟩,
    ⟨r.stats + 64 * x + 8 * mb + 4, 0, 32, NMap.get 0 sums x⟩]

/-- Place the tokens of a micro-batch, from lists already read. -/
def State.placeTokens (s : State) (e : Issue) (r : RouterDef) (lists recs lg : View) (mb rows : Nat) : Out :=
  let quota := s.quotas e r
  let p := (List.range rows).foldl (fun (p : Placing) t =>
    p.token r quota s.wheel.device mb t ((List.range 64).map fun i => s.fabByte e.img (e.agent false) (lists.byteAt (64 * t + i)).1)
      (if r.gate = 0 then (s.logitsOf e r lg t).map (·.code) else []))
    ⟨[], [], 0, 0, 0, 0, []⟩
  let s1 := (((s.countN (cRouter r.num 0) p.cascade).countN (cRouter r.num 1) p.unplaced).countN (cRouter r.num 2) p.dropped).countN
    (cGroup recs.d.group 2) p.sat
  (s1.storeBytes e recs 0 p.recs.flatten).andThen fun s2 =>
    s2.deposit e.img (e.agent false) (some recs.d.group) (statPuts r mb p.used p.sums)

/-- The body of a place operation: ranked lists in D0, dispatch records in D1; its tokens are the rows of the router's
logits descriptor. A zero shape still clears its statistics (R183). -/
def State.placeBody (s : State) (e : Issue) : Out :=
  match e.img.router (e.ins.op 5 0) with
  | none => .go s
  | some r =>
    let lg := e.desc r.logits
    let lists := e.view s false 0
    let recs := e.view s false 1
    let quota := e.desc r.quota
    let mb := s.routeMb
    let vs := [lg, lists, recs, quota]
    let s1 := s.shapeCounts e.shapes e.l e.m vs
    if vs.any View.isZero then s1.deposit e.img (e.agent false) (some recs.d.group) (statPuts r mb [] [])
    else
      ((s1.fetchBytes e lists 0 (64 * lg.rows)).andThen fun s2 =>
        (s2.fetchList e quota r.e).andThen fun s3 =>
          if r.gate = 0 then s3.readLogits e r lg recs.d.group lg.rows else .go s3).andThen fun s4 =>
        s4.placeTokens e r lists recs lg mb lg.rows

/-- PLACE (R183). -/
def execPlace (mill : Fin 144) (s : State) : Host.Outcome State Fault Refusal :=
  match s.issue mill.val 2 0x31 with
  | some e => done (s.engine e false [0, 1] fun t => t.placeBody e)
  | none => done s

/-! ### Rows and their tags (R187, R263) -/

/-- One dispatch record as read: tag, gate, expert, position; none when it is not valid. -/
structure Rec where
  tag : Nat
  gate : Nat
  ex : Nat
  pos : Nat
deriving DecidableEq, Repr

def Rec.parse (bs : List Byte) : Option Rec :=
  let w := fieldAt bs 8 8
  if bitOf w 31 then some ⟨fieldAt bs 0 4, fieldAt bs 4 4, w % 2 ^ 10, bitsOf w 63 48⟩ else none
/-- Record of slot `j` of row `t` in a view. -/
def State.recAt (s : State) (e : Issue) (v : View) (k t j : Nat) : Option Rec :=
  Rec.parse ((List.range 16).map fun i => s.fabByte e.img (e.agent false) (v.byteAt (16 * (k * t + j) + i)).1)

/-- Row of a send buffer that holds position POS of (expert, micro-batch). -/
def sendRow (quota : List Nat) (mb ex pos : Nat) : Nat :=
  mb * quota.foldl (· + ·) 0 + (prefixSums 0 quota).getD ex 0 + pos
/-- Offset of the tags of a send or return buffer from its base: they follow the rows of eight micro-batches, 8 bytes a
row, with the tag in [31:0] and the expert in [63:32] (log 36). -/
def tagsOff (stride : Nat) (quota : List Nat) : Nat := stride * (8 * quota.foldl (· + ·) 0)

/-! ### Dispatch pack (R187) -/

/-- Write the tag and expert of a send buffer's row. -/
def State.storeTag (s : State) (e : Issue) (out : View) (quota : List Nat) (row tag ex : Nat) : Out :=
  s.storeBytes e out (tagsOff (out.d.stride.getD 1 0) quota + 8 * row) (leBytes 4 tag ++ leBytes 4 ex)
/-- Move the rows of the valid records, each with its tag, as a gather moves them (R154, R155); `w` counts them. -/
def State.packRows (s : State) (e : Issue) (act out : View) (dr : Option Draws) (quota : List Nat) :
    Option Nat → Nat → List (Nat × Rec) → Out
  | _, _, [] => .go s
  | buf, w, (t, r) :: xs =>
    let row := sendRow quota (r.tag / 2 ^ 16 % 8) r.ex r.pos
    (((s.moveRow e act out dr buf (w * out.ext.i0) t row).andThen fun u => u.storeTag e out quota row r.tag r.ex).atStep w).andThen
      fun u => u.packRows e act out dr quota (rowBuf act out t row) (w + 1) xs

/-- The rows placed with expert `x` of a micro-batch, by the statistics record (R190). -/
def State.placedCount (s : State) (img : Image) (m : Nat) (r : RouterDef) (mb x : Nat) : Nat :=
  s.fabNum img (.mill m 6) (r.stats + 64 * x + 8 * mb) 4
/-- Rows of a micro-batch that no record fills (R187). -/
def State.emptyRows (s : State) (img : Image) (m : Nat) (r : RouterDef) (quota : List Nat) (mb : Nat) : List (Nat × Nat) :=
  (List.range r.e).flatMap fun x =>
    let n := s.placedCount img m r mb x
    (List.range (quota.getD x 0 - n)).map fun i => (x, sendRow quota mb x (n + i))
/-- Micro-batches whose empty rows a pack marks: that of its records, or, with no valid record, those that have placed no row
(log 36). -/
def State.packMbs (s : State) (img : Image) (m : Nat) (r : RouterDef) (xs : List (Nat × Rec)) : List Nat := match xs with
  | x :: _ => [x.2.tag / 2 ^ 16 % 8]
  | [] => (List.range 8).filter fun mb => (List.range r.e).all fun x => s.placedCount img m r mb x == 0
def State.packEmpty (s : State) (e : Issue) (out : View) (quota : List Nat) : List (Nat × Nat) → Out
  | [] => .go s
  | x :: xs => (s.storeTag e out quota x.2 0xFFFFFFFF x.1).andThen fun u => u.packEmpty e out quota xs

/-- The valid records of the rows of a tensor, each with its row. -/
def State.recsOf (s : State) (e : Issue) (recs : View) (k rows : Nat) : List (Nat × Rec) :=
  (List.range rows).flatMap fun t => (List.range k).filterMap fun j => (s.recAt e recs k t j).map fun x => (t, x)

/-- The body of a dispatch pack: activation or gradient rows in D0, their records in D1, the send buffer in D2. -/
def State.dispatchBody (s : State) (e : Issue) : Out :=
  match e.img.router (e.ins.op 5 0) with
  | none => .go s
  | some r =>
    let act := e.view s false 0
    let recs := e.view s false 1
    let out := e.view s false 2
    let vs := [act, recs, out, e.desc r.quota]
    let s1 := s.shapeCounts e.shapes e.l e.m vs
    if vs.any View.isZero then .go s1
    else
      ((s1.fetchBytes e recs 0 (16 * r.k * act.rows)).andThen fun s2 => s2.fetchList e (e.desc r.quota) r.e).andThen fun s3 =>
        let quota := s3.quotas e r
        let xs := s3.recsOf e recs r.k act.rows
        let b := if act.d.format = out.d.format then (s3, none) else s3.beginConv e.img e.k e.site out
        (b.1.packRows e act out b.2 quota none 0 xs).andThen fun s4 =>
          let mbs := s4.packMbs e.img e.m r xs
          (s4.fetch e.img (e.agent false) (some recs.d.group) true (mbs.flatMap fun mb =>
            (List.range r.e).flatMap fun x => (List.range 4).map fun i => r.stats + 64 * x + 8 * mb + i)).andThen fun s5 =>
            s5.packEmpty e out quota (mbs.flatMap (s5.emptyRows e.img e.m r quota))

/-- DISPATCH_PACK (R187). -/
def execDispatchPack (mill : Fin 144) (s : State) : Host.Outcome State Fault Refusal :=
  match s.issue mill.val 2 0x32 with
  | some e => done (s.engine e false [0, 1, 2] fun t => t.dispatchBody e)
  | none => done s

/-! ### Expert groups (R263) -/

/-- The router's activation descriptor, which the image's first dispatch pack of the router names (log 36). -/
def Image.actDesc (img : Image) (router : Nat) : Option Desc :=
  ((img.streams.filter (·.kind == 2)).findSome? fun r =>
    ((List.range r.count).map r.at).find? fun i => i.opcode == 0x32 && i.op 5 0 == router).map fun i => img.desc (i.dIdx 0)
/-- ROW: its row stride, with the bytes of one row. -/
def Image.actRow (img : Image) (router : Nat) : Nat × Nat := match img.actDesc router with
  | none => (0, 0)
  | some d => (d.stride.getD 1 0, cdiv (d.ext.getD 0 0 * fmtBits d.format) 8)
/-- The experts that live on a device, ascending: local expert `l` is the `l`-th. -/
def localExperts (e g dev : Nat) : List Nat := (List.range e).filter fun x => x % g == dev % g
/-- Offset OFF[l] in rows, with the total last. -/
def recvOffs (quota : List Nat) (g : Nat) (locals : List Nat) : List Nat :=
  let qs := locals.map fun x => 8 * g * quota.getD x 0
  prefixSums 0 qs ++ [qs.foldl (· + ·) 0]
/-- The row of a receive buffer for a source's position `dd` in the group, a micro-batch and POS. -/
def recvRow (quota : List Nat) (g : Nat) (locals : List Nat) (l dd mb pos : Nat) : Nat :=
  (recvOffs quota g locals).getD l 0 + (8 * dd + mb) * quota.getD (locals.getD l 0) 0 + pos

/-- The dispatch exchanges of a router before exchange `a`, the latest first. -/
def Image.dispatchExchs (img : Image) (router a : Nat) : List ExchDef :=
  ((List.range (min a img.exchangeCount)).reverse.map img.exch).filter fun x => !x.ret && x.router == router
/-- The latest of them. -/
def Image.dispatchExch (img : Image) (router a : Nat) : Option ExchDef := (img.dispatchExchs router a).head?

/-! ### Receive compact (R187) -/

/-- The rows to copy: rows of the buffer in ascending source, micro-batch and POS. -/
def State.countedRows (s : State) (img : Image) (ag : Agent) (x : ExchDef) (quota : List Nat) (locals : List Nat) (l : Nat) : List Nat :=
  (List.range x.g).flatMap fun dd => (List.range 8).flatMap fun mb =>
    (List.range (min (quota.getD (locals.getD l 0) 0) (s.fabNum img ag (x.counts + 4 * (l * 8 * x.g + 8 * dd + mb)) 4))).map
      (recvRow quota x.g locals l dd mb)

/-- Copy kept rows; a row with no tag or another expert's is discarded and counted. The rows written. -/
def State.compactRows (s : State) (e : Issue) (src out : View) (dr : Option Draws) (row0 tags ex : Nat) : Nat → List Nat → Out × Nat
  | n, [] => (.go s, n)
  | n, r :: rs =>
    let ta := tags + 8 * r
    match s.fetch e.img (e.agent false) (some src.d.group) true ((List.range 8).map (ta + ·)) with
    | .go t =>
      if t.fabNum e.img (e.agent false) ta 4 = 0xFFFFFFFF ∨ t.fabNum e.img (e.agent false) (ta + 4) 4 ≠ ex then
        (t.count cTagMismatch).compactRows e src out dr row0 tags ex n rs
      else
        match (t.moveRow e src out dr none (n * out.ext.i0) (r - row0) n).atStep n with
        | .go u => u.compactRows e src out dr row0 tags ex (n + 1) rs
        | o => (o, n)
    | o => (o, n)

/-- A receive block: its exchange, the local expert it is of, its first row, and the address of the buffer's tags. -/
structure RecvBlock where
  x : ExchDef
  locals : List Nat
  l : Nat
  row0 : Nat
  tags : Nat
deriving DecidableEq, Repr

/-- The block of an exchange's receive buffer that begins at an address, if one does. -/
def recvBlock (r : RouterDef) (quota : List Nat) (stride device base : Nat) (x : ExchDef) : Option RecvBlock :=
  let locals := localExperts r.e x.g device
  let offs := recvOffs quota x.g locals
  (findIdx (fun o => x.recv + stride * o == base) (offs.take locals.length)).map fun l =>
    ⟨x, locals, l, offs.getD l 0, x.recv + stride * offs.getLastD 0⟩

/-- The output of a receive compact: its rows are planned, since the operation itself writes the register of its extent 1. -/
def View.receives (v : View) : View :=
  { v with ext.i1 := v.d.ext.getD 1 0, d.dyn := if bitOf v.d.dyn 1 then v.d.dyn - 2 else v.d.dyn }

/-- Compact one receive block. -/
def State.receiveBlock (s : State) (e : Issue) (src out : View) (quota : List Nat) (b : RecvBlock) : Out :=
  (s.fetch e.img (e.agent false) (some src.d.group) true
    ((List.range (32 * b.x.g)).map fun i => b.x.counts + 4 * (b.l * 8 * b.x.g) + i)).andThen fun t =>
      let c := if src.d.format = out.d.format then (t, none) else t.beginConv e.img e.k e.site out
      let z := c.1.compactRows e src out c.2 b.row0 b.tags (b.locals.getD b.l 0) 0
        (c.1.countedRows e.img (e.agent false) b.x quota b.locals b.l)
      z.1.andThen fun u => .go (u.setShape e.l (out.d.shapeReg + 1) z.2)

/-- The body of a receive compact: the receive block of one local expert in D0, whose address tells the forward exchange from
the backward one (R189), the expert's input tensor in D1. A block of no exchange of the router moves no row. -/
def State.receiveBody (s : State) (e : Issue) : Out :=
  match e.img.router (e.ins.op 5 0) with
  | none => .go s
  | some r =>
    let src := e.view s false 0
    let out := (e.view s false 1).receives
    let vs := [src, out, e.desc r.quota]
    let s1 := s.shapeCounts e.shapes e.l e.m vs
    if vs.any View.isZero then .go s1
    else
      (s1.fetchList e (e.desc r.quota) r.e).andThen fun s2 =>
        let quota := s2.quotas e r
        match (e.img.dispatchExchs r.num 4096).findSome? (recvBlock r quota (e.img.actRow r.num).1 s2.wheel.device src.d.base) with
        | none => .go s2
        | some b => s2.receiveBlock e src out quota b

/-- RECEIVE_COMPACT (R187). -/
def execReceiveCompact (mill : Fin 144) (s : State) : Host.Outcome State Fault Refusal :=
  match s.issue mill.val 2 0x33 with
  | some e => done (s.engine e false [0, 1] fun t => t.receiveBody e)
  | none => done s

/-! ### Combine (R188, R189) -/

/-- Read the tag of a returned row, and use the row when it is the record's; one that differs counts, and withdraws the
micro-batch, on its first reading (R188). -/
def State.withTag (s : State) (e : Issue) (ret : View) (quota : List Nat) (first : Bool) (r : Rec) (use : State → Nat → Out) : Out :=
  let row := sendRow quota (r.tag / 2 ^ 16 % 8) r.ex r.pos
  let ta := tagsOff (ret.d.stride.getD 1 0) quota + 8 * row
  (s.fetchBytes e ret ta 4).andThen fun t =>
    if t.fieldOf e ret ta 4 = r.tag then use t row
    else if first then outOf t ((t.count cTagMismatch).classOutcome 0)
    else .go t
/-- The tag of a returned row is the record's. -/
def State.tagAgrees (s : State) (e : Issue) (ret : View) (quota : List Nat) (r : Rec) : Bool :=
  let row := sendRow quota (r.tag / 2 ^ 16 % 8) r.ex r.pos
  s.fieldOf e ret (tagsOff (ret.d.stride.getD 1 0) quota + 8 * row) 4 == r.tag
/-- The elements of a returned row from lane `lo` on. -/
def returnIxs (ret : View) (quota : List Nat) (lo n : Nat) (r : Rec) : List Ix :=
  (List.range n).map fun i => ret.rowIx (sendRow quota (r.tag / 2 ^ 16 % 8) r.ex r.pos) (lo + i)

/-- One slot's returned row, added into the accumulator with its gate. -/
def State.combineSlot (s : State) (e : Issue) (dst ret : View) (quota : List Nat) (lo : Nat) (acc : List Nat) (r : Rec) :
    Out × List Nat :=
  let ixs := returnIxs ret quota lo acc.length r
  let ok := s.tagAgrees e ret quota r
  match s.withTag e ret quota (lo == 0) r fun t _ => t.readElems e.img (e.agent false) ret (ixs.map ret.clamp) with
  | .go t =>
    if ok then
      let a := t.addRow e dst ret (some r.gate) acc ixs
      (.go a.1, a.2)
    else (.go t, acc)
  | o => (o, acc)
def State.combineSlots (s : State) (e : Issue) (dst ret : View) (quota : List Nat) (lo : Nat) : List Nat → List Rec → Out × List Nat
  | acc, [] => (.go s, acc)
  | acc, r :: rs =>
    let x := s.combineSlot e dst ret quota lo acc r
    match x.1 with
    | .go t => t.combineSlots e dst ret quota lo x.2 rs
    | o => (o, x.2)

/-- One token's row of a 128-element segment: read, added to and written. -/
def State.combineToken (s : State) (e : Issue) (dst ret : View) (dr : Option Draws) (quota : List Nat) (lo writes t : Nat)
    (rs : List Rec) : Out :=
  let ixs := (List.range (min 128 (dst.ext.i0 - lo))).map fun i => dst.rowIx t (lo + i)
  (s.readRow e dst ixs).andThen fun s1 =>
    let x := s1.combineSlots e dst ret quota lo ((s1.fulls e.img (e.agent false) dst ixs).map (·.code)) rs
    x.1.andThen fun s2 => s2.writeRow e dst dr lo t x.2 writes
/-- Tokens of a segment that have a placed slot; the row writes so far. -/
def State.combineTokens (s : State) (e : Issue) (dst ret : View) (dr : Option Draws) (quota : List Nat) (lo : Nat) :
    Nat → List (Nat × List Rec) → Out × Nat
  | w, [] => (.go s, w)
  | w, x :: xs =>
    if x.2.isEmpty then s.combineTokens e dst ret dr quota lo w xs
    else match (s.combineToken e dst ret dr quota lo w x.1 x.2).atStep x.1 with
      | .go t => t.combineTokens e dst ret dr quota lo (w + 1) xs
      | o => (o, w)
def State.combineSegs (s : State) (e : Issue) (dst ret : View) (dr : Option Draws) (quota : List Nat) (xs : List (Nat × List Rec)) :
    Nat → List Nat → Out
  | _, [] => .go s
  | w, lo :: los =>
    let r := s.combineTokens e dst ret dr quota lo w xs
    r.1.andThen fun t => t.combineSegs e dst ret dr quota xs r.2 los

/-! ### Gate gradients (R189) -/

/-- The dot product of two rows in ascending order, one rounding for each addition: FP32 code and saturations. -/
def rowDot : Nat → List (FV × FV) → Nat × Nat
  | acc, [] => (acc, 0)
  | acc, (a, b) :: ps =>
    let r := round32 ((dec32 acc).add (a.mul b))
    let t := rowDot r.1 ps
    (t.1, t.2 + b2n r.2)

/-- The gate gradient of one slot: the token's output gradient times the returned row, +0 for a slot that is not placed or
whose returned row has another tag. -/
def State.gateGrad (s : State) (e : Issue) (dst ret out : View) (quota : List Nat) (k t j : Nat) (rec : Option Rec) : Out :=
  let ag := e.agent false
  let a := out.elem (out.flat (k * t + j))
  let put := fun (u : State) (c : Nat) => (u.countClamped e.m (out.flatClamps (k * t + j))).deposit e.img ag (some out.d.group)
    [⟨a.1, a.2.1, 32, c⟩]
  match rec with
  | none => put s 0
  | some r =>
    let gs := (List.range dst.ext.i0).map fun i => dst.rowIx t i
    let ys := returnIxs ret quota 0 dst.ext.i0 r
    let ok := s.tagAgrees e ret quota r
    (s.withTag e ret quota true r fun u _ => (u.readElems e.img ag dst gs).andThen fun u =>
      (u.countClamps e.m ret ys).readElems e.img ag ret (ys.map ret.clamp)).andThen fun u =>
      if ok then
        let xs := u.fulls e.img ag dst gs
        let zs := u.fulls e.img ag ret (ys.map ret.clamp)
        let d := rowDot 0 ((xs.map (·.exact)).zip (zs.map (·.exact)))
        put (((u.countValues dst xs).countValues ret zs).countN (cGroup out.d.group 2) d.2) d.1
      else put u 0
def State.gateGrads (s : State) (e : Issue) (dst ret out : View) (quota : List Nat) (k : Nat) : List (Nat × Nat × Option Rec) → Out
  | [] => .go s
  | (t, j, r) :: xs => ((s.gateGrad e dst ret out quota k t j r).atStep t).andThen fun u => u.gateGrads e dst ret out quota k xs

/-- The body of a combine: residual or gradient rows in D0, records in D1, the returned rows in D2. With FLAGS[0] it computes the
gate gradients of R189 instead, from the output gradients in D0 into the FP32 list of D3, entry k × token + slot: the rule
gives them no instruction of their own (log 36). -/
def State.combineBody (s : State) (e : Issue) : Out :=
  match e.img.router (e.ins.op 5 0) with
  | none => .go s
  | some r =>
    let dst := e.view s false 0
    let recs := e.view s false 1
    let ret := e.view s false 2
    let gg := { (e.view s false 3) with w := 32 }
    let vs := [dst, recs, ret, e.desc r.quota] ++ if e.ins.flag 0 then [gg] else []
    let s1 := s.shapeCounts e.shapes e.l e.m vs
    if vs.any View.isZero then .go s1
    else
      ((s1.fetchBytes e recs 0 (16 * r.k * dst.rows)).andThen fun s2 => s2.fetchList e (e.desc r.quota) r.e).andThen fun s3 =>
        let slots := (List.range dst.rows).map fun t => (t, (List.range r.k).map fun j => s3.recAt e recs r.k t j)
        if e.ins.flag 0 then
          s3.gateGrads e dst ret gg (s3.quotas e r) r.k
            (slots.flatMap fun x => ((List.range r.k).zip x.2).map fun y => (x.1, y.1, y.2))
        else
          let b := if dst.d.format = 0 then (s3, none) else s3.beginConv e.img e.k e.site dst
          b.1.combineSegs e dst ret b.2 (s3.quotas e r) (slots.map fun x => (x.1, x.2.filterMap id)) 0
            ((List.range (cdiv dst.ext.i0 128)).map (128 * ·))

/-- COMBINE (R188). -/
def execCombine (mill : Fin 144) (s : State) : Host.Outcome State Fault Refusal :=
  match s.issue mill.val 2 0x34 with
  | some e => done (s.engine e false [0, 1, 2, 3] fun t => t.combineBody e)
  | none => done s

end Sys2Proof.Machine
end

