-- ==== Sys2Proof/Machine/Wheel.lean ====
section
/-! DEFINITION. The Wheel: group geometry, the ring, compressed buckets, the all-gather, token exchanges, digests and GM6 windows (R247-R266). -/
namespace Sys2Proof.Machine

/-- A frame is handled, giving a state, or it must wait: for what it is for, or for pages that a snapshot protects. -/
abbrev Took := Except (List PageWait) State

/-! ### Geometry (R250, R253) -/

/-- Coordinates of device `d`. -/
def Image.coords (img : Image) (d : Nat) : List Nat :=
  let x := max 1 (img.extents.getD 0 1)
  let y := max 1 (img.extents.getD 1 1)
  [d % x, d / x % y, d / (x * y)]
/-- The device at some coordinates. -/
def Image.deviceAt (img : Image) (c : List Nat) : Nat :=
  let x := max 1 (img.extents.getD 0 1)
  let y := max 1 (img.extents.getD 1 1)
  c.getD 0 0 + x * (c.getD 1 0 + y * c.getD 2 0)
/-- The neighbour of `d` on an axis. -/
def Image.neighbour (img : Image) (d axis : Nat) (plus : Bool) : Nat :=
  let c := img.coords d
  let q := max 1 (img.extents.getD axis 1)
  img.deviceAt (setAt c axis ((c.getD axis 0 + (if plus then 1 else q - 1)) % q))

/-- A ring stage of a device: axis, extent, own coordinate. -/
structure RStage where
  axis : Nat
  q : Nat
  me : Nat
deriving DecidableEq, Repr

/-- The stages, X then Y then Z, without those of extent 1. -/
def Image.ringStages (img : Image) (d : Nat) : List RStage :=
  ((List.range 3).map fun a => (⟨a, max 1 (img.extents.getD a 1), (img.coords d).getD a 0⟩ : RStage)).filter fun r => decide (1 < r.q)

/-- A range held before a stage, and the length of its pieces. -/
structure RRange where
  a : Nat
  b : Nat
  w : Nat
deriving DecidableEq, Repr

/-- Piece `j` of a range: first element and the one after its last. -/
def RRange.piece (r : RRange) (j : Nat) : Nat × Nat := (min (r.a + j * r.w) r.b, min (r.a + (j + 1) * r.w) r.b)
/-- The ranges held before each stage, from [a, b) on. -/
def stageRanges : Nat → Nat → List RStage → List RRange
  | _, _, [] => []
  | a, b, st :: ss =>
    let r : RRange := ⟨a, b, 32 * cdiv (b - a) (32 * st.q)⟩
    r :: stageRanges (r.piece st.me).1 (r.piece st.me).2 ss
/-- The range held after every stage: the shard. -/
def shardFrom : Nat → Nat → List RStage → Nat × Nat
  | a, b, [] => (a, b)
  | a, b, st :: ss =>
    let r : RRange := ⟨a, b, 32 * cdiv (b - a) (32 * st.q)⟩
    shardFrom (r.piece st.me).1 (r.piece st.me).2 ss
/-- The shard of device `d` of a bucket of `n` elements. -/
def Image.shard (img : Image) (d n : Nat) : Nat × Nat := shardFrom 0 n (img.ringStages d)

def State.bucketSt (s : State) (b : Nat) : Bucket := NMap.get Bucket.init s.wheel.buckets b
def State.setBucket (s : State) (b : Nat) (k : Bucket) : State :=
  { s with wheel.buckets := NMap.set Bucket.init s.wheel.buckets b k }
def State.exchSt (s : State) (a : Nat) : Exchange := NMap.get Exchange.init s.wheel.exchanges a
def State.setExch (s : State) (a : Nat) (k : Exchange) : State :=
  { s with wheel.exchanges := NMap.set Exchange.init s.wheel.exchanges a k }

/-! ### Digests (R266) -/

/-- One byte of CRC-64/ECMA-182. -/
def crc64Byte (r : Nat) (b : Byte) : Nat :=
  (List.range 8).foldl (fun r _ => if 2 ^ 63 ≤ r then (r * 2 % 2 ^ 64) ^^^ 0x42F0E1EBA9EA3693 else r * 2 % 2 ^ 64)
    (r ^^^ (b.toNat * 2 ^ 56))
/-- CRC-64/ECMA-182 carried on over bytes. -/
def crc64 (r : Nat) (bs : List Byte) : Nat := bs.foldl crc64Byte r

/-- The Wheel reads its own area, the residual index or the staging: an uncorrectable word makes the device declare itself
failed (R265). -/
def State.readOwn (s : State) (a n : Nat) : State :=
  let r := s.verify a n
  r.1.ueOutcome none r.2
/-- Go on, unless the device has failed on the way. -/
def State.unlessFailed (s t : State) (k : State → State) : State := if t.run.failed && !s.run.failed then t else k t

/-- Take a body into word `k` of a bucket's index entry. -/
def State.takeDigest (s : State) (b k : Nat) (body : List Byte) : State :=
  let a := indexAddr b + 8 * k
  s.unlessFailed (s.readOwn a 8) fun t => t.pokes a (leBytes 8 (crc64 (t.num a 8) body))
/-- The bucket whose digests a frame belongs to: class 0 frames carry it in ID [31:16]. -/
def digestBucket (f : Frame) : Option Nat := if frameClass f.kind = 0 then some (f.id.toNat / 65536) else none

/-! ### Sending frames (R250, R251) -/

/-- A class 0 frame of a bucket of the image is taken into a digest of a port. -/
def State.digestFrame (s : State) (img : Image) (word : Nat) (f : Frame) : State :=
  match digestBucket f with
  | some b => if b < img.bucketCount then s.takeDigest b word f.body else s
  | none => s

/-- Send a frame on a given port. -/
def State.portFrame (s : State) (img : Image) (p : Nat) (f : Frame) : State := (s.digestFrame img (8 + 2 * p) f).queueFrame p f

/-- Send a frame by role: two ports that share it take turns, and a port that faces a GM6 is never used (R240). A stalled Wheel
sends nothing: what it holds is discarded at the restart (R264). -/
def State.wheelSend (s : State) (img : Image) (role : Nat) (f : Frame) : State :=
  let ps := (List.range 12).filter fun p => s.role p == role && !(s.fport p).peerGm6
  if s.wheel.stalled then s
  else match ps[NMap.get 0 s.wheel.alt role % max 1 ps.length]? with
    | none => s
    | some p =>
      let t := { s with wheel.alt := NMap.set 0 s.wheel.alt role ((NMap.get 0 s.wheel.alt role + 1) % max 1 ps.length) }
      t.portFrame img p f

/-- The role a frame for `dest` leaves by: X, then Y, then Z, the shorter way round, and + when both are equal. -/
def Image.roleTo (img : Image) (me dest : Nat) : Option Nat :=
  ((List.range 3).filterMap fun a =>
    let q := max 1 (img.extents.getD a 1)
    let f := ((img.coords dest).getD a 0 + q - (img.coords me).getD a 0 % q) % q
    if f = 0 then none else some (if f ≤ q - f then 1 + 2 * a else 2 + 2 * a)).head?
/-- Send a frame to a device. -/
def State.sendTo (s : State) (img : Image) (f : Frame) : State :=
  match img.roleTo s.wheel.device f.dest.toNat with
  | some r => s.wheelSend img r f
  | none => s

/-- A frame from this device. -/
def State.frameOf (s : State) (kind id dest count pos : Nat) (body : List Byte) : Frame :=
  ⟨BitVec.ofNat 8 kind, BitVec.ofNat 32 id, BitVec.ofNat 13 dest, BitVec.ofNat 13 s.wheel.device, BitVec.ofNat 16 count,
    BitVec.ofNat 16 pos, body⟩

/-! ### One R8 block at one hop (R255) -/

/-- An 8-bit element times a power of two. -/
def int8FV (b : Byte) (e : Int) : FV :=
  if 128 ≤ b.toNat then .fin true (256 - b.toNat) 1 e else .fin false b.toNat 1 e

/-- Raise an exponent until 127 × 2^(e − 133) covers a magnitude. -/
def raiseExp (m : FV) : Nat → Nat → Nat
  | 0, e => e
  | n + 1, e => if e < 0xFE ∧ (FV.fin false 127 1 ((e : Int) - 133)).magLt m = true then raiseExp m n (e + 1) else e

/-- clamp(rne(v × 2^(133 − e)), −127, 127) as a byte, and whether it was clamped. -/
def encR8 (e : Nat) : FV → Byte × Bool
  | .fin neg num den ev =>
    let u := roundInt .rne num den (ev + 133 - (e : Int))
    let c := min u 127
    (BitVec.ofNat 8 (if neg then 256 - c else c), decide (127 < u))
  | _ => (0, false)

/-- A block after a hop: exponent, elements, RESCALED, and for the counters whether the exponent rose, elements clamped,
sums saturated; the sums themselves, as FP32 codes. -/
structure Hop where
  e : Nat
  n : List Byte
  rescaled : Bool
  raised : Bool
  clamps : Nat
  sat : Nat
  vs : List Nat
deriving DecidableEq, Repr

def hopBlock (owner : Bool) (e : Nat) (ns : List Byte) (rescaled : Bool) (xs : List Nat) : Hop :=
  if e = 0xFF ∨ (xs.any fun x => !(dec32 x).isFinite) = true then
    ⟨0xFF, xs.map fun _ => 0, rescaled, false, 0, 0, xs.map fun _ => ffFP32.nanCode⟩
  else
    let vs := (ns.zip xs).map fun p => round32 ((int8FV p.1 ((e : Int) - 133)).add (dec32 p.2))
    let sat := (vs.filter (·.2)).length
    if owner then ⟨e, [], rescaled, false, 0, sat, vs.map (·.1)⟩
    else
      let e' := raiseExp (maxAbs (vs.map fun v => dec32 v.1)) 256 e
      let es := vs.map fun v => encR8 e' (dec32 v.1)
      ⟨e', es.map (·.1), rescaled || decide (e' ≠ e), decide (e' ≠ e), (es.filter (·.2)).length, sat, vs.map (·.1)⟩

/-- The groups of 136 bytes that carry blocks; a last group of fewer blocks is filled with zeros (log 38). -/
def packHops (hs : List Hop) : List Byte :=
  (piecesOf 4 (hs.length + 1) hs).flatMap fun g =>
    padTo 8 0 (g.flatMap fun h => leBytes 2 (h.e + 256 * b2n h.rescaled)) ++ padTo 128 0 (g.flatMap (·.n))
/-- Header and elements of block `k` of a ring frame's body. -/
def blockIn (body : List Byte) (k : Nat) : Nat × List Byte :=
  (fieldAt body (136 * (k / 4) + 2 * (k % 4)) 2, padTo 32 0 (slice body (136 * (k / 4) + 8 + 32 * (k % 4)) 32))

/-! ### The ring (R255-R257) -/

/-- Blocks in one ring frame. -/
def frameBlocks : Nat := 2048
/-- Frames of a piece; an empty piece still sends one, with its COUNT (log 38). -/
def pieceFrames (lo hi : Nat) : Nat := max 1 (cdiv ((hi - lo) / 32) frameBlocks)

/-- e_start of a bucket (R256). -/
def State.eStart (s : State) (img : Image) (b : Nat) : Nat :=
  let h := s.num (indexAddr b + 8) 4
  max (max (bitsOf h 7 0) (bitsOf h 15 8)) (max (bitsOf h 23 16) (bitsOf h 31 24)) - img.margin

/-- First bucket element of the values that a ring bucket keeps in its part of the staging area: the own piece of the first
stage, within which every later stage works (R253, R261). -/
def State.stageLow (s : State) (img : Image) (d : BucketDef) : Nat :=
  match (img.ringStages s.wheel.device)[0]?, (stageRanges 0 d.n (img.ringStages s.wheel.device))[0]? with
  | some st, some r => (r.piece st.me).1
  | _, _ => 0
/-- Where a ring bucket's value of element `i` stands in the staging area. -/
def State.valAddr (s : State) (img : Image) (d : BucketDef) (k : Bucket) (i : Nat) : Nat :=
  img.stageBase k.part + 4 * (i - s.stageLow img d)
/-- Write FP32 values into the staging area from element `i` on. -/
def State.putVals (s : State) (img : Image) (d : BucketDef) (k : Bucket) (i : Nat) (vs : List Nat) : State :=
  s.pokes (s.valAddr img d k i) (vs.flatMap (leBytes 4))

/-- Local value of bucket element `i` at a stage, an FP32 code. -/
def State.localX (s : State) (img : Image) (d : BucketDef) (k : Bucket) (stage i : Nat) : Nat :=
  if k.counts.getD stage 0 = 0 then 0
  else if stage = 0 then s.fabNum img .wheel (d.grad + 2 * i) 2 * 65536
  else s.num (s.valAddr img d k i) 4

/-- Frames handled of a piece. -/
def Bucket.handled (k : Bucket) (stage j : Nat) : Nat :=
  ((k.frames.filter fun f => f.1 == stage && f.2.1 == j).map (·.2.2)).headD 0
def Bucket.handle (k : Bucket) (stage j : Nat) : Bucket :=
  { k with frames := (stage, j, k.handled stage j + 1) :: k.frames.filter fun f => !(f.1 == stage && f.2.1 == j) }

/-- Count what a list of hops gives. -/
def State.countHops (s : State) (d : BucketDef) (first : Bool) (xs : List Nat) (hs : List Hop) : State :=
  let t := if first then (s.countN (cGroup d.group 0) (xs.filter fun x => (dec32 x).isNan).length).countN (cGroup d.group 1)
      (xs.filter fun x => (dec32 x).isInf).length else s
  ((t.countN (cGroup d.group 2) (hs.foldl (fun n h => n + h.sat) 0)).countN (cWheel 0) (hs.filter (·.raised)).length).countN
    (cWheel 1) (hs.foldl (fun n h => n + h.clamps) 0)

/-- Handle frame `c` of piece `j` at a stage: as the first sender with no input, else with a frame's COUNT and body. The
owner keeps the sums in the staging area; another device sends the block on. -/
def State.ringHop (s : State) (img : Image) (b stage j c : Nat) (inp : Option (Nat × List Byte)) : State :=
  let d := img.bucket b
  let k := s.bucketSt b
  let sts := img.ringStages s.wheel.device
  match sts[stage]?, (stageRanges 0 d.n sts)[stage]? with
  | some st, some r =>
    let p := r.piece j
    let n := min frameBlocks ((p.2 - p.1) / 32 - frameBlocks * c)
    let owner := decide (j = st.me)
    let blocks := (List.range n).map fun i => p.1 + 32 * (frameBlocks * c + i)
    let xs := blocks.map fun lo => (List.range 32).map fun i => s.localX img d k stage (lo + i)
    let ins := (List.range n).map fun i => match inp with
      | none => (s.eStart img b, List.replicate 32 (0 : Byte))
      | some q => blockIn q.2 i
    let hs := (ins.zip xs).map fun q => hopBlock owner (q.1.1 % 256) q.1.2 (bitOf q.1.1 8) q.2
    let own := k.counts.getD stage 0
    let s1 := s.countHops d (stage == 0) xs.flatten hs
    let count := ((match inp with | none => 0 | some q => q.1) + own) % 65536
    if owner then
      let k1 := k.handle stage j
      (s1.putVals img d k (p.1 + 32 * (frameBlocks * c)) (hs.flatMap (·.vs))).setBucket b { k1 with
        total := count
        rescaled := if stage + 1 = sts.length then k.rescaled + (hs.filter (·.rescaled)).length else k.rescaled }
    else
      (s1.setBucket b (if inp.isNone then k else k.handle stage j)).wheelSend img (1 + 2 * st.axis)
        (s.frameOf 1 (b * 65536 + j) (img.neighbour s.wheel.device st.axis true) count 0 (packHops hs))
  | _, _ => s

/-- The values of the staging area that a frame uses at a stage after the first are read and verified on the way (R265). -/
def State.ringFrame (s : State) (img : Image) (b stage j c : Nat) (inp : Option (Nat × List Byte)) : State :=
  let d := img.bucket b
  let sts := img.ringStages s.wheel.device
  match (stageRanges 0 d.n sts)[stage]? with
  | none => s
  | some r =>
    let lo := (r.piece j).1 + 32 * (frameBlocks * c)
    let n := min (32 * frameBlocks) ((r.piece j).2 - lo)
    if stage = 0 then s.ringHop img b stage j c inp
    else s.unlessFailed (s.readOwn (s.valAddr img d (s.bucketSt b) lo) (4 * n)) fun t => t.ringHop img b stage j c inp

/-- Send the piece that a stage's ring starts at this device. -/
def State.ringStart (s : State) (img : Image) (b stage : Nat) : State :=
  let sts := img.ringStages s.wheel.device
  match sts[stage]?, (stageRanges 0 (img.bucket b).n sts)[stage]? with
  | some st, some r =>
    let j := (st.me + st.q - 1) % st.q
    (List.range (pieceFrames (r.piece j).1 (r.piece j).2)).foldl (fun t c => t.ringFrame img b stage j c none) s
  | _, _ => s

/-- The owner's piece of a stage is complete: the next stage begins, if there is one. -/
def State.ringAdvance (s : State) (img : Image) (b stage : Nat) : State :=
  let k := s.bucketSt b
  (s.setBucket b { k with stage := stage + 1, counts := k.counts ++ [k.total] }).ringStart img b (stage + 1)

/-- The stage of the axis that a port's role belongs to. -/
def State.portStage (s : State) (img : Image) (p : Nat) : Option Nat :=
  if 1 ≤ s.role p ∧ s.role p ≤ 6 then
    findIdx (fun (r : RStage) => r.axis == (s.role p - 1) / 2) (img.ringStages s.wheel.device)
  else none

/-- A ring chunk arrives; it waits while its bucket is not ready for it. -/
def State.ringIn (s : State) (img : Image) (p : Nat) (f : Frame) : Took :=
  let b := f.id.toNat / 65536
  let j := f.id.toNat % 65536
  match s.portStage img p with
  | none => .ok s
  | some stage =>
    let k := s.bucketSt b
    let sts := img.ringStages s.wheel.device
    match sts[stage]?, (stageRanges 0 (img.bucket b).n sts)[stage]? with
    | some st, some r =>
      let c := k.handled stage j
      let all := pieceFrames (r.piece j).1 (r.piece j).2
      if img.bucketCount ≤ b ∨ st.q ≤ j ∨ (img.bucket b).mode ≠ 0 then .ok s
      else if k.st = .waiting ∨ k.st = .filling ∨ k.counts.length ≤ stage ∨ all ≤ c then .error []
      else
        let t := s.ringFrame img b stage j c (some (f.count.toNat, f.body))
        .ok (if j = st.me ∧ c + 1 = all then t.ringAdvance img b stage else t)
    | _, _ => .ok s

/-! ### Compressed buckets (R258-R260) -/

/-- The word of the index entry that says which copy is committed. -/
def State.residualPair (s : State) (d : BucketDef) (b : Nat) : Nat × Nat :=
  if bitOf (s.num (indexAddr b) 8) 0 then (d.resB, d.resA) else (d.resA, d.resB)

/-- e_i of every element: FP32 codes with their saturations. -/
def State.errorVals (s : State) (img : Image) (d : BucketDef) (res : Nat) : List (Nat × Bool) :=
  (List.range d.n).map fun i =>
    add32 (s.fabNum img .wheel (d.grad + 2 * i) 2 * 65536) (s.fabNum img .wheel (res + 4 * i) 4)

/-- The rank of a magnitude: a non-finite value above every finite one. -/
def topKey (x : Nat) : Nat := if (dec32 x).isFinite then x % 2 ^ 31 else 2 ^ 32
/-- Insert an index below every one of a key that is not smaller, keeping the best `k`. -/
def insertTop (x : Nat × Nat) : List (Nat × Nat) → List (Nat × Nat)
  | [] => [x]
  | y :: ys => if y.2 < x.2 then x :: y :: ys else y :: insertTop x ys
/-- Indices of the `k` largest magnitudes, ascending; equal ones rank towards the lower index. -/
def topIndices (k : Nat) (es : List Nat) : List Nat :=
  distinct ((((List.range es.length).zip es).foldl (fun l p => (insertTop (p.1, topKey p.2) l).take k) []).map (·.1))

/-- σ of a block of 32 magnitudes (R259). -/
def signScale (xs : List Nat) : Nat × Nat :=
  let r := sum32 (xs.map (· % 2 ^ 31))
  let q := div32 r.1 0x42000000
  (q.1, r.2 + b2n q.2)

/-- What a compressed contribution is made of: the entries or block words by position, the values the inactive copy takes,
and the saturations. -/
structure Compressed where
  /-- IXV entries by bucket index (mode 1), or 8-byte words by block number (mode 2) -/
  parts : List (Nat × Nat)
  residual : List Nat
  sat : Nat
deriving DecidableEq, Repr

def compressTop (k : Nat) (es : List Nat) : Compressed :=
  let kept := topIndices k es
  let m := kept.foldl (fun (m : NMap Bool) i => NMap.set false m i true) []
  ⟨kept.map fun i => (i, es.getD i 0), ((List.range es.length).zip es).map fun p => if NMap.get false m p.1 then 0 else p.2, 0⟩
/-- One block of mode 2: word, residuals, saturations. -/
def signBlock (xs : List Nat) : Nat × List Nat × Nat :=
  let sg := signScale xs
  let rs := xs.map fun x => if bitOf x 31 then add32 x sg.1 else sub32 x sg.1
  (((List.range xs.length).zip xs).foldl (fun n p => n + (if bitOf p.2 31 then 2 ^ p.1 else 0)) 0 + sg.1 * 2 ^ 32,
    rs.map (·.1), sg.2 + (rs.filter (·.2)).length)
def compressSign (es : List Nat) : Compressed :=
  let bs := (piecesOf 32 (es.length + 1) es).map signBlock
  ⟨((List.range bs.length).zip bs).map fun p => (p.1, p.2.1), bs.flatMap (·.2.1), bs.foldl (fun n x => n + x.2.2) 0⟩

/-- The body for an owner's shard [lo, hi). -/
def compressedBody (mode lo hi : Nat) (c : Compressed) : List Byte :=
  if mode = 1 then
    (let es := c.parts.filter fun p => decide (lo ≤ p.1) && decide (p.1 < hi)
     leBytes 8 (hi - lo) ++ leBytes 8 es.length ++ es.flatMap fun p => leBytes 4 (p.1 - lo) ++ leBytes 4 p.2)
  else (c.parts.filter fun p => decide (lo ≤ 32 * p.1) && decide (32 * p.1 < hi)).flatMap fun p => leBytes 8 p.2

/-- Bytes of staging for one contribution to this device's shard: an IXV vector of at most K entries, or a block word for each
32 elements. -/
def State.contribBytes (s : State) (img : Image) (d : BucketDef) : Nat :=
  let r := img.shard s.wheel.device d.n
  if d.mode = 1 then 16 + 8 * min d.k (r.2 - r.1) else 8 * cdiv (r.2 - r.1) 32
/-- Where the contribution of a source stands in the staging area. -/
def State.contribAddr (s : State) (img : Image) (d : BucketDef) (k : Bucket) (src : Nat) : Nat :=
  img.stageBase k.part + src * s.contribBytes img d

/-- Keep a contribution for the owner's sum in the staging area, once for each source. -/
def State.keepContribution (s : State) (img : Image) (b src count : Nat) (body : List Byte) : State :=
  let k := s.bucketSt b
  let d := img.bucket b
  let bs := body.take (s.contribBytes img d)
  if k.contribs.any (fun x => x.1 == src) then s
  else (s.pokes (s.contribAddr img d k src) bs).setBucket b { k with contribs := k.contribs ++ [(src, count, bs.length)] }

/-- Send every owner its part; the own part is kept. -/
def State.sendContributions (s : State) (img : Image) (b count : Nat) (c : Option Compressed) : State :=
  let d := img.bucket b
  (List.range s.wheel.p).foldl (fun t o =>
    let r := img.shard o d.n
    let body := match c with
      | some x => compressedBody d.mode r.1 r.2 x
      | none => []
    if o = t.wheel.device then t.keepContribution img b o count body
    else t.sendTo img (t.frameOf 2 (b * 65536) o count 0 body)) s

/-- Begin a compressed bucket: the inactive residual copy is written and the parts are sent. -/
def State.compressStart (s : State) (img : Image) (b count : Nat) : Out :=
  let d := img.bucket b
  let r := s.residualPair d b
  let res := (List.range (4 * d.n)).map (r.1 + ·)
  (s.fetch img .wheel none true res).andThen fun s1 =>
    if count = 0 then
      (s1.deposit img .wheel none ((List.range d.n).map fun i => ⟨r.2 + 4 * i, 0, 32, s1.fabNum img .wheel (r.1 + 4 * i) 4⟩)).andThen
        fun s2 => .go (s2.sendContributions img b 0 none)
    else
      let ev := s1.errorVals img d r.1
      let es := ev.map (·.1)
      let c := if d.mode = 1 then compressTop d.k es else compressSign es
      let s2 := ((s1.countN (cGroup d.group 0) (es.filter fun x => (dec32 x).isNan).length).countN (cGroup d.group 1)
        (es.filter fun x => (dec32 x).isInf).length).countN (cGroup d.group 2) ((ev.filter (·.2)).length + c.sat)
      (s2.deposit img .wheel none (((List.range d.n).zip c.residual).map fun p => ⟨r.2 + 4 * p.1, 0, 32, p.2⟩)).andThen fun s3 =>
        .go (s3.sendContributions img b count (some c))

/-- A compressed contribution arrives; one for a bucket that has no staging yet, or has gone beyond its reduction, waits. -/
def State.contributionIn (s : State) (img : Image) (f : Frame) : Took :=
  let b := f.id.toNat / 65536
  let k := s.bucketSt b
  if img.bucketCount ≤ b ∨ (img.bucket b).mode = 0 then .ok s
  else if (k.st ≠ .filling ∧ k.st ≠ .reducing) ∨ k.contribs.any (fun x => x.1 == f.src.toNat) = true then .error []
  else .ok (s.keepContribution img b f.src.toNat f.count.toNat f.body)

/-- IXV entries of a contribution. -/
def ixvEntries (body : List Byte) : List MRec :=
  (List.range (min (fieldAt body 8 8) (body.length / 8 - 2))).map fun i => (fieldAt body (16 + 8 * i) 4, fieldAt body (20 + 8 * i) 4)
/-- Two runs merged: the smaller head key first, run 0's on equal keys (R159). -/
def mergeTwo : Nat → List MRec → List MRec → List MRec
  | 0, _, _ => []
  | _ + 1, [], ys => ys
  | _ + 1, xs, [] => xs
  | n + 1, x :: xs, y :: ys => if y.1 < x.1 then y :: mergeTwo n (x :: xs) ys else x :: mergeTwo n xs (y :: ys)
/-- Consecutive records of equal keys become one, their FP32 sum in order; with the saturations (R159). -/
def sumEqual : List MRec → List MRec × Nat
  | [] => ([], 0)
  | r :: rs => rs.foldl (fun (a : MRec × List MRec × Nat) x =>
      if x.1 = a.1.1 then ((x.1, (add32 a.1.2 x.2).1), a.2.1, a.2.2 + b2n (add32 a.1.2 x.2).2) else (x, a.2.1 ++ [a.1], a.2.2))
      (r, [], 0) |> fun a => (a.2.1 ++ [a.1], a.2.2)
/-- The owner's sum of mode 1: merge-sums in ascending source order, with the running sum as run 0. -/
def topSum (cs : List (Nat × Nat × List Byte)) : List MRec × Nat :=
  cs.foldl (fun a c =>
    let e := ixvEntries c.2.2
    let r := sumEqual (mergeTwo (a.1.length + e.length + 1) a.1 e)
    (r.1, a.2 + r.2)) ([], 0)
/-- Records written densely, in position order: the first record of an index stands, a later one is added to it (R157, R163).
Values by index, and saturations. -/
def denseSum (es : List MRec) : NMap (Option Nat) × Nat :=
  es.foldl (fun a e => match NMap.get none a.1 e.1 with
    | none => (NMap.set none a.1 e.1 (some e.2), a.2)
    | some x => (NMap.set none a.1 e.1 (some (add32 x e.2).1), a.2 + b2n (add32 x e.2).2)) ([], 0)
/-- The owner's sum of mode 2 for element `i` of its shard. -/
def signSum (cs : List (Nat × Nat × List Byte)) (i : Nat) : Nat × Nat :=
  cs.foldl (fun a c =>
    let w := fieldAt c.2.2 (8 * (i / 32)) 8
    let r := if bitOf w (i % 32) then sub32 a.1 (w / 2 ^ 32) else add32 a.1 (w / 2 ^ 32)
    (r.1, a.2 + b2n r.2)) (0, 0)

/-! ### The shard (R255-R260) -/

/-- The smallest e with 127 × 2^(e − 133) covering every finite value; 0 when all are zero (R256). -/
def expReport (vs : List Nat) : Nat :=
  let m := maxAbs (vs.map dec32)
  if m.isZero then 0 else raiseExp m 256 0

/-- The values of the shard and what their sum saturated, in element order. -/
def State.shardVals (s : State) (img : Image) (b : Nat) : List Nat × Nat :=
  let d := img.bucket b
  let k := s.bucketSt b
  let r := img.shard s.wheel.device d.n
  let cs := ((k.contribs.filter fun c => decide (c.2.1 ≠ 0)).foldl (fun (m : NMap (List (Nat × Nat × List Byte))) c =>
    NMap.set [] m c.1 [(c.1, c.2.1, s.bytes (s.contribAddr img d k c.1) c.2.2)]) []).flatMap (·.2)
  if d.mode = 0 then ((List.range (r.2 - r.1)).map fun i => s.num (s.valAddr img d k (r.1 + i)) 4, 0)
  else if d.mode = 1 then
    let t := topSum cs
    let m := denseSum t.1
    ((List.range (r.2 - r.1)).map fun i => (NMap.get none m.1 i).getD 0, t.2 + m.2)
  else
    let xs := (List.range (r.2 - r.1)).map (signSum cs)
    (xs.map (·.1), xs.foldl (fun n x => n + x.2) 0)

/-- The staging of a bucket is read for its shard (R265). -/
def State.readStaging (s : State) (img : Image) (b : Nat) : State :=
  let d := img.bucket b
  let k := s.bucketSt b
  let r := img.shard s.wheel.device d.n
  if d.mode = 0 then s.readOwn (s.valAddr img d k r.1) (4 * (r.2 - r.1))
  else k.contribs.foldl (fun t c => s.unlessFailed t fun u => u.readOwn (s.contribAddr img d k c.1) c.2.2) s

/-- C of the shard. -/
def State.shardCount (s : State) (img : Image) (b : Nat) : Nat :=
  if (img.bucket b).mode = 0 then (s.bucketSt b).total else (s.bucketSt b).contribs.foldl (fun n c => n + c.2.1) 0

/-- Everything this device's shard needs has arrived. -/
def State.shardReady (s : State) (img : Image) (b : Nat) : Bool :=
  let k := s.bucketSt b
  decide (k.st = .reducing) && (if (img.bucket b).mode = 0 then decide (k.stage = (img.ringStages s.wheel.device).length)
    else decide (k.contribs.length = s.wheel.p))

/-! ### The all-gather (R262) -/

/-- Bytes in one gather chunk frame (log 38). -/
def gatherBytes : Nat := 65536
/-- Bytes of a parameter element. -/
def BucketDef.pbytes (d : BucketDef) : Nat := fmtBits d.pfmt / 8
/-- Bytes received of a piece; none before its first frame. -/
def Bucket.gotBytes (k : Bucket) (stage j : Nat) : Option Nat :=
  ((k.gathered.filter fun g => g.1 == stage && g.2.1 == j).map (·.2.2)).head?
/-- A piece is complete. -/
def Bucket.gotPiece (k : Bucket) (stage j n : Nat) : Bool := match k.gotBytes stage j with
  | some m => decide (n ≤ m)
  | none => false

/-- Send the held range of the stage in progress, in the − direction; PARAM is read by the Wheel. -/
def State.gatherSend (s : State) (img : Image) (b : Nat) : State :=
  let d := img.bucket b
  let sts := img.ringStages s.wheel.device
  let stage := (s.bucketSt b).gatherStage - 1
  match sts[stage]?, (stageRanges 0 d.n sts)[stage]? with
  | some st, some r =>
    let p := r.piece st.me
    let n := d.pbytes * (p.2 - p.1)
    let a := d.param + d.pbytes * p.1
    (List.range (max 1 (cdiv n gatherBytes))).foldl (fun t c =>
      let m := min gatherBytes (n - gatherBytes * c)
      t.wheelSend img (2 + 2 * st.axis) (t.frameOf 3 (b * 65536 + st.me) (img.neighbour t.wheel.device st.axis false) 0 0
        ((List.range m).map fun i => t.fabByte img .wheel (a + gatherBytes * c + i)))) s
  | _, _ => s

/-- Go on from stage to stage while every piece has arrived; with no stage left the bucket is GATHERED and enters its
Weir. -/
def State.gatherAdvance (s : State) (img : Image) (b : Nat) : Nat → State
  | 0 => s
  | n + 1 =>
    let k := s.bucketSt b
    let d := img.bucket b
    let sts := img.ringStages s.wheel.device
    if k.gatherStage = 0 then
      let t := s.setBucket b { k with st := .gathered, passed := 5 }
      if k.passed < 5 then t.wheelEnter img d.gathered false else t
    else match sts[k.gatherStage - 1]?, (stageRanges 0 d.n sts)[k.gatherStage - 1]? with
      | some st, some r =>
        if ((List.range st.q).all fun j =>
            j == st.me || k.gotPiece (k.gatherStage - 1) j (d.pbytes * ((r.piece j).2 - (r.piece j).1))) = true then
          let t := s.setBucket b { k with gatherStage := k.gatherStage - 1 }
          (if k.gatherStage = 1 then t else t.gatherSend img b).gatherAdvance img b n
        else s
      | _, _ => s

/-- A gather chunk arrives: written to its place and sent on for Q − 1 hops in all; it waits while the bucket is not ready, and
while the write waits. -/
def State.gatherIn (s : State) (img : Image) (p : Nat) (f : Frame) : Took :=
  let b := f.id.toNat / 65536
  let j := f.id.toNat % 65536
  match s.portStage img p with
  | none => .ok s
  | some stage =>
    let k := s.bucketSt b
    let d := img.bucket b
    let sts := img.ringStages s.wheel.device
    match sts[stage]?, (stageRanges 0 d.n sts)[stage]? with
    | some st, some r =>
      if img.bucketCount ≤ b ∨ st.q ≤ j ∨ j = st.me then .ok s
      else if k.st ≠ .gathering ∨ k.gatherStage ≠ stage + 1 ∨
          k.gotPiece stage j (d.pbytes * ((r.piece j).2 - (r.piece j).1)) = true then .error []
      else
        let got := (k.gotBytes stage j).getD 0
        let room := d.pbytes * ((r.piece j).2 - (r.piece j).1) - got
        let body := f.body.take room
        let a := d.param + d.pbytes * (r.piece j).1 + got
        match s.deposit img .wheel none (((List.range body.length).zip body).map fun q => ⟨a + q.1, 0, 8, q.2.toNat⟩) with
        | .wait ps _ => .error ps
        | .stop t => .ok t
        | .go t =>
          let k1 := { k with gathered := (stage, j, got + body.length) ::
            k.gathered.filter fun g => !(g.1 == stage && g.2.1 == j) }
          let u := t.setBucket b k1
          let v := if (j + 1) % st.q = st.me then u else
            u.wheelSend img (2 + 2 * st.axis) (u.frameOf 3 f.id.toNat (img.neighbour u.wheel.device st.axis false) 0 0 f.body)
          .ok (v.gatherAdvance img b 4)
    | _, _ => .ok s

/-! ### Token exchanges (R263) -/

/-- The number that a routed row's COUNT field carries: the local experts of all earlier exchanges, then the local expert
(log 36). -/
def Image.laneBase (img : Image) (a : Nat) : Nat :=
  (List.range a).foldl (fun n i => n + (match img.router (img.exch i).router with
    | some r => cdiv r.e (max 1 (img.exch i).g)
    | none => 0)) 0
/-- The exchange and local expert of such a number. -/
def Image.laneOf (img : Image) (n : Nat) : Option (Nat × Nat) :=
  ((List.range img.exchangeCount).reverse.filterMap fun a =>
    if img.laneBase a ≤ n then some (a, n - img.laneBase a) else none).head?

/-- What an exchange works with: its entry, router, quotas and row stride. -/
structure ExchCtx where
  x : ExchDef
  r : RouterDef
  quota : List Nat
  stride : Nat
  bytes : Nat
deriving DecidableEq, Repr

def State.exchCtx (s : State) (img : Image) (a : Nat) : Option ExchCtx :=
  let x := img.exch a
  if img.exchangeCount ≤ a then none
  else match img.router x.router with
    | none => none
    | some r => some ⟨{ x with g := max 1 x.g }, r, s.quotasOf img .wheel r.mill r, (img.actRow r.num).1, (img.actRow r.num).2⟩

/-- Where a row of an exchange lands: its number in the buffer and the number of rows before the tags. -/
def ExchCtx.landing (c : ExchCtx) (me src l mb pos : Nat) : Option (Nat × Nat × Nat) :=
  if c.x.ret then
    match (localExperts c.r.e c.x.g src)[l]? with
    | none => none
    | some ex => if pos < c.quota.getD ex 0 then some (sendRow c.quota mb ex pos, 8 * c.quota.foldl (· + ·) 0, ex) else none
  else
    let ls := localExperts c.r.e c.x.g me
    match ls[l]? with
    | none => none
    | some ex => if pos < c.quota.getD ex 0 then
        some (recvRow c.quota c.x.g ls l (src % c.x.g) mb pos, (recvOffs c.quota c.x.g ls).getLastD 0, ex) else none

/-- Counts that an exchange receives: from every device of the group, for each of its micro-batches. -/
def State.expectedCounts (s : State) (img : Image) (c : ExchCtx) : Nat :=
  img.rtM * (if c.x.ret then
    (List.range c.x.g).foldl (fun n d => n + (localExperts c.r.e c.x.g d).length) 0
  else c.x.g * (localExperts c.r.e c.x.g s.wheel.device).length)
/-- Every count has arrived and every counted row has landed. -/
def State.exchComplete (s : State) (img : Image) (a : Nat) : Bool :=
  match s.exchCtx img a with
  | none => false
  | some c =>
    let k := s.exchSt a
    decide (k.counts.length = s.expectedCounts img c) && decide (k.rows = k.counts.foldl (fun n x => n + x.2) 0)

/-- An exchange that has been received whole takes no more: what comes then belongs to the next step. After a restart it
takes the step's rows again (R264). -/
def State.exchClosed (s : State) (img : Image) (a : Nat) : Bool := decide ((s.exchSt a).passed = 3) && s.exchComplete img a

/-- A routed row arrives: its bytes and its tag land at their fixed position. -/
def State.rowIn (s : State) (img : Image) (ret : Bool) (f : Frame) : Took :=
  match img.laneOf f.count.toNat with
  | none => .ok s
  | some (a, l) => match s.exchCtx img a with
    | none => .ok s
    | some c =>
      if c.x.ret ≠ ret then .ok s
      else if s.exchClosed img a then .error []
      else match c.landing s.wheel.device f.src.toNat l (bitsOf f.id.toNat 18 16) f.pos.toNat with
        | none => .ok s
        | some (row, rows, ex) =>
          let body := f.body.take c.bytes
          let tag := c.x.recv + c.stride * rows + 8 * row
          match s.deposit img .wheel none ((((List.range body.length).zip body).map fun q =>
              (⟨c.x.recv + c.stride * row + q.1, 0, 8, q.2.toNat⟩ : Put)) ++ [⟨tag, 0, 32, f.id.toNat⟩, ⟨tag + 4, 0, 32, ex⟩]) with
          | .wait ps _ => .error ps
          | .stop t => .ok t
          | .go t => .ok (t.setExch a { t.exchSt a with rows := (t.exchSt a).rows + 1 })

/-- A row count arrives: it is written to COUNTS. ID carries exchange and local expert, POS the micro-batch (log 36). -/
def State.rowCountIn (s : State) (img : Image) (f : Frame) : Took :=
  let a := f.id.toNat / 65536
  let l := f.id.toNat % 65536
  match s.exchCtx img a with
  | none => .ok s
  | some c =>
    let k := s.exchSt a
    let i := l * 8 * c.x.g + 8 * (f.src.toNat % c.x.g) + f.pos.toNat % 8
    if s.exchClosed img a = true ∨ k.counts.any (fun x => x.1 == i) = true then .error []
    else match s.deposit img .wheel none [⟨c.x.counts + 4 * i, 0, 32, f.count.toNat⟩] with
      | .wait ps _ => .error ps
      | .stop t => .ok t
      | .go t => .ok (t.setExch a { t.exchSt a with counts := (i, f.count.toNat) :: (t.exchSt a).counts })

/-- The frames of a dispatch: for each expert and micro-batch its packed rows, then their count. -/
def State.dispatchFrames (s : State) (img : Image) (a : Nat) (c : ExchCtx) : List Frame :=
  let me := s.wheel.device
  let tags := c.x.send + tagsOff c.stride c.quota
  (List.range c.r.e).flatMap fun ex => (List.range img.rtM).flatMap fun mb =>
    let dest := me / c.x.g * c.x.g + ex % c.x.g
    let lane := img.laneBase a + ex / c.x.g
    let rows := (List.range (c.quota.getD ex 0)).filterMap fun pos =>
      let row := sendRow c.quota mb ex pos
      let tag := s.fabNum img .wheel (tags + 8 * row) 4
      if tag = 0xFFFFFFFF then none
      else some (s.frameOf 4 tag dest lane pos ((List.range c.bytes).map fun i => s.fabByte img .wheel (c.x.send + c.stride * row + i)))
    rows ++ [s.frameOf 6 (a * 65536 + ex / c.x.g) dest rows.length mb []]

/-- The frames of a return: the rows received by the dispatch go back to their sources, each with its tag. -/
def State.returnFrames (s : State) (img : Image) (a : Nat) (c : ExchCtx) (y : ExchDef) : List Frame :=
  let me := s.wheel.device
  let ls := localExperts c.r.e c.x.g me
  let rows := (recvOffs c.quota c.x.g ls).getLastD 0
  (List.range ls.length).flatMap fun l => (List.range c.x.g).flatMap fun dd => (List.range img.rtM).flatMap fun mb =>
    let dest := me / c.x.g * c.x.g + dd
    let n := min (c.quota.getD (ls.getD l 0) 0) (s.fabNum img .wheel (y.counts + 4 * (l * 8 * c.x.g + 8 * dd + mb)) 4)
    ((List.range n).map fun pos =>
      let row := recvRow c.quota c.x.g ls l dd mb pos
      s.frameOf 5 (s.fabNum img .wheel (y.recv + c.stride * rows + 8 * row) 4) dest (img.laneBase a + l) pos
        ((List.range c.bytes).map fun i => s.fabByte img .wheel (c.x.send + c.stride * row + i))) ++
      [s.frameOf 6 (a * 65536 + l) dest n mb []]

/-- Bytes of a row that an exchange sends. -/
def ExchCtx.rowAt (c : ExchCtx) (row : Nat) : List Nat := (List.range c.bytes).map fun i => c.x.send + c.stride * row + i
/-- Bytes of a 32-bit number. -/
def numAt (a : Nat) : List Nat := (List.range 4).map (a + ·)

/-- The Wheel reads what a dispatch sends, by the rules of every read (R105, R112, R127, R130): every tag, and the rows that hold
one. -/
def State.readDispatch (s : State) (img : Image) (c : ExchCtx) : Out :=
  let tags := c.x.send + tagsOff c.stride c.quota
  let rows := (List.range c.r.e).flatMap fun ex => (List.range img.rtM).flatMap fun mb =>
    (List.range (c.quota.getD ex 0)).map fun pos => sendRow c.quota mb ex pos
  (s.fetch img .wheel none true (rows.flatMap fun r => numAt (tags + 8 * r))).andThen fun t =>
    t.fetch img .wheel ((img.actDesc c.x.router).map (·.group)) true
      ((rows.filter fun r => decide (t.fabNum img .wheel (tags + 8 * r) 4 ≠ 0xFFFFFFFF)).flatMap c.rowAt)

/-- The same for a return: the counts of its dispatch, then the rows counted and their tags. -/
def State.readReturn (s : State) (img : Image) (c : ExchCtx) (y : ExchDef) : Out :=
  let ls := localExperts c.r.e c.x.g s.wheel.device
  let tags := y.recv + c.stride * (recvOffs c.quota c.x.g ls).getLastD 0
  let blocks := (List.range ls.length).flatMap fun l => (List.range c.x.g).flatMap fun dd => (List.range img.rtM).map fun mb => (l, dd, mb)
  let countAt := fun (b : Nat × Nat × Nat) => y.counts + 4 * (b.1 * 8 * c.x.g + 8 * b.2.1 + b.2.2)
  (s.fetch img .wheel none true (blocks.flatMap fun b => numAt (countAt b))).andThen fun t =>
    let rows := blocks.flatMap fun b =>
      (List.range (min (c.quota.getD (ls.getD b.1 0) 0) (t.fabNum img .wheel (countAt b) 4))).map fun pos =>
        recvRow c.quota c.x.g ls b.1 b.2.1 b.2.2 pos
    (t.fetch img .wheel none true (rows.flatMap fun r => numAt (tags + 8 * r))).andThen fun u =>
      u.fetch img .wheel ((img.actDesc c.x.router).map (·.group)) true (rows.flatMap c.rowAt)

/-- What exchange `a` reads and sends. -/
def State.readExch (s : State) (img : Image) (a : Nat) (c : ExchCtx) : Out :=
  if c.x.ret then
    (match img.dispatchExch c.x.router a with
     | some y => s.readReturn img c y
     | none => .go s)
  else s.readDispatch img c
def State.exchFrames (s : State) (img : Image) (a : Nat) (c : ExchCtx) : List Frame :=
  if c.x.ret then
    (match img.dispatchExch c.x.router a with
     | some y => s.returnFrames img a c y
     | none => [])
  else s.dispatchFrames img a c

/-! ### Commit records and digests (R266, R292) -/

/-- Position-wise maximum of two lists, the longer one's rest kept. -/
def maxLists : List Nat → List Nat → List Nat
  | [], ys => ys
  | xs, [] => xs
  | x :: xs, y :: ys => max x y :: maxLists xs ys

/-- Keep a device's commit record and take its exponent reports into the group maximum. -/
def State.keepRecord (s : State) (src : Nat) (w0 w1 : Word64) (bytes : List Nat) : State :=
  { s with wheel.records := NMap.set none s.wheel.records src (some (w0, w1)), wheel.exps := maxLists s.wheel.exps bytes }

/-- Send a device's record to every other device of the group (R292). -/
def State.sendRecord (s : State) (img : Image) (src : Nat) (w : Word64 × Word64) (bytes : List Nat) : State :=
  ((List.range s.wheel.p).filter fun d => d != s.wheel.device).foldl (fun t d =>
    t.sendTo img { t.frameOf 9 0 d 0 0 (leBytes 8 w.1.toNat ++ leBytes 8 w.2.toNat ++ bytes.flatMap (leBytes 1)) with
      src := BitVec.ofNat 13 src }) s
/-- The exponent reports of the own shards, by bucket. -/
def State.reports (s : State) (img : Image) : List Nat := (List.range img.bucketCount).map fun b => (s.bucketSt b).report

/-- A record with the DIGEST vote. -/
def digestVoted (r : Word64 × Word64) : Word64 × Word64 := (r.1 ||| 4, r.2)
/-- A mismatch votes against the commit (R266): in the own record when it is formed, or, when that has been sent already and
the decision has not been applied, in the same record sent once more (log 76). -/
def State.voteDigest (s : State) (img : Image) : State :=
  let t := { s with wheel.digestVote := true }
  match NMap.get none t.wheel.records t.wheel.device with
  | some r =>
    if t.run.inStep && decide (r ≠ digestVoted r) then
      (t.keepRecord t.wheel.device (digestVoted r).1 r.2 []).sendRecord img t.wheel.device (digestVoted r) (t.reports img)
    else t
  | none => t

/-- Compare a neighbour's digests with the own RECV digests of the port (R266). -/
def State.compareDigests (s : State) (img : Image) (p : Nat) (body : List Byte) : State :=
  s.unlessFailed ((List.range img.bucketCount).foldl (fun t b => s.unlessFailed t fun u => u.readOwn (indexAddr b + 8 * (9 + 2 * p)) 8) s)
    fun t =>
      match (List.range img.bucketCount).filter fun b => decide (fieldAt body (8 * b) 8 ≠ t.num (indexAddr b + 8 * (9 + 2 * p)) 8) with
      | [] => t
      | b :: bs =>
        let u := (t.countN (cWheel 2) (bs.length + 1)).voteDigest img
        if u.wheel.digLog.getLsbD 16 then u else { u with wheel.digLog := BitVec.ofNat 17 (2 ^ 16 + p * 2 ^ 12 + b % 2 ^ 12) }

/-- A control frame arrives: digests, told by their length (log 38), or a device's commit record. A second record of a
device waits for the next step, unless it repeats the first, or adds the DIGEST vote to it before the decision (log 76). -/
def State.controlIn (s : State) (img : Image) (p : Nat) (f : Frame) : Took :=
  if f.body.length = 8 * img.bucketCount ∧ 0 < img.bucketCount then .ok (s.compareDigests img p f.body)
  else
    let w0 := BitVec.ofNat 64 (fieldAt f.body 0 8)
    let w1 := BitVec.ofNat 64 (fieldAt f.body 8 8)
    match NMap.get none s.wheel.records f.src.toNat with
    | some r =>
      if r = (w0, w1) then .ok s
      else if s.run.inStep && decide ((w0, w1) = digestVoted r) then .ok (s.keepRecord f.src.toNat w0 w1 [])
      else .error []
    | none => .ok (s.keepRecord f.src.toNat w0 w1 ((f.body.drop 16).map (·.toNat)))

/-! ### GM6 windows (R247-R249) -/

/-- Send a refusal with a reason. -/
def State.refuseWindow (s : State) (p : Nat) (f : Frame) (reason : Nat) : State :=
  s.queueFrame p ⟨0x08, f.id, f.src, f.dest, 0, 0, leBytes 8 reason⟩

/-- Banks of a Hopper that a byte range meets. -/
def State.banksIn (s : State) (m off n : Nat) : List BankState :=
  if n = 0 then [] else (List.range ((off + n - 1) / 0x20000 - off / 0x20000 + 1)).map fun i => s.bankAt m (off + 0x20000 * i)
/-- An earlier write is held that this one must follow: one of its port, or, when it rings, one to its window (R248, R249).
The ring and the landing of a write are one step, so a write that rings lands once those before it have (log 79). -/
def State.mustFollow (s : State) (p : Nat) (f : Frame) : Bool :=
  s.wheel.heldFrames.any fun x => x.2.kind == 7 && (x.1.val == p ||
    (bitOf f.id.toNat 27 && bitsOf x.2.id.toNat 31 28 == bitsOf f.id.toNat 31 28))

/-- A window write arrives: it lands, is refused, or waits for its banks, or behind an earlier write. -/
def State.windowIn (s : State) (p : Nat) (f : Frame) : Took := match s.image with
  | none => .ok ((s.count (cFlume p 7)).refuseWindow p f 1)
  | some img => match img.windowDefs[bitsOf f.id.toNat 31 28]? with
    | none => .ok ((s.count (cFlume p 7)).refuseWindow p f 1)
    | some w =>
      let q := s.fport p
      let off := bitsOf f.id.toNat 20 0
      let m := img.phys w.mill
      let a := hopperBase m + w.off + off
      let banks := s.banksIn m (w.off + off) f.body.length
      if s.mustFollow p f then .error []
      else if f.body.length % 8 ≠ 0 ∨ 4096 < f.body.length ∨ w.len < off + f.body.length ∨ !img.windows then
        .ok ((s.count (cFlume p 7)).refuseWindow p f 1)
      else if banks.any fun b => b == .off || b == .closing then .ok ((s.count (cHopper m 6)).refuseWindow p f 2)
      else if !bitOf w.ports p || !q.peerGm6 || decide (w.peer ≠ 0 ∧ BitVec.ofNat 64 w.peer ≠ q.nowSerial) then
        .ok ((s.count (cFlume p 7)).refuseWindow p f 3)
      else if !s.ctx.active then .ok ((s.count (cFlume p 7)).refuseWindow p f 4)
      else if banks.contains .waking then .error []
      else
        let t := ((quartersOf ((List.range f.body.length).map (a + ·))).foldl (fun u x =>
          u.present (dueKey (0x1000 + w.mill) 9 false) ⟨noStream, 1, 1, writtenBank true x.1⟩) s).pokes a f.body
        .ok (if bitOf f.id.toNat 27 && decide (w.bell ≠ 0xFFFF) then t.wheelEnter img w.bell false else t)

/-! ### Frames (R239, R251) -/

/-- Handle a frame for this device. -/
def State.frameHere (s : State) (img : Image) (p : Nat) (f : Frame) : Took :=
  if f.kind = 1 then s.ringIn img p f
  else if f.kind = 2 then s.contributionIn img f
  else if f.kind = 3 then s.gatherIn img p f
  else if f.kind = 4 then s.rowIn img false f
  else if f.kind = 5 then s.rowIn img true f
  else if f.kind = 6 then s.rowCountIn img f
  else if f.kind = 9 then s.controlIn img p f
  else .ok s

/-- A frame for another device is forwarded on the torus; window frames belong to their link. -/
def State.passOn (s : State) (f : Frame) : Bool :=
  decide (f.kind ≠ 7) && decide (f.kind ≠ 8) && decide (f.dest.toNat ≠ s.wheel.device)

/-- A frame of the group: handled while the Wheel is not stalled, held otherwise (R264). A class 0 frame that came before its
step waits for the admission, and may be one to send on. -/
def State.tryFrame (s : State) (p : Nat) (f : Frame) : Took :=
  if f.kind = 7 then s.windowIn p f
  else match s.image with
    | none => .ok s
    | some img =>
      if s.wheel.stalled then .error []
      else if s.passOn f then (if s.wheel.active then .ok (s.sendTo img f) else .error [])
      else s.frameHere img p f

/-- Try every held frame once, in order; frames that cannot be handled stay held, in order. -/
def State.tryHeld (s : State) : List (Fin 12 × Frame) → State
  | [] => s
  | x :: xs => match s.tryFrame x.1.val x.2 with
    | .ok t => t.tryHeld xs
    | .error ps => (State.touch { s with wheel.heldFrames := s.wheel.heldFrames ++ [x] } ps).tryHeld xs
/-- Try the held frames again and again while one of them is handled. -/
def State.drainHeld (s : State) : Nat → State
  | 0 => s
  | n + 1 =>
    let t := ({ s with wheel.heldFrames := [] }).tryHeld s.wheel.heldFrames
    if t.wheel.heldFrames.length < s.wheel.heldFrames.length then t.drainHeld n else t
/-- The held frames that have become ready are handled. -/
def State.wheelDrain (s : State) : State :=
  if s.wheel.heldFrames.isEmpty then s else s.drainHeld (s.wheel.heldFrames.length + 1)

/-- The class 0 frames that are held at an admission belong to the step: each is taken into its digest, in order (R266). -/
def State.digestHeld (s : State) (img : Image) : State :=
  s.wheel.heldFrames.foldl (fun t x => s.unlessFailed t fun u => u.digestFrame img (9 + 2 * x.1.val) x.2) s

/-- Handle a frame or hold it, then whatever has become ready. -/
def State.frameNow (s : State) (p : Fin 12) (f : Frame) : State :=
  match s.tryFrame p.val f with
  | .ok t => t.wheelDrain
  | .error ps => State.touch { s with wheel.heldFrames := s.wheel.heldFrames ++ [(p, f)] } ps

/-- A port that carries Wheel traffic of a KIND (R250, R251): one with a role from 1 to 6. An image without BUCKETS gives
its ports no roles; control frames, which the commit exchange of its group needs (R292), are then taken on every port
(log 52). The Wheel never uses a port that faces a GM6 (R240). -/
def State.carries (s : State) (p : Nat) (kind : Byte) : Bool := match s.image with
  | none => false
  | some img => !(s.fport p).peerGm6 && ((decide (1 ≤ s.role p) && decide (s.role p ≤ 6)) || (!img.hasBuckets && kind == 9))

/-- A frame of the group is taken into its digest, and handled or sent on. -/
def State.groupFrame (s : State) (img : Image) (p : Fin 12) (f : Frame) : State :=
  s.unlessFailed (s.digestFrame img (9 + 2 * p.val) f) fun t => if t.passOn f then t.sendTo img f else t.frameNow p f

/-- A frame arrives on a port (R239): a reserved KIND is discarded and counted; a port of role 0 or 7 carries no Wheel
traffic (R251). A class 0 frame that arrives before its step is admitted waits for the admission, which zeroes the digests
(R266). -/
def State.frameArrive (s : State) (p : Fin 12) (f : Frame) : State :=
  if f.kind = 0 ∨ 9 < f.kind.toNat then s.count (cFlume p.val 1)
  else if f.kind = 7 then s.frameNow p f
  else if f.kind = 8 ∨ s.wheel.valid = false ∨ s.carries p.val f.kind = false then s
  else match s.image with
    | none => s
    | some img =>
      if !s.wheel.active && decide (frameClass f.kind = 0) then { s with wheel.heldFrames := s.wheel.heldFrames ++ [(p, f)] }
      else s.groupFrame img p f

/-- A frame of a command's KIND on an ACTIVE port. -/
def State.frameCmd (s : State) (p : Fin 12) (f : Frame) (kind : Byte) : State :=
  if (s.fport p.val).st = .active ∧ f.kind = kind then s.frameArrive p f else s

/-- RING_CHUNK (R255). -/
def execRingChunk (p : Fin 12) (f : Frame) (s : State) : Host.Outcome State Fault Refusal := done (s.frameCmd p f 1)
/-- COMPRESSED_CONTRIBUTION (R258-R260). -/
def execCompressedContribution (p : Fin 12) (f : Frame) (s : State) : Host.Outcome State Fault Refusal := done (s.frameCmd p f 2)
/-- GATHER_CHUNK (R262). -/
def execGatherChunk (p : Fin 12) (f : Frame) (s : State) : Host.Outcome State Fault Refusal := done (s.frameCmd p f 3)
/-- DISPATCH_ROW (R263). -/
def execDispatchRow (p : Fin 12) (f : Frame) (s : State) : Host.Outcome State Fault Refusal := done (s.frameCmd p f 4)
/-- RETURN_ROW (R263). -/
def execReturnRow (p : Fin 12) (f : Frame) (s : State) : Host.Outcome State Fault Refusal := done (s.frameCmd p f 5)
/-- ROW_COUNT (R263). -/
def execRowCount (p : Fin 12) (f : Frame) (s : State) : Host.Outcome State Fault Refusal := done (s.frameCmd p f 6)
/-- WINDOW_WRITE (R248). -/
def execWindowWrite (p : Fin 12) (f : Frame) (s : State) : Host.Outcome State Fault Refusal := done (s.frameCmd p f 7)
/-- CONTROL_FRAME (R266, R292). -/
def execControlFrame (p : Fin 12) (f : Frame) (s : State) : Host.Outcome State Fault Refusal := done (s.frameCmd p f 9)

/-! ### Neighbour loss (R264) -/

/-- A port has lost its neighbour: it is DOWN, or faces a different serial number. -/
def FlumePort.lost (q : FlumePort) : Bool :=
  decide (q.st = .down) || (decide (q.st = .active) && decide (q.peerSerial ≠ some q.nowSerial))
def State.neighbourLoss (s : State) (p : Nat) : State :=
  if s.run.job ≠ 0 ∧ 1 ≤ s.role p ∧ s.role p ≤ 6 ∧ (s.fport p).lost = true then
    { s with wheel.stalled := true, health.lastNeighbour := some s.time.ns }
  else s
/-- NEIGHBOUR_LOSS (R264). -/
def execNeighbourLoss (p : Fin 12) (s : State) : Host.Outcome State Fault Refusal := done (s.neighbourLoss p.val)

/-! ### Bucket life cycle (R254) -/

/-- The lowest part of the staging area that no bucket in flight holds. -/
def State.freePart (s : State) : Nat :=
  let used := s.wheel.buckets.filterMap fun p => if p.2.st = .filling ∨ p.2.st = .reducing then some p.2.part else none
  (findIdx (fun i => !used.contains i) (List.range 4)).getD 0

def State.bucketLaunch (s : State) : State := match s.image with
  | none => s
  | some img =>
    let b := s.wheel.nextLaunch
    if s.wheel.active ∧ s.wheel.stalled = false ∧ b < img.bucketCount ∧ s.inFlight < 4 then
      let k := s.bucketSt b
      s.unlessFailed (State.readOwn { s with wheel.nextLaunch := b + 1 } (indexAddr b) 256) fun t =>
        let u := t.setBucket b { k with st := .filling, passed := max 1 k.passed, part := t.freePart }
        (if k.passed = 0 then u.wheelEnter img (img.bucket b).fill true else u).wheelDrain
    else s
/-- BUCKET_LAUNCH (R254). -/
def execBucketLaunch (s : State) : Host.Outcome State Fault Refusal := done s.bucketLaunch

/-- The device's contribution count (R286). -/
def State.contribution (s : State) (img : Image) : Nat :=
  if s.run.backward || decide (s.run.gradNan < s.groupTotal img.gradGroup false) then 0
  else img.rtM - ((List.range 8).filter fun i => s.run.mask.getLsbD i).length

/-- A word of a byte range is uncorrectable, as the Wheel would read it. -/
def State.rangeUe (s : State) (img : Image) (a n : Nat) : Bool :=
  (distinct ((List.range n).map fun i => s.xlat img (a + i) / 8)).any fun w => decide (eccOf (s.rawWord w) (s.synOf w) = .ue)

/-- Begin to reduce a bucket with its count. -/
def State.reduceStart (s : State) (img : Image) (b count : Nat) : Out :=
  let d := img.bucket b
  let bad := decide (count ≠ 0) && s.rangeUe img d.grad (2 * d.n)
  let o := if count = 0 then Out.go s
    else s.fetch img .wheel (some d.group) true ((List.range (2 * d.n)).map (d.grad + ·))
  o.andThen fun t =>
    let t1 := if bad then { t.count (cRun 2) with run.late := true } else t
    let k := t1.bucketSt b
    let t2 := t1.setBucket b { k with st := .reducing, passed := max 2 k.passed, count := count, stage := 0, counts := [count], total := count }
    if d.mode ≠ 0 then t2.compressStart img b count
    else if (img.ringStages t2.wheel.device).isEmpty then
      let k2 := t2.bucketSt b
      let xs := (List.range d.n).map fun i => t2.localX img d k2 0 i
      .go ((t2.countHops d true xs []).putVals img d k2 0 (xs.map fun x => (round32 (dec32 x)).1))
    else .go (t2.ringStart img b 0)

def State.fillRelease (s : State) (b : Nat) : State := match s.image with
  | none => s
  | some img =>
    let k := s.bucketSt b
    let d := img.bucket b
    if k.st = .filling ∧ s.wheel.stalled = false ∧ (2 ≤ k.passed ∨ s.wheelReleased img d.fill = true) then
      let count := if 2 ≤ k.passed then k.count else s.contribution img
      let t := if 2 ≤ k.passed then s else s.wheelTake img d.fill
      let u := if t.run.phase = 2 then { t with run.phase := 3 } else t
      match u.reduceStart img b count with
      | .go v => v.wheelDrain
      | .stop v => v
      | .wait ps _ => s.touch ps
    else s
/-- BUCKET_FILL_RELEASE (R254, R286). -/
def execBucketFillRelease (b : Nat) (s : State) : Host.Outcome State Fault Refusal := done (s.fillRelease b)

def State.bucketReduced (s : State) (b : Nat) : State := match s.image with
  | none => s
  | some img =>
    if s.shardReady img b then s.unlessFailed (s.readStaging img b) fun s =>
      let d := img.bucket b
      let v := s.shardVals img b
      let c := s.shardCount img b
      match s.deposit img .wheel none ((((List.range v.1.length).zip v.1).map fun p => (⟨d.shard + 4 * p.1, 0, 32, p.2⟩ : Put)) ++
          [⟨d.shard + 4 * v.1.length, 0, 32, c⟩]) with
      | .wait ps _ => s.touch ps
      | .stop t => t
      | .go t =>
        let k := t.bucketSt b
        let u := (t.countN (cGroup d.group 2) v.2).setBucket b
          { k with st := .reduced, passed := max 3 k.passed, total := c, report := expReport v.1 }
        if k.passed < 3 then (u.wheelEnter img d.donev false).wheelEnter img d.updated true else u
    else s
/-- BUCKET_REDUCED (R254). -/
def execBucketReduced (b : Nat) (s : State) : Host.Outcome State Fault Refusal := done (s.bucketReduced b)

def State.gatherStart (s : State) (b : Nat) : State := match s.image with
  | none => s
  | some img =>
    let k := s.bucketSt b
    let d := img.bucket b
    if k.st = .reduced ∧ b = s.wheel.nextGather ∧ s.wheel.stalled = false ∧
        (4 ≤ k.passed ∨ s.wheelReleased img d.updated = true) then
      let sts := img.ringStages s.wheel.device
      let r := img.shard s.wheel.device d.n
      let t := if 4 ≤ k.passed then s else s.wheelTake img d.updated
      let u := { t.setBucket b { k with st := .gathering, passed := max 4 k.passed, gatherStage := sts.length, gathered := [] } with
        wheel.nextGather := b + 1 }
      match u.fetch img .wheel none true ((List.range (d.pbytes * (r.2 - r.1))).map fun i => d.param + d.pbytes * r.1 + i) with
      | .go v => ((if sts.isEmpty then v else v.gatherSend img b).gatherAdvance img b 4).wheelDrain
      | .stop v => v
      | .wait ps _ => s.touch ps
    else s
/-- BUCKET_GATHER_START (R254, R262). -/
def execBucketGatherStart (b : Nat) (s : State) : Host.Outcome State Fault Refusal := done (s.gatherStart b)

/-! ### Exchanges and the commit Weir (R254, R263) -/

/-- The Wheel enters SEND of an exchange, WAIT; exchanges are sent in order (log 36). -/
def State.enterSend (s : State) (img : Image) (a : Nat) : State :=
  if a < img.exchangeCount ∧ (s.exchSt a).passed = 0 then
    State.wheelEnter (s.setExch a { s.exchSt a with passed := 1 }) img (img.exch a).sendWeir true
  else s

/-- Deliver the own rows at once and send the others. -/
def State.sendRows (s : State) (img : Image) (fs : List Frame) : State :=
  fs.foldl (fun t f => if f.dest.toNat = t.wheel.device then t.frameNow 0 f else t.sendTo img f) s

def State.exchangeSend (s : State) (a : Nat) : State := match s.image with
  | none => s
  | some img =>
    let k := s.exchSt a
    let x := img.exch a
    if s.wheel.active ∧ s.wheel.stalled = false ∧ a < img.exchangeCount ∧ k.sent = false ∧
        (2 ≤ k.passed ∨ (k.passed = 1 ∧ s.wheelReleased img x.sendWeir = true)) then
      let t := if 2 ≤ k.passed then s else s.wheelTake img x.sendWeir
      let u := t.setExch a { k with passed := max 2 k.passed, sent := true }
      match u.exchCtx img a with
      | none => u.enterSend img (a + 1)
      | some c =>
        match u.readExch img a c with
        | .go v => (v.sendRows img (v.exchFrames img a c)).enterSend img (a + 1)
        | .stop v => v
        | .wait ps _ => s.touch ps
    else s
/-- EXCHANGE_SEND (R263). -/
def execExchangeSend (a : Nat) (s : State) : Host.Outcome State Fault Refusal := done (s.exchangeSend a)

def State.exchangeReceived (s : State) (a : Nat) : State := match s.image with
  | none => s
  | some img =>
    let k := s.exchSt a
    if s.wheel.active ∧ k.passed < 3 ∧ k.sent = true ∧ s.exchComplete img a = true then
      State.wheelEnter (s.setExch a { k with passed := 3 }) img (img.exch a).recvWeir false
    else s
/-- EXCHANGE_RECEIVED (R263). -/
def execExchangeReceived (a : Nat) (s : State) : Host.Outcome State Fault Refusal := done (s.exchangeReceived a)

/-- Every bucket is GATHERED and every exchange has completed. -/
def State.wheelThrough (s : State) (img : Image) : Bool :=
  ((List.range img.bucketCount).all fun b => (s.bucketSt b).st == .gathered) &&
    (List.range img.exchangeCount).all fun a => (s.exchSt a).passed == 3

def State.wheelCommitEntry (s : State) : State := match s.image with
  | none => s
  | some img =>
    if s.wheel.active ∧ img.hasRt = true ∧ s.wheel.atCommit = false ∧ s.wheelThrough img = true then
      State.wheelEnter { s with wheel.atCommit := true } img img.rtCommitWeir true
    else s
/-- WHEEL_COMMIT_ENTRY (R254). -/
def execWheelCommitEntry (s : State) : Host.Outcome State Fault Refusal := done s.wheelCommitEntry

end Sys2Proof.Machine
end

