-- ==== Sys2Proof/Machine/FlumeRx.lean ====
section
/-! DEFINITION. DATA flits: the bytes of a class are put together into frames, and complete frames are handled (R235, R237-R239). -/
namespace Sys2Proof.Machine

/-- The frame at the front of received bytes, and the bytes after it; none while it is incomplete. -/
def takeFrame (bs : List Byte) : Option (Frame × List Byte) :=
  if bs.length < 16 then none
  else
    let w0 := fieldAt bs 0 8
    let w1 := fieldAt bs 8 8
    let n := bitsOf w0 63 40
    if bs.length < 16 + roundUp n 8 then none
    else some (⟨BitVec.ofNat 8 (bitsOf w0 39 32), BitVec.ofNat 32 w0, BitVec.ofNat 13 w1, BitVec.ofNat 13 (bitsOf w1 25 13),
      BitVec.ofNat 16 (bitsOf w1 41 26), BitVec.ofNat 16 (bitsOf w1 57 42), slice bs 16 n⟩, bs.drop (16 + roundUp n 8))

/-- The complete frames at the front of received bytes, and what is left. -/
def takeFrames : Nat → List Byte → List Frame × List Byte
  | 0, bs => ([], bs)
  | n + 1, bs => match takeFrame bs with
    | none => ([], bs)
    | some r =>
      let t := takeFrames n r.2
      (r.1 :: t.1, t.2)

/-- Take the payload of an accepted DATA flit: its buffer is freed at once, and the frames it completes are handled. -/
def State.dataBytes (s : State) (p : Fin 12) (f : FlitIn) : State :=
  let q := s.fport p.val
  let bytes := (f.payload.take f.count).flatMap (leBytes 8)
  let r := takeFrames (bytes.length + 1) (q.rxBuf.getD f.cls [] ++ bytes)
  r.1.foldl (fun t x => t.frameArrive p x) (s.setFport p.val { q with
    rxBuf := setAt q.rxBuf f.cls r.2, freed := setAt q.freed f.cls (q.freed.getD f.cls 0 + 1) })

def State.dataIn (s : State) (p : Fin 12) (words : List (BitVec 72)) : State :=
  s.flitArrive p.val words fun t f =>
    if f.typ = 1 then t.sequenced p.val f fun u => (u.dataBytes p f).pumpAll p.val else t
/-- DATA (R235, R237). -/
def execData (p : Fin 12) (words : List (BitVec 72)) (s : State) : Host.Outcome State Fault Refusal := done (s.dataIn p words)

end Sys2Proof.Machine
end

