-- ==== Sys2Proof/Machine/Tailrace.lean ====
section
/-! DEFINITION. Tailrace (R343-R348, R358) and the memory accesses of the Miller (R105, R113, R332). -/
namespace Sys2Proof.Machine

/-! ### Memory as the Miller reaches it -/

/-- A range that a MEM_READ may address: the data and metadata regions, and for Tailrace the check region too. -/
def memReadable (check : Bool) (a n : Nat) : Bool :=
  inData a n || (decide (metaBase ≤ a) && decide (a + n ≤ 0xC000000000)) ||
    (check && decide (a + n ≤ 0xC000000000))

/-! ### Frames -/

/-- Send a reply: OPCODE with bit 7 set, the TAG and ARG of the request, to its source. -/
def State.trReply (s : State) (t : TrHdr) (opcode status : Nat) (payload : List Byte) : State :=
  (s.emit (.tailrace t.port t.srcMac (BitVec.ofNat 8 (opcode + 0x80)) t.tag status t.arg payload)).tx t.port

/-- The gate of every frame: version 1, on a port whose link is up; refused and counted once Tailrace is closed. -/
def State.tailrace (s : State) (t : TrHdr) (opcode : Nat) (run : State → State) : State :=
  if s.up && (s.port t.port.val).linkUp then
    let u := s.rx t.port
    if t.version ≠ 1 then u
    else if u.leat.tailraceOpen then run u
    else (u.count (cLeat 3)).trReply t opcode 1 []
  else s

/-- The lane selector of ARG: lane in [7:0] and port in [15:8]. -/
def trSel (t : TrHdr) : Nat := t.arg.toNat % 2 ^ 16
/-- A lane that exists: four of an Ethernet port, five of a Flume port. -/
def laneOk (sel : Nat) : Bool :=
  (decide (sel / 256 < 2) && decide (sel % 256 < 4)) ||
    (decide (0x10 ≤ sel / 256) && decide (sel / 256 < 0x1C) && decide (sel % 256 < 5))
/-- DURATION in milliseconds, 1 to 60,000. -/
def trDuration (t : TrHdr) : Nat := bitsOf t.arg.toNat 47 32
def trDurationOk (t : TrHdr) : Bool := decide (1 ≤ trDuration t) && decide (trDuration t ≤ 60000)

/-! ### Tests (R346, R347) -/

/-- A test takes a port out of service: a Flume port is held out of training, an Ethernet link goes down. -/
def State.holdPort (s : State) (port : Nat) : State :=
  if port < 2 then s.setPort port { (s.port port).dropped with downAt := none }
  else
    let p := port - 0x10
    let t := if (s.fport p).st = .active ∨ (s.fport p).st = .retrain then s.portDown p else s.portOff p
    t.setFport p { t.fport p with held := true }

/-- The port of a test that has ended is restored, and trains again. -/
def State.restorePort (s : State) (port : Nat) : State :=
  if s.tests.any (fun x => decide (x.sel.toNat / 256 = port)) then s
  else if port < 2 then s.setPort port { s.port port with live := (s.port port).cfg, downAt := none }
  else
    let p := port - 0x10
    let t := s.setFport p { s.fport p with held := false }
    if t.portRuns p && (t.fport p).cfg.getLsbD 31 then
      t.setFport p { t.fport p with st := .detect, live := (t.fport p).cfg }
    else t.setFport p { t.fport p with st := .disabled }

/-- Tests without those of one operation on one lane or port. -/
def dropTest (ts : List LaneTest) (op sel : Nat) : List LaneTest :=
  ts.filter fun x => !(decide (x.op.toNat = op) && decide (x.sel.toNat = sel))

/-- Start a test, in place of an earlier one of the same operation and selector. -/
def State.startTest (s : State) (t : TrHdr) (op sel endAt : Nat) : State :=
  State.holdPort { s with tests := dropTest s.tests op sel ++ [⟨BitVec.ofNat 8 op, BitVec.ofNat 16 sel, t.arg, endAt⟩] } (sel / 256)
/-- Stop a test. -/
def State.stopTest (s : State) (op sel : Nat) : State :=
  State.restorePort { s with tests := dropTest s.tests op sel } (sel / 256)

/-- A timed test is switched on or off; the change takes effect after the reply. -/
def State.timedTest (s : State) (t : TrHdr) (op sel : Nat) (ok on : Bool) : State :=
  if !ok || (on && !trDurationOk t) then s.trReply t op 3 []
  else
    let u := s.trReply t op 0 []
    if on then u.startTest t op sel (u.time.ns + trDuration t * 1000000) else u.stopTest op sel

def State.discover (s : State) (t : TrHdr) : State :=
  s.tailrace t 0x01 fun u => u.trReply t 0x01 0
    (leBytes 8 u.serial ++ [BitVec.ofNat 8 t.port.val, BitVec.ofNat 8 (b2n u.boot.recovery)] ++ leBytes 4 u.boot.fwVersion.toNat)
/-- DISCOVER (R346). -/
def execDiscover (t : TrHdr) (s : State) : Host.Outcome State Fault Refusal := done (s.discover t)

def State.trCounters (s : State) (t : TrHdr) : State :=
  s.tailrace t 0x02 fun u =>
    let p := bitsOf t.arg.toNat 15 8
    if p < 2 then u.trReply t 0x02 0 ((List.range 5).flatMap fun k => leBytes 8 (u.source (cEth p k))) else u.trReply t 0x02 3 []
/-- COUNTERS (R346). -/
def execCounters (t : TrHdr) (s : State) : Host.Outcome State Fault Refusal := done (s.trCounters t)

def State.macLoopback (s : State) (t : TrHdr) : State :=
  s.tailrace t 0x03 fun u =>
    let p := bitsOf t.arg.toNat 15 8
    u.timedTest t 0x03 (256 * p) (decide (p < 2)) (bitOf t.arg.toNat 0)
/-- MAC_LOOPBACK (R346). -/
def execMacLoopback (t : TrHdr) (s : State) : Host.Outcome State Fault Refusal := done (s.macLoopback t)

def State.prbsGen (s : State) (t : TrHdr) : State :=
  s.tailrace t 0x10 fun u =>
    u.timedTest t 0x10 (trSel t) (laneOk (trSel t) && decide (bitsOf t.arg.toNat 19 16 ≤ 2)) (bitOf t.arg.toNat 20)
/-- PRBS_GEN (R346). -/
def execPrbsGen (t : TrHdr) (s : State) : Host.Outcome State Fault Refusal := done (s.prbsGen t)

/-- A check runs from its start until it is read (log 23). -/
def State.prbsCheck (s : State) (t : TrHdr) (bits errors : Word64) : State :=
  s.tailrace t 0x11 fun u =>
    let m := bitsOf t.arg.toNat 21 20
    let body := fun (b e : Nat) => leBytes 8 b ++ leBytes 8 e
    if !laneOk (trSel t) || decide (2 < bitsOf t.arg.toNat 19 16) || (decide (m ≠ 1) && decide (m ≠ 2)) then u.trReply t 0x11 3 []
    else if m = 1 then (u.trReply t 0x11 0 (body 0 0)).startTest t 0x11 (trSel t) 0
    else if u.tests.any (fun x => decide (x.op = 0x11) && decide (x.sel.toNat = (trSel t))) then
      (u.trReply t 0x11 0 (body bits.toNat errors.toNat)).stopTest 0x11 (trSel t)
    else u.trReply t 0x11 5 []
/-- PRBS_CHECK (R346). -/
def execPrbsCheck (t : TrHdr) (bits errors : Word64) (s : State) : Host.Outcome State Fault Refusal :=
  done (s.prbsCheck t bits errors)

/-- Eyes of a lane: one for NRZ (Ethernet modes 0x0 and 0x4), three for PAM4. -/
def State.eyes (s : State) (sel : Nat) : Nat :=
  if sel / 256 < 2 ∧ ((s.port (sel / 256)).mode = 0 ∨ (s.port (sel / 256)).mode = 4) then 1 else 3

def State.eyeMargin (s : State) (t : TrHdr) (eyes : List (BitVec 16 × BitVec 16)) : State :=
  s.tailrace t 0x12 fun u =>
    if laneOk (trSel t) then
      u.trReply t 0x12 0 ((eyes.take (u.eyes (trSel t))).flatMap fun e => leBytes 2 e.1.toNat ++ leBytes 2 e.2.toNat)
    else u.trReply t 0x12 3 []
/-- EYE_MARGIN (R346): what the lane measures is an operand. -/
def execEyeMargin (t : TrHdr) (eyes : List (BitVec 16 × BitVec 16)) (s : State) : Host.Outcome State Fault Refusal :=
  done (s.eyeMargin t eyes)

def State.laneLoopback (s : State) (t : TrHdr) : State :=
  s.tailrace t 0x13 fun u =>
    let m := bitsOf t.arg.toNat 21 20
    u.timedTest t 0x13 (trSel t) (laneOk (trSel t) && decide (m ≠ 3)) (decide (m ≠ 0))
/-- LANE_LOOPBACK (R346). -/
def execLaneLoopback (t : TrHdr) (s : State) : Host.Outcome State Fault Refusal := done (s.laneLoopback t)

/-- A timed test has come to its end. -/
def LaneTest.due (x : LaneTest) (now sel : Nat) : Bool :=
  decide (x.sel.toNat = sel) && decide (0 < x.endAt) && decide (x.endAt ≤ now)

def State.testExpiry (s : State) (sel : Nat) : State :=
  if s.tests.any (fun x => x.due s.time.ns sel) then
    State.restorePort { s with tests := s.tests.filter fun x => !x.due s.time.ns sel } (sel / 256)
  else s
/-- TEST_DURATION_EXPIRY (R347). -/
def execTestDurationExpiry (sel : BitVec 16) (s : State) : Host.Outcome State Fault Refusal := done (s.testExpiry sel.toNat)

/-! ### Memory transactions (R348) -/

/-- The status of a memory transaction: misaligned, out of range, or not ready. -/
def State.trMemStatus (s : State) (a n : Nat) (range : Bool) : Nat :=
  if a % 8 ≠ 0 ∨ n % 8 ≠ 0 ∨ n = 0 ∨ 1024 < n then 3 else if !range then 4 else if !s.memctl.zeroed then 5 else 0

def State.trMemRead (s : State) (t : TrHdr) : State :=
  s.tailrace t 0x20 fun v =>
    let u := v.wake
    let a := t.arg.toNat
    let n := t.length.toNat
    if u.trMemStatus a n (memReadable true a n) = 0 then
      let r := u.millerRead a n
      r.1.trReply t 0x20 0 r.2
    else u.trReply t 0x20 (u.trMemStatus a n (memReadable true a n)) []
/-- Tailrace MEM_READ (R348). -/
def execTailraceMemRead (t : TrHdr) (s : State) : Host.Outcome State Fault Refusal := done (s.trMemRead t)

def State.trMemWrite (s : State) (t : TrHdr) (payload : List Byte) : State :=
  s.tailrace t 0x21 fun v =>
    let u := v.wake
    let a := t.arg.toNat
    let n := payload.length
    if u.trMemStatus a n (inData a n) = 0 then (u.pokes a payload).trReply t 0x21 0 []
    else u.trReply t 0x21 (u.trMemStatus a n (inData a n)) []
/-- Tailrace MEM_WRITE (R348). -/
def execTailraceMemWrite (t : TrHdr) (payload : List Byte) (s : State) : Host.Outcome State Fault Refusal :=
  done (s.trMemWrite t payload)

/-! ### The recovery loader (R358) -/

/-- FW_BEGIN, FW_DATA and FW_COMMIT belong to the recovery loader: outside recovery mode they are refused (log 24). -/
def State.loader (s : State) (t : TrHdr) (opcode : Nat) (run : State → State) : State :=
  s.tailrace t opcode fun u => if u.boot.recovery then run u else (u.count (cLeat 3)).trReply t opcode 1 []

def State.fwBegin (s : State) (t : TrHdr) : State :=
  s.loader t 0x30 fun u =>
    let n := t.arg.toNat
    if n % 8 ≠ 0 ∨ 0x2000000 < n then u.trReply t 0x30 3 [] else State.trReply { u with fwLen := n } t 0x30 0 []
/-- FW_BEGIN (R358). -/
def execFwBegin (t : TrHdr) (s : State) : Host.Outcome State Fault Refusal := done (s.fwBegin t)

def State.fwData (s : State) (t : TrHdr) (payload : List Byte) : State :=
  s.loader t 0x31 fun u =>
    let a := t.arg.toNat
    if u.fwLen < a + payload.length ∨ 1024 < payload.length then u.trReply t 0x31 4 []
    else if !u.memctl.zeroed then u.trReply t 0x31 5 []
    else (u.pokes a payload).trReply t 0x31 0 []
/-- FW_DATA (R358). -/
def execFwData (t : TrHdr) (payload : List Byte) (s : State) : Host.Outcome State Fault Refusal := done (s.fwData t payload)

/-- Phases 1 to 4 on the bytes from data address 0; `flashOk` is the flash's own outcome. -/
def State.fwCommitRun (s : State) (t : TrHdr) (flashOk : Bool) : State :=
  let rd := s.millerRead 0 s.fwLen
  let bs := rd.2
  let u := { rd.1 with sec.fw := ⟨false, 0, 0, 0, 0, s.fwLen, bs⟩ }
  if fwCheck s.nv bs ≠ 1 then (u.fwEnd (fwCheck s.nv bs)).trReply t 0x32 6 []
  else if !flashOk then (State.fwEnd { u with nv.flash := eraseFw u.nv.flash } 6).trReply t 0x32 5 []
  else (State.fwEnd { u with nv.flash := programFw u.nv.flash bs } 1).trReply t 0x32 0 []
def State.fwCommit (s : State) (t : TrHdr) (flashOk : Bool) : State :=
  s.loader t 0x32 fun u => if u.memctl.zeroed then u.fwCommitRun t flashOk else u.trReply t 0x32 5 []
/-- FW_COMMIT (R358). -/
def execFwCommit (t : TrHdr) (flashOk : Bool) (s : State) : Host.Outcome State Fault Refusal := done (s.fwCommit t flashOk)

/-! ### Leat MEM_READ and MEM_WRITE (R332) -/

def memReadRun (payload : List Byte) (v : State) : LeatAns :=
  let s := v.wake
  let a := fieldAt payload 0 8
  let n := fieldAt payload 8 4
  if a % 8 ≠ 0 ∨ n % 8 ≠ 0 then answer s 5
  else if n < 8 ∨ 1024 < n ∨ memReadable false a n = false then answer s 6
  else if !s.memctl.zeroed then answer s 2
  else
    let r := s.millerRead a n
    .mk3 r.1 0 r.2
def State.memRead (s : State) (h : LeatHdr) (payload : List Byte) : State :=
  s.request h 0x0012 payload false (payload.length == 16) (memReadRun payload)
/-- MEM_READ (R332). -/
def execMemRead (h : LeatHdr) (payload : List Byte) (s : State) : Host.Outcome State Fault Refusal :=
  done (s.memRead h payload)

/-- Whether MEM_WRITE is BUSY: a running training job, or any snapshot, restore, image load or self-test. -/
def State.writeBusy (s : State) : Bool :=
  s.jobRuns || decide (s.snap.st ≠ .idle) || s.busyOp .snapshot || s.busyOp .restore || s.busyOp .image || s.busyOp .selfTest

def memWriteRun (payload : List Byte) (v : State) : LeatAns :=
  let s := v.wake
  let a := fieldAt payload 0 8
  let n := fieldAt payload 8 4
  if a % 8 ≠ 0 ∨ n % 8 ≠ 0 then answer s 5
  else if !inData a n then answer s 6
  else if !s.memctl.zeroed then answer s 2
  else if s.writeBusy then answer s 1
  else answer (s.pokes a (payload.drop 16)) 0
def State.memWrite (s : State) (h : LeatHdr) (payload : List Byte) : State :=
  s.request h 0x0013 payload true (payload.length == 16 + fieldAt payload 8 4) (memWriteRun payload)
/-- MEM_WRITE (R332). -/
def execMemWrite (h : LeatHdr) (payload : List Byte) (s : State) : Host.Outcome State Fault Refusal :=
  done (s.memWrite h payload)

/-! ### SET_NET (R331, R353) -/

/-- The 16 bytes stored for a port; log 34. -/
def netRecord (payload : List Byte) : List Byte :=
  slice payload 1 1 ++ slice payload 2 1 ++ [0, 0] ++ slice payload 4 4 ++ slice payload 8 4 ++ List.replicate 4 0

def setNetRun (payload : List Byte) (s : State) : LeatAns :=
  let p := fieldAt payload 0 1
  let m := fieldAt payload 1 1
  if 1 < p ∨ 1 < m then answer s 6
  else
    let t := { s with nv.flash := flashWrite s.nv.flash (netOff p) (netRecord payload) }
    let u := t.setPort p { t.port p with ipv4 := if m = 1 then BitVec.ofNat 32 (fieldAt payload 4 4)
                                           else if s.netStatic p then 0 else (t.port p).ipv4 }
    answer (if s.netStatic p then u.dhcpStart (if p = 1 then 1 else 0) else u) 0
def State.setNet (s : State) (h : LeatHdr) (payload : List Byte) : State :=
  s.request h 0x0043 payload true (payload.length == 12) (setNetRun payload)
/-- SET_NET (R331): stored in flash and applied at once. -/
def execSetNet (h : LeatHdr) (payload : List Byte) (s : State) : Host.Outcome State Fault Refusal :=
  done (s.setNet h payload)

end Sys2Proof.Machine
end

