-- ==== Sys2Proof/Machine/Smbus.lean ====
section
/-! DEFINITION. The SMBus responder and the test port (R363, R403-R407). -/
namespace Sys2Proof.Machine

/-! ### SMBus (R403, R404) -/

/-- Address 0x5A with the write bit, and with the read bit. -/
def smbW : Byte := 0xB4
def smbR : Byte := 0xB5

/-- The PEC of a read, when the host clocks it. -/
def smbPec (pec : Bool) (code : Byte) (data : List Byte) : Option Byte :=
  if pec then some (crc8 ([smbW, code, smbR] ++ data)) else none

/-- Send a Block Read's bytes; the byte count goes first and the PEC covers it. -/
def State.smbBlock (s : State) (pec : Bool) (code : Byte) (bs : List Byte) : State :=
  s.emit (.smbBlock bs (smbPec pec code (BitVec.ofNat 8 bs.length :: bs)))

/-- STATUS: FRU_VALID, TELEM_VALID, THERM_TRIPPED, PWR_GOOD. -/
def State.smbStatus (s : State) : Byte :=
  BitVec.ofNat 8 (b2n s.boot.fruValid * 128 + b2n (s.pwr.pdOn.getLsbD 0) * 64 + b2n s.pwr.thermTrip * 32 + b2n s.pwr.pwrGood * 16)

def State.smbusStatusRead (s : State) (pec : Bool) : State :=
  if s.pwr.auxOn then s.emit (.smbByte s.smbStatus (smbPec pec 0x00 [s.smbStatus])) else s
/-- SMBUS_STATUS_READ (R403). -/
def execSmbusStatusRead (pec : Bool) (s : State) : Host.Outcome State Fault Refusal := done (s.smbusStatusRead pec)

/-- The responder ROM: VENDOR, PART, reserved. -/
def smbRom : List Byte := leBytes 2 0x504C ++ leBytes 2 0x0008 ++ leBytes 4 0
def State.smbusRomRead (s : State) (pec : Bool) : State := if s.pwr.auxOn then s.smbBlock pec 0x01 smbRom else s
/-- SMBUS_ROM_READ (R403). -/
def execSmbusRomRead (pec : Bool) (s : State) : Host.Outcome State Fault Refusal := done (s.smbusRomRead pec)

/-- The frame that a Block Read latches: every byte 0xFF while PD_ALWAYS is off (R404). -/
def State.telemetry (s : State) : List Byte := if s.pwr.pdOn.getLsbD 0 then padTo 32 0 s.smb.frame else List.replicate 32 0xFF
def State.smbusTelemetryRead (s : State) (pec : Bool) : State :=
  if s.pwr.auxOn then State.smbBlock { s with smb.latched := s.telemetry } pec 0x10 s.telemetry else s
/-- SMBUS_TELEMETRY_READ (R404). -/
def execSmbusTelemetryRead (pec : Bool) (s : State) : Host.Outcome State Fault Refusal := done (s.smbusTelemetryRead pec)

/-- FRU page `p`; 0xFF before the first copy (R405). -/
def State.fruPage (s : State) (p : Nat) : List Byte :=
  if s.boot.fruValid then padTo 32 0xFF (slice s.boot.fruBuf (32 * p) 32) else List.replicate 32 0xFF
def State.smbusFruRead (s : State) (code : Byte) (pec : Bool) : State :=
  if !s.pwr.auxOn then s
  else if 0x40 ≤ code.toNat ∧ code.toNat ≤ 0x7F then s.smbBlock pec code (s.fruPage (code.toNat - 0x40))
  else s
/-- SMBUS_FRU_READ (R403, R405). -/
def execSmbusFruRead (code : Byte) (pec : Bool) (s : State) : Host.Outcome State Fault Refusal :=
  done (s.smbusFruRead code pec)

/-- Command codes of R403's table. -/
def smbKnown (code : Byte) : Bool :=
  decide (code = 0) || decide (code = 1) || decide (code = 0x10) || (decide (0x40 ≤ code.toNat) && decide (code.toNat ≤ 0x7F))
def State.smbusNack (s : State) (code : Byte) (dataWritten : Bool) : State :=
  if s.pwr.auxOn && (dataWritten || !smbKnown code) then s.emit (.smbNack code) else s
/-- SMBUS_NACK (R403). -/
def execSmbusNack (code : Byte) (dataWritten : Bool) (s : State) : Host.Outcome State Fault Refusal :=
  done (s.smbusNack code dataWritten)

def State.smbusTimeout (s : State) : State := { s with smb.latched := [] }
/-- SMBUS_TIMEOUT (R403): the transaction is dropped, and with it the frame it latched. -/
def execSmbusTimeout (s : State) : Host.Outcome State Fault Refusal := done s.smbusTimeout

/-- The highest WINDOW_W of the last second. -/
def State.peakW (s : State) : Nat :=
  (s.pwr.peakHist.filter fun x => decide (s.time.ns < x.1 + 1000000000)).foldl (fun m x => max m x.2) 0
/-- The telemetry frame (R404). -/
def State.telemetryFrame (s : State) (seq : Byte) : List Byte :=
  [seq, BitVec.ofNat 8 s.pwr.plCur.toNat] ++ leBytes 2 s.pwr.inputMv ++ leBytes 2 s.pwr.windowW ++ leBytes 2 s.peakW ++
    leBytes 2 s.pwr.capW ++ ((List.range 8).map fun f => (s.floorGov f).tj) ++
    [s.pwr.spineTj, BitVec.ofNat 8 s.pwr.alert.toNat] ++ leBytes 3 s.pwr.pdOn.toNat ++ List.replicate 9 0
def State.telemetryRefresh (s : State) : State :=
  if s.pwr.pdOn.getLsbD 0 then { s with smb := { s.smb with seq := s.smb.seq + 1, frame := s.telemetryFrame (s.smb.seq + 1) } }
  else s
/-- TELEMETRY_REFRESH (R404). -/
def execTelemetryRefresh (s : State) : Host.Outcome State Fault Refusal := done s.telemetryRefresh

/-! ### The test port (R363, R406, R407) -/

/-- The test port is powered from PD_ALWAYS (R400). -/
def State.tapUp (s : State) : Bool := s.pwr.pdOn.getLsbD 0

/-- Another instruction than an EXTEST one is loaded: the pairs go back to their ports. -/
def State.loadTap (s : State) (ir : Byte) : State :=
  { s with tap := { s.tap with ir := ir, extest := false, millerDebug := decide (ir = 0x10) } }

/-- TAP_RESET (R406): the instruction register holds IDCODE. -/
def execTapReset (s : State) : Host.Outcome State Fault Refusal := done (s.loadTap 0x01)

/-- The ports lose their pairs: Flume ports that are not DISABLED enter DOWN, and Ethernet links are lost (R407). -/
def State.takePairs (s : State) : State :=
  let t := (List.range 12).foldl (fun t p =>
    if (t.fport p).st = .disabled ∨ (t.fport p).st = .down then t else t.portDown p) s
  (List.range 2).foldl (fun t p => if (t.port p).linkUp then t.ethLost p else t) t
/-- Load one of the three EXTEST instructions. -/
def State.loadExtest (s : State) (ir : Byte) : State :=
  if s.tapUp then State.takePairs { s with tap := { s.tap with ir := ir, extest := true, millerDebug := false } } else s
/-- EXTEST (R407). -/
def execExtest (s : State) : Host.Outcome State Fault Refusal := done (s.loadExtest 0x00)
/-- EXTEST_PULSE (R407). -/
def execExtestPulse (s : State) : Host.Outcome State Fault Refusal := done (s.loadExtest 0x04)
/-- EXTEST_TRAIN (R407). -/
def execExtestTrain (s : State) : Host.Outcome State Fault Refusal := done (s.loadExtest 0x05)

def State.tapIdcode (s : State) : State := if s.tapUp then (s.loadTap 0x01).emit (.tdo 32 0x10008A3D) else s
/-- IDCODE (R406). -/
def execIdcode (s : State) : Host.Outcome State Fault Refusal := done s.tapIdcode

def State.samplePreload (s : State) (pins preload : BitVec 205) : State :=
  if s.tapUp then ({ s.loadTap 0x02 with tap.boundary := preload }).emit (.tdo 205 pins.toNat) else s
/-- SAMPLE/PRELOAD (R407): the cells observed go out as the cells to drive come in. -/
def execSamplePreload (pins preload : BitVec 205) (s : State) : Host.Outcome State Fault Refusal :=
  done (s.samplePreload pins preload)

/-- A code that acts as BYPASS: none of the table's others, or a private one once DEBUG_CLOSE is blown (R363, R406). -/
def State.isBypass (s : State) (code : Byte) : Bool :=
  !([0x00, 0x01, 0x02, 0x04, 0x05] : List Byte).contains code &&
    (!([0x10, 0x11, 0x12] : List Byte).contains code || s.nv.debugClosed)
/-- A code loaded that acts as BYPASS: one zero bit between TDI and TDO. -/
def State.bypassWith (s : State) (code : Byte) : State :=
  ({ s.loadTap code with tap.millerDebug := false }).emit (.tdo 1 0)
def State.bypass (s : State) (code : Byte) : State := if s.tapUp && s.isBypass code then s.bypassWith code else s
/-- BYPASS (R406). -/
def execBypass (code : Byte) (s : State) : Host.Outcome State Fault Refusal := done (s.bypass code)

/-- A private instruction: it acts as BYPASS once DEBUG_CLOSE is blown. -/
def State.privateTap (s : State) (code : Byte) (run : State → State) : State :=
  if !s.tapUp then s else if s.nv.debugClosed then s.bypassWith code else run (s.loadTap code)
/-- MILLER_DEBUG (R363). -/
def execMillerDebug (s : State) : Host.Outcome State Fault Refusal := done (s.privateTap 0x10 id)

/-- The slot of an element of a Kettle. -/
def kettleKey (m : Nat) (sideB : Bool) (slot row col : Nat) : Nat := ((m * 2 + b2n sideB) * 8 + slot) * 16384 + 128 * row + col
/-- What FABRIC_READ shifts out: a byte of a Hopper or of Millpond, or one FP32 of a Kettle. -/
def State.fabricValue (s : State) (loc : FabricLoc) : Output := match loc with
  | .byte a => .tdo 8 (match regionOf a with
      | .slice _ _ => (s.byte a).toNat
      | .hopper _ _ => (s.byte a).toNat
      | _ => 0)
  | .kettle m b sl r c => .tdo 32 (NMap.get 0 s.kettle (kettleKey m.val b sl.val r.val c.val))
/-- FABRIC_READ (R363). -/
def execFabricRead (loc : FabricLoc) (s : State) : Host.Outcome State Fault Refusal :=
  done (s.privateTap 0x11 fun t => t.emit (t.fabricValue loc))
/-- FABRIC_HALT (R363): the named stream halts. -/
def execFabricHalt (sid : Sid) (s : State) : Host.Outcome State Fault Refusal :=
  done (s.privateTap 0x12 fun t => t.setStream (sidKey sid) { t.stream (sidKey sid) with halted := true })

end Sys2Proof.Machine
end

