-- ==== Sys2Proof/Machine/Health.lean ====
section
/-! DEFINITION. The health monitor, the patrol and the memory scrub, and the self-test (R128, R129, R302-R304, R318, R319, R335). -/
namespace Sys2Proof.Machine

/-! ### The health monitor (R302-R304) -/

/-- Corrected words of every store and of the Flume links. -/
def State.ceTotal (s : State) : Nat :=
  (List.range 12).foldl (fun n p => n + s.source (cPkg p 0) + s.source (cPkg p 2) + s.source (cFlume p 0)) 0 +
    (List.range 152).foldl (fun n m => n + s.source (cMill m 0) + s.source (cMill m 2) + s.source (cMill m 4) + s.source (cMill m 6)) 0
/-- Entries into RETRAIN, spare remaps and entries into DOWN. -/
def State.retrainTotal (s : State) : Nat :=
  (List.range 12).foldl (fun n p => n + s.source (cFlume p 3) + s.source (cFlume p 4) + s.source (cFlume p 6)) 0

/-- The latest sample at least `w` ns old; without one, everything since power-on counts. -/
def sampleAt (now w : Nat) (hs : List HealthSample) : HealthSample :=
  (hs.find? fun h => decide (h.t + w ≤ now)).getD ⟨0, 0, 0, 0⟩

/-- Samples of the last 60 s and the one before them. -/
def keepSamples (now : Nat) : List HealthSample → List HealthSample
  | [] => []
  | h :: hs => if h.t + 60000000000 ≤ now then [h] else h :: keepSamples now hs

def bitlength (n : Nat) : Nat := if n = 0 then 0 else Nat.log2 n + 1

/-- Hottest junction in °C. -/
def State.hottest (s : State) : Nat := (List.range 8).foldl (fun m f => max m (s.floorGov f).tj.toNat) s.pwr.spineTj.toNat

/-- The five scores: CE, RETRAIN, DROOP, TEMP, NEIGHBOUR. -/
def State.scores (s : State) : List Nat :=
  let now := s.time.ns
  let hs := s.health.samples
  [ min 255 (16 * bitlength (s.ceTotal - (sampleAt now 1000000000 hs).ce))
  , min 255 (64 * (s.retrainTotal - (sampleAt now 60000000000 hs).retrain))
  , min 255 (32 * (s.source (cPower 0) - (sampleAt now 1000000000 hs).droop))
  , min 255 (51 * (s.hottest - 85) / 4)
  , match s.health.lastNeighbour with
    | some t => if s.wheel.stalled = true ∨ now ≤ t + 10000000000 then 255 else 0
    | none => if s.wheel.stalled then 255 else 0 ]

/-- The risk (R303). -/
def risk (weights : BitVec 20) (sc : List Nat) : Nat :=
  min 255 ((List.range 5).foldl (fun n i => n + weights.toNat / 16 ^ i % 16 * sc.getD i 0) 0 / 16)

/-- A snapshot trigger (R23, R304, R335): with a training job it is held until a boundary, and triggers merge while
one is held. The handle is that of the held snapshot. -/
def State.snapTrigger (s : State) : State × Word32 :=
  if s.snap.held then (s, s.snap.heldHandle)
  else
    let r := s.newOp .snapshot
    ({ r.1 with snap.held := true, snap.heldHandle := r.2 }, r.2)

/-- The monitor rearms below THRESHOLD − HYSTERESIS (or at 0) once MIN_GAP has passed since its last trigger. -/
def State.rearms (s : State) (r : Nat) : Bool :=
  let th := bitsOf s.health.cfg.toNat 7 0
  let hy := bitsOf s.health.cfg.toNat 15 8
  let gap := bitsOf s.health.cfg.toNat 31 16 * 1000000000
  (if th < hy then decide (r = 0) else decide (r < th - hy)) &&
    (match s.health.lastTrigger with | some t => decide (t + gap ≤ s.time.ns) | none => true)

/-- The monitor raises a trigger: it counts and disarms. With a training context running it is held for a snapshot, and the
monitor asks for a digest comparison in the step in progress or the next (R266, log 77); without one it is discarded (R304). -/
def State.raiseTrigger (s : State) : State :=
  let t := State.count { s with health := { s.health with armed := false, lastTrigger := some s.time.ns } } (cSnap 0)
  if s.ctx.active ∧ s.jobRuns then
    (State.snapTrigger { t with wheel.suspected := t.wheel.suspected || t.run.inStep
                                wheel.suspectNext := t.wheel.suspectNext || !t.run.inStep }).1
  else t
/-- What an evaluation's risk does. -/
def State.judgeRisk (s : State) (r : Nat) : State :=
  if s.health.armed && decide (bitsOf s.health.cfg.toNat 7 0 ≤ r) then s.raiseTrigger
  else if !s.health.armed && s.rearms r then { s with health.armed := true }
  else s

def State.healthEvaluation (s : State) : State :=
  if s.up && s.time.running && decide (s.time.ns % 10000000 = 0) then
    let sc := s.scores
    let r := risk s.health.weights sc
    let sample : HealthSample := ⟨s.time.ns, s.ceTotal, s.retrainTotal, s.source (cPower 0)⟩
    let last := if s.wheel.stalled then some s.time.ns else s.health.lastNeighbour
    State.judgeRisk { s with health := { s.health with
      risk := r, scores := sc, samples := keepSamples s.time.ns (sample :: s.health.samples), lastNeighbour := last } } r
  else s
/-- HEALTH_EVALUATION (R302-R304). -/
def execHealthEvaluation (s : State) : Host.Outcome State Fault Refusal := done s.healthEvaluation

/-! ### Scrubbing (R127-R129) -/

/-- Address of package line `q` of package `p`, if the line is guarded data or metadata payload (R121, R122). -/
def pkgLine (p q : Nat) : Option Nat :=
  if q < 0xE000000 then some (256 * (12 * q + p))
  else if 0xFC00000 ≤ q ∧ q < 0xFF80000 then some (metaBase + 256 * (12 * (q - 0xFC00000) + p)) else none

/-- Scrub one word: a correction repairs and counts; an uncorrectable word is counted, logged and left as it is. In a
Hopper it also makes the Mill suspect (R130). `patrol` chooses the counters of the patrol. -/
def State.scrubWord (s : State) (patrol : Bool) (w : Nat) : State :=
  let st := eccStore (8 * w)
  let ce := if patrol then cPkg (if 8 * w < metaBase then pkgOf (8 * w) else pkgOf (8 * w - metaBase)) 2 else st.2
  match eccOf (s.rawWord w) (s.synOf w) with
  | .ok => s
  | .ce _ => (s.settle w).count ce
  | .ue =>
    let t := (s.count (ce + 4)).logUe st.1 (8 * w)
    match hopperMill (8 * w) with
    | some m => if (t.mill m).suspect then t else t.setMill m { t.mill m with suspect := true }
    | none => t
def State.scrubRange (s : State) (patrol : Bool) (a n : Nat) : State :=
  (s.badWords a n).foldl (fun t w => t.scrubWord patrol w) s

def State.patrolRead (s : State) (p : Nat) : State :=
  if s.up && s.memctl.patrolOn.getLsbD p && !s.selfRefresh then
    let q := NMap.get 0 s.memctl.patrol p
    let t := { s with memctl.patrol := NMap.set 0 s.memctl.patrol p ((q + 1) % 0x10000000) }
    match pkgLine p q with
    | some a => t.scrubRange true a 256
    | none => t
  else s
/-- PATROL_SCRUB_READ (R128). -/
def execPatrolScrubRead (pkg : Fin 12) (s : State) : Host.Outcome State Fault Refusal := done (s.patrolRead pkg.val)

/-- Lines of the three stores that a memory scrub can name: 256 B lines of the LPDDR5X data region and metadata
payload, 512 B lines of Millpond, 512 B rows of the Hoppers. -/
def dramLines : Nat := 0xA800000000 / 256 + metaPayload / 256
def pondLines : Nat := 152 * 40960
def hopperLines : Nat := 152 * 4096
def scrubTotal (stores : BitVec 3) : Nat :=
  (if stores.getLsbD 0 then dramLines else 0) + (if stores.getLsbD 1 then pondLines else 0) +
    (if stores.getLsbD 2 then hopperLines else 0)
/-- Address and length of line `i` of the named stores, in that order. -/
def scrubAddr (stores : BitVec 3) (i : Nat) : Nat × Nat :=
  let n0 := if stores.getLsbD 0 then dramLines else 0
  let n1 := if stores.getLsbD 1 then pondLines else 0
  if i < n0 then (if i < 0xA800000000 / 256 then (256 * i, 256) else (metaBase + 256 * (i - 0xA800000000 / 256), 256))
  else if i < n0 + n1 then (0x010000000000 + 512 * (i - n0), 512)
  else (0x020000000000 + 512 * (i - n0 - n1), 512)

/-- A scrub that has been asked to stop does so after the current line (R335). -/
def State.scrubStops (s : State) (o : Op) : State :=
  if o.state = .cancelling then s.opMove o.handle .cancelled 1
  else if o.state = .suspending then s.opMove o.handle .suspended 0
  else if s.work.scrubLine = scrubTotal s.work.scrubStores then s.opMove o.handle .done 0 else s

def State.scrubLine (s : State) : State :=
  match s.opOf .scrub with
  | none => s
  | some o =>
    if o.state = .suspended ∨ s.pwr.plCur ≠ 0 ∨ s.up = false then s
    else
      let r := scrubAddr s.work.scrubStores s.work.scrubLine
      let t := { s.scrubRange false r.1 r.2 with work.scrubLine := s.work.scrubLine + 1 }
      (t.opProgress o.handle t.work.scrubLine).scrubStops o
/-- SCRUB_LINE (R129). -/
def execScrubLine (s : State) : Host.Outcome State Fault Refusal := done s.scrubLine

/-- A training job is not terminal. -/
def State.jobOpen (s : State) : Bool := s.busyOp .job

def scrubRun (payload : List Byte) (v : State) : LeatAns :=
  let s := v.wake
  let stores := BitVec.ofNat 3 (fieldAt payload 0 4)
  let onChip := stores.getLsbD 1 || stores.getLsbD 2
  if s.busyOp .scrub || s.busyOp .selfTest || (onChip && (s.jobOpen || decide (s.snap.st ≠ .idle))) then answer s 1
  else
    let r := s.newOp .scrub
    let t := { r.1 with work := { r.1.work with scrubStores := stores, scrubLine := 0 } }
    .mk3 (if scrubTotal stores = 0 then t.opMove r.2 .done 0 else t) 0 (leBytes 4 r.2.toNat)
def State.scrub (s : State) (h : LeatHdr) (payload : List Byte) : State :=
  s.request h 0x0024 payload true (payload.length == 4) (scrubRun payload)
/-- SCRUB (R129, R335). -/
def execScrub (h : LeatHdr) (payload : List Byte) (s : State) : Host.Outcome State Fault Refusal :=
  done (s.scrub h payload)

/-! ### The self-test (R318, R319, R335) -/

def selfTestRun (v : State) : LeatAns :=
  let s := v.wake
  if s.jobOpen || s.busyOp .snapshot || decide (s.snap.st ≠ .idle) || s.busyOp .restore || s.busyOp .image || s.busyOp .scrub ||
      s.busyOp .selfTest then answer s 1
  else
    let r := s.uninstall.newOp .selfTest
    .mk3 { r.1 with work.testMill := 0 } 0 (leBytes 4 r.2.toNat)
def State.selfTest (s : State) (h : LeatHdr) (payload : List Byte) : State :=
  s.request h 0x0025 payload true payload.isEmpty selfTestRun
/-- SELF_TEST (R335): it uninstalls the image as it starts. -/
def execSelfTest (h : LeatHdr) (payload : List Byte) (s : State) : Host.Outcome State Fault Refusal :=
  done (s.selfTest h payload)

/-- The test of a Mill leaves its Hopper banks off and its Kettles empty: nothing reads what it wrote (log 25). -/
def State.wipeMill (s : State) (m : Nat) : State :=
  { s.zeroRange (hopperBase m) 0x200000 with
    banks := NMap.clearRange s.banks (16 * m) 16, kettle := NMap.clearRange s.kettle (m * 262144) 262144
    kettleSyn := NMap.clearRange s.kettleSyn (m * 131072) 131072 }

/-- The outcome of the test of one Mill: a pass clears SUSPECT, a failure retires it. -/
def State.testOutcome (s : State) (m : Nat) (pass : Bool) : State :=
  if pass then (if (s.mill m).suspect then s.setMill m { s.mill m with suspect := false } else s)
  else if (s.mill m).retired then s
  else s.retireMill m 3

/-- Mills that a test has retired so far, kept as the operation's STATUS. -/
def State.addStatus (s : State) (h : Word32) (n : Nat) : State :=
  { s with ops := s.ops.map fun x => if x.handle = h then { x with status := x.status + n } else x }

/-- The self-test ends after Mill 151, or after the Mill under test when it is cancelled. -/
def State.testStops (s : State) (h : Word32) : State :=
  match s.op h with
  | none => s
  | some o =>
    if o.state = .cancelling then s.opMove h .cancelled o.status
    else if s.work.testMill = 152 then s.opMove h .done o.status else s

def State.selfTestMill (s : State) (pass : Bool) : State :=
  match s.opOf .selfTest with
  | none => s
  | some o =>
    if s.pwr.plCur ≠ 0 ∨ s.up = false then s
    else
      let m := s.work.testMill
      let newly := !pass && !(s.mill m).retired
      let t := ({ s.wipeMill m with work.testMill := m + 1 }).testOutcome m pass
      ((t.addStatus o.handle (b2n newly)).opProgress o.handle (m + 1)).testStops o.handle
/-- SELF_TEST_MILL (R318, R335). -/
def execSelfTestMill (pass : Bool) (s : State) : Host.Outcome State Fault Refusal := done (s.selfTestMill pass)

end Sys2Proof.Machine
end

