-- ==== Sys2Proof/Machine/LoadCheck.lean ====
section
/-! DEFINITION. The load checks of the header, the directory and every section of a Block image, in the loader's order (R21, R39, R64, R66, R83, R95, R107, R110, R115, R179, R196-R204, R209, R212, R220-R222, R247, R250, R252, R253, R263, R272). -/
namespace Sys2Proof.Machine

/-- A failed check: LAST_STATUS, FAIL_SECTION, IMAGE_FAIL_OFFSET (R212). -/
structure Bad where
  status : Nat
  sec : Nat
  off : Nat
deriving DecidableEq, Repr

/-- A failed check inside a section: status and offset. -/
abbrev SecBad := Option (Nat × Nat)

/-- The first failure of a list. -/
def firstBad {α : Type} (xs : List (Option α)) : Option α := (xs.filterMap id).head?
/-- A failure when a condition does not hold. -/
def need {α : Type} (ok : Bool) (bad : α) : Option α := if ok then none else some bad

/-! ### Header and directory (R196, R197) -/

/-- A directory entry: index, type, length, offset. -/
structure DirEntry where
  i : Nat
  typ : Nat
  len : Nat
  off : Nat
deriving DecidableEq, Repr

def dirEntry (bs : List Byte) (i : Nat) : DirEntry :=
  ⟨i, fieldAt bs (0x46 + 16 * i) 2, fieldAt bs (0x40 + 16 * i) 4, fieldAt bs (0x48 + 16 * i) 8⟩
def directory (bs : List Byte) : List DirEntry := (List.range (fieldAt bs 6 2)).map (dirEntry bs)

/-- The LENGTH rule of a section type. -/
def lenOk (t n : Nat) : Bool :=
  if t = 1 then n == 144 else if t = 3 then n == 288 else if t = 8 then n == 64 else if t = 0xE then n == 147456
  else if t = 0xF then n == 128 else if t = 2 then n % 4 == 0 && decide (n ≤ 128)
  else if t = 4 then n % 12 == 0 else if t = 5 then decide (4 ≤ n) && (n - 4) % 12 == 0
  else if t = 7 then n % 64 == 0 && decide (n ≤ 2097152)
  else if t = 9 then decide (8 ≤ n) && (n - 8) % 16 == 0
  else if t = 0xC then n % 32 == 0 && decide (n ≤ 2048) else true

/-- The rules that one entry can break, given the type before it. -/
def entryOk (bs : List Byte) (e : DirEntry) : Bool :=
  let n := bs.length
  let prev := if e.i = 0 then 0 else (dirEntry bs (e.i - 1)).typ
  decide (prev < e.typ) && decide (e.typ ≤ 0x11) && e.off % 8 == 0 && decide (0x40 + 16 * fieldAt bs 6 2 ≤ e.off) &&
    decide (e.off + e.len ≤ n - 144) && lenOk e.typ e.len && (e.typ != 0x10 || bitOf (fieldAt bs 0x1C 4) 0)
/-- Two sections overlap. -/
def DirEntry.overlaps (x y : DirEntry) : Bool := decide (x.off < y.off + y.len) && decide (y.off < x.off + x.len)

def headerBad (bs : List Byte) : Option Bad :=
  let n := bs.length
  let dir := directory bs
  let types := dir.map (·.typ)
  firstBad [
    need (decide (0x40 + 144 ≤ n) && fieldAt bs 0 4 == 0xB10C0008) ⟨4, 0xFFFF, 0⟩,
    need (fieldAt bs 4 2 == 0x0100) ⟨4, 0xFFFF, 4⟩,
    need (fieldAt bs 8 8 == n && n % 8 == 0 && decide (n ≤ 0x10000000)) ⟨4, 0xFFFF, 8⟩,
    need (decide (4 ≤ fieldAt bs 6 2) && decide (fieldAt bs 6 2 ≤ 17) && decide (0x40 + 16 * fieldAt bs 6 2 ≤ n - 144)) ⟨4, 0xFFFF, 6⟩,
    firstBad (dir.map fun e => need (entryOk bs e) ⟨4, e.i, 0x40 + 16 * e.i⟩),
    firstBad (dir.map fun e => need ((dir.take e.i).all fun x => !x.overlaps e) ⟨4, e.i, 0x40 + 16 * e.i⟩),
    need (([1, 6, 8, 0x11] : List Nat).all types.contains && (!bitOf (fieldAt bs 0x1C 4) 0 || types.contains 0x10)) ⟨4, 0xFFFF, 0x40⟩ ]

/-- An image as its bytes name it; the digest is that of every byte before the trailer (R208). -/
def Image.parse (bs : List Byte) : Image :=
  { digest := sha512 (bs.take (bs.length - 144)), jobTag := fieldAt bs 0x10 8, windows := bitOf (fieldAt bs 0x1C 4) 0
    secs := (directory bs).foldl (fun m e => NMap.set [] m e.typ (slice bs e.off e.len)) [] }

/-! ### MILL_MAP and Races (R95, R110, R115, R198) -/

def millMapBad (img : Image) (ok : Nat → Bool) : SecBad :=
  firstBad ((List.range 144).map fun l =>
    need (decide (img.phys l < 152) && ok (img.phys l) && ((List.range l).all fun k => img.phys k != img.phys l)) (5, l))

/-- Codes that may produce into and consume from a Race (R83, R107). -/
def raceProducers (pond : Bool) : List Nat := if pond then [1, 2, 3, 4, 5, 7] else [3, 4, 5, 6, 7, 8, 0xA]
def raceConsumers (pond : Bool) : List Nat := if pond then [1, 2, 3, 4, 7] else [1, 2, 5, 6, 7, 8, 0xA]

/-- The end of a Race within its Hopper or slice. -/
def RaceDef.stop (d : RaceDef) : Nat := d.base + d.capacity * d.slotBytes
/-- Every bank of a Hopper range is powered at load. -/
def Image.powered (img : Image) (l a b : Nat) : Bool :=
  (List.range 16).all fun k => decide (b ≤ 0x20000 * k) || decide (0x20000 * (k + 1) ≤ a) || img.bankOn l k

/-- What is wrong with a Race, given the valid ones before it. -/
def raceBad (img : Image) (pond : Bool) (off : Nat) (d : RaceDef) (before : List RaceDef) : SecBad :=
  let far := if pond then 7 else 8
  let top := if pond then 9 else 0xB
  firstBad [
    need (decide (d.mill < 144) && decide (d.num < if pond then 16 else 32) &&
      decide (d.stop ≤ if pond then img.scratchBytes else 0x200000) && (pond || img.powered d.mill d.base d.stop) &&
      before.all fun x => x.mill != d.mill || (x.num != d.num && (decide (x.stop ≤ d.base) || decide (d.stop ≤ x.base)))) (6, off),
    need (decide (d.producer < top) && decide (d.consumer < top)) (7, off),
    need ((raceProducers pond).contains d.producer && (raceConsumers pond).contains d.consumer && d.producer != d.consumer &&
      (!pond || d.producer != 5 || d.peer == 0xF0 || d.peer == 0xF1) &&
      (d.producer != far && d.consumer != far || decide (d.peer < 144))) (6, off) ]

def racesBad (img : Image) (pond : Bool) : SecBad :=
  let ds := if pond then img.pondRaces else img.hopperRaces
  let off := fun (i : Nat) => (if pond then 4 else 0) + 12 * i
  firstBad ((if pond then need (decide (img.cacheMib ≤ 16)) (6, 0) else none) ::
    (((List.range ds.length).zip ds).filter fun p => p.2.valid).map fun p =>
      raceBad img pond (off p.1) p.2 ((ds.take p.1).filter (·.valid)))

/-! ### SEQUENCES (R83, R107, R199, R200) -/

def instanceOk (port : Nat) : Bool :=
  let c := port / 4096
  let i := port % 4096
  if c = 1 ∨ c = 2 ∨ c = 3 then decide (i < 144)
  else if c = 4 ∨ c = 5 then decide (i / 8 < 160) && (decide (i % 8 < 5) || (i % 8 == 5 && i / 8 % 20 == 2))
  else if c = 6 then decide (i ≤ 12) else c == 7 && decide (i < 24)
/-- Entries a port class holds at most. -/
def maxEntries (c : Nat) : Nat := if c = 2 then 256 else 1024
/-- Status of an entry: 0 good, 7 a reserved code or one not permitted there, 8 out of range. -/
def entryStatus (c e : Nat) : Nat :=
  if c = 1 then (if ([bitsOf e 19 16, bitsOf e 23 20, bitsOf e 27 24, bitsOf e 31 28] : List Nat).all (· ≤ 9) then 0 else 7)
  else if c = 2 then (if ([0, 6, 8, 0xA] : List Nat).contains e then 0 else 7)
  else if c = 3 then (if ([e % 16, e / 16 % 16, e / 256 % 16, e / 4096 % 16] : List Nat).all (· ≤ 8) then 0 else 7)
  else if c = 4 ∨ c = 5 then (if e ≤ 6 then 0 else 8)
  else if c = 6 then (if e ≤ 13 then 0 else 8)
  else if bitsOf e 15 14 = 1 ∧ 144 ≤ e % 256 then 8 else 0

/-- Bytes of a record. -/
def PortRec.bytes (r : PortRec) : Nat := 8 + 8 * r.segs.length + roundUp (cdiv (r.entries.length * entryBits (r.port / 4096)) 8) 8
def portBad (img : Image) (r : PortRec) (before : List PortRec) : SecBad :=
  let c := r.port / 4096
  let n := r.entries.length
  let isOpen := fun (k : Nat) => match r.segs[k]? with
    | some g => g.rep == 0
    | none => false
  firstBad (
    [ need (instanceOk r.port && (before.all fun x => x.port != r.port) && decide (1 ≤ n) && decide (n ≤ maxEntries c) &&
        decide (r.off + r.bytes ≤ (img.sec 6).length) && (!r.hasCycle || decide (r.cycleStart < r.segs.length)) &&
        (r.segs.all fun g => decide (g.first ≤ g.last) && decide (g.last < n)) && isOpen (r.segs.length - 1) &&
        (!r.hasCycle || r.cycleStart == 0 || isOpen (r.cycleStart - 1))) (8, r.off) ] ++
    ((List.range n).zip r.entries).map fun p =>
      need (entryStatus c p.2 == 0) (entryStatus c p.2, r.off + 8 + 8 * r.segs.length + entryBits c * p.1 / 8))
def sequencesBad (img : Image) : SecBad :=
  let ps := img.ports
  firstBad (((List.range ps.length).zip ps).map fun p => portBad img p.2 (ps.take p.1))

/-! ### WEIRS (R214, R220-R222) -/

/-- A participant may be listed at a physical Weir. -/
def Image.partOk (img : Image) (phys : Nat) (q : Nat × Nat) : Bool :=
  let hub := decide (1024 ≤ phys)
  let f := (phys - 1024) / 128
  if q.2 < 5 then decide (q.1 < 144) && (!hub || floorOf (img.phys q.1) == f)
  else if q.2 = 5 then img.floors.contains q.1 && (!hub || q.1 == f)
  else q.2 == 6 && q.1 == 0 && !hub
/-- No value twice. -/
def noRepeat {α : Type} [DecidableEq α] : List α → Bool
  | [] => true
  | x :: xs => !xs.contains x && noRepeat xs

def weirEntryBad (img : Image) (e : Nat) : SecBad :=
  let g := img.weirGrid e
  let gr := img.grid g
  need ((List.range e).all (fun k => img.weirPhys k != img.weirPhys e) && decide (1 ≤ img.weirN e) && decide (img.weirN e ≤ 729) &&
    (if g = 0x3F then img.weirKinds e == 0
     else decide (g < img.gridCount) && decide (gr.1 + gr.2.2.1 ≤ 12) && decide (gr.2.1 + gr.2.2.2 ≤ 12)) &&
    decide ((img.weirGenerated e).length ≤ img.weirN e) && (img.weirParts e).all (img.partOk (img.weirPhys e)) &&
    noRepeat (img.weirParts e)) (14, 16 + 8192 * img.contexts + 16 * e)
def weirTableBad (img : Image) (t : Nat) : SecBad :=
  firstBad ((List.range 4096).map fun v =>
    let w := img.vidWord t v
    need (!bitOf w 15 || (decide (w % 4096 < img.weirEntries) &&
      (List.range v).all fun k => !bitOf (img.vidWord t k) 15 || img.vidWord t k % 4096 != w % 4096)) (14, 16 + 8192 * t + 2 * v))
def weirsBad (img : Image) : SecBad :=
  let dl := fieldAt (img.sec 0xA) 4 4
  firstBad (
    [ need (decide (img.weirEntries ≤ 2048) && (dl == 0 || (decide (1000 ≤ dl) && decide (dl ≤ 4000000))) &&
        decide (fieldAt (img.sec 0xA) 8 4 ≤ 1000)) (14, 0) ] ++
    (List.range img.contexts).map (weirTableBad img) ++ (List.range img.weirEntries).map (weirEntryBad img))

/-- A virtual identifier is valid in every context table and names a spine Weir that lists the Wheel. -/
def Image.wheelVid (img : Image) (v : Nat) : Bool :=
  (List.range img.contexts).all fun t => match img.weirOf t v with
    | some e => decide (img.weirPhys e < 1024) && (img.weirParts e).contains (0, 6)
    | none => false

/-! ### BUCKETS and WINDOWS (R247, R250, R252, R263) -/

/-- Group size that BUCKETS gives. -/
def Image.groupSize (img : Image) : Nat := img.extents.foldl (· * ·) 1
/-- A buffer lies in the data region, or in the scratch part of one used slice, on a 512 B boundary. -/
def Image.bufferOk (img : Image) (a n : Nat) : Bool :=
  a % 512 == 0 && match regionOf a with
    | .data => decide (a + n ≤ 0x00A800000000)
    | .slice m off => img.uses m && decide (off + n ≤ img.scratchBytes)
    | _ => false
/-- The largest shard of the geometry: piece 0 at every stage. -/
def Image.maxShard (img : Image) (n : Nat) : Nat :=
  img.extents.foldl (fun m q => if 1 < q then min m (32 * cdiv m (32 * q)) else m) n
def bucketBad (img : Image) (b : Nat) : SecBad :=
  let d := img.bucket b
  let comp := decide (d.mode = 1) || decide (d.mode = 2)
  need (decide (d.mode < 3) && decide (2097152 ≤ d.n) && decide (d.n ≤ 67108864) && d.n % 32 == 0 && decide (d.k ≤ d.n) &&
    ([0, 1, 2, 3, 4] : List Nat).contains d.pfmt && img.bufferOk d.grad (2 * d.n) &&
    img.bufferOk d.shard (4 * img.maxShard d.n + 4) && img.bufferOk d.param (fmtBits d.pfmt / 8 * d.n) &&
    (!comp || (d.resA != 0xFFFFFFFFFFFF && d.resB != 0xFFFFFFFFFFFF && img.bufferOk d.resA (4 * d.n) && img.bufferOk d.resB (4 * d.n))) &&
    ((List.range b).all fun k => let x := img.bucket k
      decide (x.grad + 2 * x.n ≤ d.grad) || decide (d.grad + 2 * d.n ≤ x.grad)) &&
    img.wheelVid d.fill && img.wheelVid d.donev && img.wheelVid d.updated && img.wheelVid d.gathered) (15, 32 + 64 * b)
def bucketsBad (img : Image) : SecBad :=
  let roles := (List.range 12).map img.role
  firstBad (
    [ need ((img.extents.all fun x => decide (1 ≤ x)) && decide (img.groupSize ≤ 8190) && decide (1 ≤ img.bucketCount)) (15, 0)
    , need ((roles.all fun r => decide (r < 8)) && (List.range 3).all fun a =>
        decide (img.extents.getD a 0 ≤ 1) || (roles.contains (1 + 2 * a) && roles.contains (2 + 2 * a))) (15, 8) ] ++
    (List.range img.bucketCount).map (bucketBad img) ++
    (List.range img.exchangeCount).map fun a =>
      need (decide (1 ≤ (img.exch a).g) && img.groupSize % (img.exch a).g == 0) (15, 32 + 64 * img.bucketCount + 32 * a))

def windowBad (img : Image) (i : Nat) (w : WindowDef) (before : List WindowDef) : SecBad :=
  need (decide (w.mill < 144) && w.off % 512 == 0 && w.len % 512 == 0 && decide (512 ≤ w.len) && decide (w.off + w.len ≤ 0x200000) &&
    img.powered w.mill w.off (w.off + w.len) &&
    (before.all fun x => x.mill != w.mill || decide (x.off + x.len ≤ w.off) || decide (w.off + w.len ≤ x.off)) &&
    ((img.hopperRaces.filter (·.valid)).all fun r => r.mill != w.mill || decide (r.stop ≤ w.off) || decide (w.off + w.len ≤ r.base)) &&
    (w.bell == 0xFFFF || img.wheelVid w.bell)) (15, 8 + 32 * i)
def windowsBad (img : Image) : SecBad :=
  let ws := img.windowDefs
  firstBad (need (decide (8 + 32 * ws.length ≤ (img.sec 0x10).length)) (15, 0) ::
    ((List.range ws.length).zip ws).map fun p => windowBad img p.1 p.2 (ws.take p.1))

/-! ### ROUTERS and RUNTIME (R179, R272) -/

def routerBad (img : Image) (i : Nat) (r : RouterDef) (before : List RouterDef) : SecBad :=
  need (decide (1 ≤ r.k) && decide (r.k ≤ r.d) && decide (r.d ≤ 8) && decide (r.d ≤ r.e) && decide (r.e ≤ 1024) && decide (r.gate ≤ 2) &&
    decide (r.mill < 144) && decide (r.logits < img.descCount) && (img.desc r.logits).format == 0 &&
    before.all fun x => x.num != r.num) (13, 32 * i)
def routersBad (img : Image) : SecBad :=
  let rs := img.routers
  firstBad (((List.range rs.length).zip rs).map fun p => routerBad img p.1 p.2 (rs.take p.1))

/-- Two ranges overlap. -/
def meets (a n b m : Nat) : Bool := decide (0 < n) && decide (0 < m) && decide (a < b + m) && decide (b < a + n)
def runtimeBad (img : Image) : SecBad :=
  let dataEnd := 0x00A800000000
  let areas : List (Nat × Nat) := [(img.rtState, 256), (img.rtPhilox, 32 * img.rtStreams), (img.rtLoss, 8 * img.rtM)]
  firstBad [
    need (decide (img.rtM ≤ 8) && decide (img.rtDataMill < 144) && decide (img.rtShapeMb + img.rtM ≤ 256)) (18, 0),
    need (decide (1 ≤ img.rtRecords) && img.wheelVid img.rtFwdWeir && img.wheelVid img.rtCommitWeir) (18, 8),
    need (img.rtState % 256 == 0 && decide (img.rtState + 256 ≤ dataEnd)) (18, 16),
    need (decide (img.groupSize ≤ img.rtShards ∨ img.hasBuckets = false) && decide (1 ≤ img.rtShards) &&
      (dec32 img.rtSpikeK).isFinite && !(dec32 img.rtSpikeK).lt (dec32 0)) (18, 48),
    need (img.rtSetA % 0x200000 == 0 && decide (img.rtSetA + img.rtWin ≤ dataEnd) && !meets img.rtSetA img.rtWin img.rtSetB img.rtWin &&
      areas.all fun a => !meets img.rtSetA img.rtWin a.1 a.2) (18, 64),
    need (img.rtSetB % 0x200000 == 0 && decide (img.rtSetB + img.rtWin ≤ dataEnd) &&
      areas.all fun a => !meets img.rtSetB img.rtWin a.1 a.2) (18, 72),
    need (img.rtWin % 0x200000 == 0) (18, 80),
    need (img.rtDerivedLen == 0 || (decide (img.rtDerived + img.rtDerivedLen ≤ dataEnd) && decide (img.rtSetA ≤ img.rtDerived) &&
      decide (img.rtDerived + img.rtDerivedLen ≤ img.rtSetA + img.rtWin))) (18, 88) ]

/-! ### STREAMS (R66, R203, R204) -/

/-- Kinds whose streams may hold an opcode; none for an unknown opcode. -/
def opKinds (o : Nat) : List Nat :=
  if o ≤ 4 then [0, 1, 2, 3, 4, 5] else if o = 5 then [2, 4] else if 0x10 ≤ o ∧ o ≤ 0x12 then [0, 1]
  else if (0x21 ≤ o ∧ o ≤ 0x2C) ∨ (0x30 ≤ o ∧ o ≤ 0x34) then [2] else if o = 0x40 then [3] else if o = 0x50 then [5]
  else if o = 0x60 then [4] else []
/-- The codes of R204 that a stream drives at a port. -/
def Image.drives (img : Image) (owner kind port : Nat) : List Nat :=
  let c := port / 4096
  let i := port % 4096
  if kind = 5 then
    (if c = 1 ∧ i < 144 ∧ floorOf (img.phys i) = owner then [7] else if c = 3 ∧ i < 144 then [3] else [])
  else if i = owner then padCodes kind c else []

/-- What is wrong with instruction `j`, given the ends of the loops it lies in, innermost first. -/
def instrBad (img : Image) (r : StreamRec) (j : Nat) (ends : List Nat) : SecBad :=
  let i := r.at j
  let off := r.off + 16 + 32 * j
  let stop := if j < r.body then r.body else r.count
  let b := i.op 47 32
  firstBad [
    need (!(decide (0x35 ≤ i.opcode) && decide (i.opcode ≤ 0x3F))) (13, off),
    need ((opKinds i.opcode).contains r.kind) (16, off),
    need ((i.d ++ fifthDesc i).all fun d => d == 0xFFFF || decide (d < img.descCount)) (16, off),
    need (i.opcode != 4 || (img.drives r.owner r.kind (i.op 15 0)).contains (i.op 51 48)) (16, off),
    need (i.opcode != 2 || (ends.isEmpty && decide (j + 1 = stop) && (decide (r.body ≤ j) || i.flag 0))) (16, off),
    need (i.opcode == 2 || decide (j + 1 ≠ stop)) (16, off),
    need (i.opcode != 1 || (decide (1 ≤ b) && decide (1 ≤ i.op 31 0) && decide (j + b < stop) && decide (ends.length < 4) &&
      ends.all fun e => decide (j + b ≤ e))) (16, off) ]

/-- The instructions from `j` on. -/
def instrsBad (img : Image) (r : StreamRec) : Nat → Nat → List Nat → SecBad
  | 0, _, _ => none
  | n + 1, j, ends =>
    let open_ := ends.filter fun e => decide (j ≤ e)
    let i := r.at j
    match instrBad img r j open_ with
    | some x => some x
    | none => instrsBad img r n (j + 1) (if i.opcode = 1 then (j + i.op 47 32) :: open_ else open_)

/-- Carry a state through the instructions [i, hi) in stream order. A loop body is gone through twice at most: what it
does to the tiles and to the panel does not depend on how often it has run before. -/
def walk {σ : Type} (r : StreamRec) (f : σ → Nat → Except Nat σ) : Nat → Nat → Nat → σ → Except Nat σ
  | 0, _, _, st => .ok st
  | n + 1, i, hi, st =>
    if hi ≤ i then .ok st
    else
      let x := r.at i
      if x.opcode = 1 then
        match walk r f n (i + 1) (i + 1 + x.op 47 32) st with
        | .error e => .error e
        | .ok s1 =>
          if 2 ≤ x.op 31 0 then
            match walk r f n (i + 1) (i + 1 + x.op 47 32) s1 with
            | .error e => .error e
            | .ok s2 => walk r f n (i + 1 + x.op 47 32) hi s2
          else walk r f n (i + 1 + x.op 47 32) hi s1
      else match f st i with
        | .error e => .error e
        | .ok s1 => walk r f n (i + 1) hi s1

/-- One instruction's effect on the live tiles (R66). -/
def tileStep (r : StreamRec) (live : List Nat) (j : Nat) : Except Nat (List Nat) :=
  let i := r.at j
  if i.opcode = 0x10 then
    let p := PassOp.of i
    if p.clear then (if live.contains p.tag || decide (8 ≤ live.length) then .error j else .ok (p.tag :: live))
    else if live.contains p.tag then .ok live else .error j
  else if i.opcode = 0x11 then
    (if live.contains (i.op 7 0) then .ok (live.filter (· != i.op 7 0)) else .error j)
  else .ok live
def kettleBad (r : StreamRec) : SecBad :=
  if 2 ≤ r.kind then none
  else match walk r (tileStep r) (r.count + 1) 0 r.count ([] : List Nat) with
    | .error j => some (11, r.off + 16 + 32 * j)
    | .ok live => need live.isEmpty (11, r.off + 16 + 32 * (r.count - 1))

/-- The streams an image must hold. -/
def Image.wanted (img : Image) : List (Nat × Nat) :=
  ((List.range 144).flatMap fun l => (List.range 5).map fun k => (l, k)) ++ img.floors.map fun f => (f, 5)

def streamBad (img : Image) (r : StreamRec) (before : List StreamRec) : SecBad :=
  firstBad [
    need (img.wanted.contains (r.owner, r.kind) && (before.all fun x => (x.owner, x.kind) != (r.owner, r.kind)) &&
      decide (1 ≤ r.count) && decide (r.count ≤ 16384) && decide (r.body < r.count) &&
      (r.kind == 4 || fieldAt (img.sec 0x11) (r.off + 12) 4 == 0) && fieldAt (img.sec 0x11) (r.off + 12) 4 % 8 == 0 &&
      decide (r.off + 16 + 32 * r.count + fieldAt (img.sec 0x11) (r.off + 12) 4 ≤ (img.sec 0x11).length)) (16, r.off),
    instrsBad img r r.count 0 [],
    kettleBad r ]
def streamsBad (img : Image) : SecBad :=
  let rs := img.streams
  firstBad (((List.range rs.length).zip rs).map (fun p => streamBad img p.2 (rs.take p.1)) ++
    [need (rs.length == img.wanted.length) (16, 0)])

/-- The checks of one section; `ok` says which physical Mills are serviceable. -/
def Image.secBad (img : Image) (ok : Nat → Bool) (t : Nat) : SecBad :=
  if t = 1 then millMapBad img ok else if t = 4 then racesBad img false else if t = 5 then racesBad img true
  else if t = 6 then sequencesBad img else if t = 0xA then weirsBad img else if t = 0xB then bucketsBad img
  else if t = 0xC then routersBad img else if t = 0xF then runtimeBad img else if t = 0x10 then windowsBad img
  else if t = 0x11 then streamsBad img else none

/-- The sections in ascending TYPE order. -/
def sectionsBad (bs : List Byte) (img : Image) (ok : Nat → Bool) : Option Bad :=
  firstBad ((directory bs).map fun e => (img.secBad ok e.typ).map fun x => ⟨x.1, e.i, x.2⟩)

end Sys2Proof.Machine
end

