-- ==== Sys2Proof/Machine/DataSvc.lean ====
section
/-! DEFINITION. The data service: the cursors, the shard sequence, the counting of a step's items and the delivery of its records (R276-R281). -/
namespace Sys2Proof.Machine

/-! ### Cursors and shards (R276, R277, R279) -/

/-- A data cursor; its last two words are copies of RUNTIME. -/
structure Cursor where
  epoch : Nat
  k : Nat
  off : Nat
  seed : Nat
deriving DecidableEq, Repr

def State.cursorAt (s : State) (a : Nat) : Cursor := ⟨s.num a 8, s.num (a + 8) 4, s.num (a + 16) 8, s.num (a + 24) 8⟩
/-- The 48 bytes of a cursor. -/
def Cursor.bytes (c : Cursor) (img : Image) : List Byte :=
  leBytes 8 c.epoch ++ leBytes 8 (c.k % 2 ^ 32) ++ leBytes 8 c.off ++ leBytes 8 c.seed ++ leBytes 8 img.rtShardList ++
    leBytes 8 img.rtShards
/-- Addresses of the two cursors of the state block (R278). -/
def Image.committedCursor (img : Image) : Nat := img.rtState
def Image.workingCursor (img : Image) : Nat := img.rtState + 0x30
/-- The next shard of the sequence. -/
def Cursor.nextShard (c : Cursor) : Cursor := { c with k := c.k + 1, off := 0 }
/-- A cursor past the last shard of its epoch goes to the first one of the next epoch. -/
def State.inEpoch (s : State) (img : Image) (c : Cursor) : Cursor :=
  if s.wheel.device + s.wheel.p * c.k < img.rtShards then c else { c with epoch := c.epoch + 1, k := 0, off := 0 }
/-- The cursor moves to the next shard (R279-R281). -/
def State.pastShard (s : State) (img : Image) (c : Cursor) : Cursor := s.inEpoch img c.nextShard

/-- A shard list entry. -/
structure ShardEntry where
  target : Nat
  addr : Nat
  rkey : Word32
  len : Nat
deriving DecidableEq, Repr

/-- The shard that a cursor stands in: the scalar core of DATA_MILL reads the list, through the parameter sets (R274). -/
def State.shardAt (s : State) (img : Image) (c : Cursor) : ShardEntry :=
  let i := (shardPerm img.rtShuffle c.seed c.epoch img.rtShards).getD (s.wheel.device + s.wheel.p * c.k) 0
  let at_ := fun (k n : Nat) => s.num (s.xlat img (img.rtShardList + 32 * i + k)) n
  ⟨at_ 0 1, at_ 8 8, BitVec.ofNat 32 (at_ 16 4), at_ 24 8⟩
/-- Reading the working cursor and the entry of the shard that it stands in: their words are verified (R127, R130). -/
def State.readCursor (s : State) (img : Image) : State :=
  let t := s.readRange img.workingCursor 48
  let c := t.inEpoch img (t.cursorAt img.workingCursor)
  let i := (shardPerm img.rtShuffle c.seed c.epoch img.rtShards).getD (t.wheel.device + t.wheel.p * c.k) 0
  if t.run.failed then t else t.readRange (t.xlat img (img.rtShardList + 32 * i)) 32
/-- A shard of the sequence as one number. -/
def Cursor.shard (c : Cursor) : Nat := c.epoch * 2 ^ 32 + c.k

/-! ### State of the service -/

def State.setData (s : State) (d : DataSvc) : State := { s with run.data := d }
def State.putWorking (s : State) (img : Image) (c : Cursor) : State := s.pokes img.workingCursor (c.bytes img)
/-- Local QPN of a storage target (R276, R340). -/
def targetQpn (t : Nat) : Nat := 0x100 + t

/-- A micro-batch has been counted: its items go to the shape register of every logical Mill (R280). A sum that the register
cannot hold is written as the largest count, which R207 truncates: all ones would stand for the planned extent (log 78). -/
def State.writeItems (s : State) (img : Image) (b items : Nat) : State :=
  { s with shapes := (List.range 144).foldl (fun m l =>
    NMap.set 0xFFFFFFFF m (256 * l + (img.rtShapeMb + b) % 256) (min items 0xFFFFFFFE)) s.shapes }
/-- Go on to the next micro-batch, or to the bodies. -/
def State.nextMb (s : State) (img : Image) : State :=
  let d := s.run.data
  let t := s.writeItems img d.mb d.items
  if d.mb + 1 < img.rtM then t.setData { d with mb := d.mb + 1, recs := 0, items := 0 }
  else t.setData { d with phase := .body false }

/-- The rest of a shard is abandoned (R281): the record at hand is not filled, and the cursor moves on. -/
def State.abandonShard (s : State) (img : Image) (c : Cursor) : State :=
  let d := s.run.data
  let t := (s.count (cRun 7)).putWorking img (s.pastShard img c)
  { t.setData { d with phase := .header false, recs := d.recs + 1, todo := d.todo ++ [⟨0, 0, 0, 0, d.mb, c.shard⟩], retries := 0 } with
    run.fetchFail := t.run.fetchFail ||| BitVec.ofNat 8 (2 ^ d.mb) }

/-- Want the headers that remain: the next READ is issued, or every micro-batch is counted. A storage target without a
queue pair fails like a READ that has been retried. `fuel` bounds the shards passed over in one act. -/
def State.wantHeaders (s : State) (img : Image) : Nat → State
  | 0 => s
  | n + 1 =>
    let d := s.run.data
    if d.phase ≠ .header false then s
    else if img.rtRecords ≤ d.recs ∨ img.rtShards ≤ s.wheel.device then (s.nextMb img).wantHeaders img n
    else if (s.readCursor img).run.failed then s.readCursor img
    else
      let s := s.readCursor img
      let c := s.inEpoch img (s.cursorAt img.workingCursor)
      let e := s.shardAt img c
      if e.len ≤ c.off then (s.putWorking img (s.pastShard img c)).wantHeaders img n
      else if e.len < c.off + 8 then ((s.count (cRun 5)).putWorking img (s.pastShard img c)).wantHeaders img n
      else match s.qp (targetQpn e.target) with
        | none => ((s.countN (cRun 6) img.rtRetryLimit).abandonShard img c).wantHeaders img n
        | some _ =>
          let t := (s.putWorking img c).setData { d with phase := .header true, retries := 0 }
          t.roceIssue (targetQpn e.target) .data true (e.addr + c.off) e.rkey 8 [] 0

/-- The Race that the Ethernet ports produce into at DATA_MILL (R107, R115). -/
def Image.dataRace (img : Image) : Option RaceUse :=
  ((img.pondRaces.filter fun d => d.valid && d.mill == img.rtDataMill && d.producer == 5).map fun d =>
    (⟨raceKey (img.phys d.mill) (d.num + 32), img.phys d.mill, d.num + 32, d, true⟩ : RaceUse)).head?

/-- Want the records that remain, while the Race has room. A record without bytes takes its slot unwritten. -/
def State.wantBodies (s : State) (img : Image) : Nat → State
  | 0 => s
  | n + 1 =>
    let d := s.run.data
    match d.phase, d.todo, img.dataRace with
    | .body false, r :: rs, some u =>
      if s.raceBlocked u then s
      else if r.len = 0 then ((s.raceDone u).setData { d with todo := rs }).wantBodies img n
      else (s.setData { d with phase := .body true, retries := 0 }).roceIssue (targetQpn r.target) .data true r.addr r.rkey
        r.len [] 0
    | .body false, _, _ => s.setData { d with phase := .idle, todo := [] }
    | _, _, _ => s

/-- Whatever the service can do now. -/
def State.dataPump (s : State) : State := match s.image with
  | none => s
  | some img =>
    if img.hasRt && s.ctx.active && s.run.inStep && !s.run.failed then
      State.wantBodies (s.wantHeaders img (2 * img.rtShards + img.rtM + 8)) img (s.run.data.todo.length + 1)
    else s

/-- Begin the service for a step; requests of an earlier one are answered no more. -/
def State.dataStart (s : State) : State :=
  let drop := fun (q : Qp) => { q with reqs := q.reqs.filter fun r => r.owner ≠ .data }
  State.dataPump { s with
    qps := s.qps.map fun p => (p.1, p.2.map drop)
    run.data := { DataSvc.init with phase := .header false } }

/-! ### What a READ brings (R280, R281) -/

/-- A header has arrived. -/
def State.headerIn (s : State) (img : Image) (bs : List Byte) : State :=
  let d := s.run.data
  let c := s.cursorAt img.workingCursor
  let e := s.shardAt img c
  let size := 8 + roundUp (fieldAt bs 0 4) 8
  if fieldAt bs 0 4 = 0 ∨ e.len < c.off + size then
    (((s.count (cRun 5)).putWorking img (s.pastShard img c)).setData { d with phase := .header false, retries := 0 })
  else (s.putWorking img { c with off := c.off + size }).setData { d with
    phase := .header false, retries := 0, recs := d.recs + 1, items := d.items + fieldAt bs 4 4
    todo := d.todo ++ [⟨e.target, e.addr + c.off, e.rkey, size, d.mb, c.shard⟩] }

/-- A record has arrived: it is written to its slot, where bytes beyond the slot are clamped to its last byte and count, and
published (R280, R412). -/
def State.bodyIn (s : State) (img : Image) (bs : List Byte) : State :=
  match img.dataRace with
  | none => s
  | some u =>
    let a := (s.raceSlot u).1
    let n := u.d.slotBytes
    match s.deposit img .eth none (((List.range bs.length).zip bs).map fun q => ⟨a + min q.1 (n - 1), 0, 8, q.2.toNat⟩) with
    | .wait ps _ => s.touch ps
    | .stop t => t
    | .go t => ((if n < bs.length then t.countN (cLayout u.m 0) (bs.length - n) else t).raceDone u).setData { t.run.data with phase := .body false, todo := t.run.data.todo.drop 1, retries := 0 }

/-- The data of the READ in progress. -/
def State.dataArrive (s : State) (bs : List Byte) : State := match s.image with
  | none => s
  | some img => match s.run.data.phase with
    | .header true => (s.headerIn img bs).dataPump
    | .body true => (s.bodyIn img bs).dataPump
    | _ => s

/-- A record cannot be fetched: it and those after it of its shard have no bytes, and their micro-batches are not filled. -/
def State.abandonBodies (s : State) (img : Image) : State :=
  let d := s.run.data
  match d.todo with
  | [] => s
  | r :: _ =>
    let c := s.inEpoch img (s.cursorAt img.workingCursor)
    let t := s.count (cRun 7)
    let u := if c.shard = r.shard then t.putWorking img (s.pastShard img c) else t
    let lost := d.todo.filter fun x => x.shard == r.shard
    { u.setData { d with phase := .body false, retries := 0, todo := d.todo.map fun x => if x.shard = r.shard then { x with len := 0 } else x } with
      run.fetchFail := lost.foldl (fun m x => m ||| BitVec.ofNat 8 (2 ^ x.mb)) u.run.fetchFail }

/-- A READ of the service has failed or timed out: it is retried, or after RETRY_LIMIT retries the rest of its shard is
abandoned. -/
def State.dataRetry (s : State) (n : Nat) (q : Qp) (r : Req) : State := match s.image with
  | none => s
  | some img =>
    let d := s.run.data
    if d.retries < img.rtRetryLimit then
      let q' := q.update r.psn fun x => { x with sentAt := s.time.ns, retries := x.retries + 1, rnrAt := none }
      (((s.count (cRun 6)).setData { d with retries := d.retries + 1 }).setQp n (some q')).roceSend n q' r
    else
      let t := s.setQp n (some (q.drop r.psn))
      match d.phase with
      | .header true => (t.abandonShard img (t.cursorAt img.workingCursor)).dataPump
      | .body true => (t.abandonBodies img).dataPump
      | _ => t

end Sys2Proof.Machine
end

