-- ==== Sys2Proof/Machine/Runtime.lean ====
section
/-! DEFINITION. The training runtime: boundaries, admission, the commit exchange and the decision (R51-R54, R256, R270-R273, R290-R297). -/
namespace Sys2Proof.Machine

/-! ### Boundaries (R271, R291, R295, R336) -/

/-- Every stream of the image waits for admission. -/
def State.streamsEnded (s : State) (img : Image) : Bool :=
  img.streams.all fun r => (s.stream (8 * r.owner + r.kind)).stat == .stepEnd

/-- A training job stands at a step boundary. -/
def State.atBoundary (s : State) (img : Image) : Bool :=
  s.ctx.active && decide (s.run.job ≠ 0) && !s.run.failed && !s.run.inStep && s.streamsEnded img

/-- A held trigger opens its snapshot here first, and admission waits for an opening (R23, R271, R307). -/
def State.snapFirst (s : State) : Bool :=
  (s.snap.held && decide (s.snap.st = .idle)) || decide (s.snap.st = .opening) ||
    (decide (s.snap.st = .suspended) && decide (s.snap.back = .opening))

/-- The context of a job that has ended at a boundary. -/
def State.leaveContext (s : State) : State :=
  let t := s.setLending 0
  { t with ctx := { t.ctx with active := false, reported := false }, streams := stopStreams s.streams, wheel := s.wheel.stopped
           run := { t.run with phase := 0, data := DataSvc.init } }

/-- What ends or suspends the job at a boundary: STEP_LIMIT, SKIP_LIMIT, a requested suspend (R295, R336, R337). -/
def State.boundaryStop (s : State) (img : Image) : Option State :=
  if s.run.stepLimit ≠ 0 ∧ s.run.stepLimit ≤ s.run.step then some (s.endJob .done 1).leaveContext
  else if img.hasRt ∧ img.rtSkipLimit ≤ s.run.skips then
    some ((State.opMove { s with run.suspendAt := none } s.run.job .suspended 7))
  else match s.run.suspendAt with
    | some k => if k ≤ s.run.step then some ((State.opMove { s with run.suspendAt := none } s.run.job .suspended 5)) else none
    | none => none

/-! ### The state block (R278) -/

/-- DECISION of the state block. -/
def Run.decision (r : Run) : Nat := r.outcome + (if r.outcome = 2 then 4 * r.causes.toNat else 0)
/-- The state block from STEP on. -/
def Run.block (r : Run) : List Byte :=
  leBytes 8 r.step ++ leBytes 1 r.scale ++ leBytes 1 r.skips ++ leBytes 2 r.clean ++ leBytes 4 (b2n r.set) ++ leBytes 4 r.mu ++
    leBytes 4 r.nu ++ leBytes 4 r.decision ++ leBytes 2 r.cMin ++ leBytes 2 0
/-- Write the fields of the state block that the runtime's registers present. -/
def State.writeBlock (s : State) (img : Image) : State := if img.hasRt then s.pokes (img.rtState + 0x60) s.run.block else s
/-- The same fields, read. -/
def State.readBlock (s : State) (img : Image) : State :=
  let a := img.rtState
  let d := s.num (a + 0x78) 4
  { s with run := { s.run with
      step := s.num (a + 0x60) 8, scale := s.num (a + 0x68) 1, skips := s.num (a + 0x69) 1, clean := s.num (a + 0x6A) 2
      set := decide (s.num (a + 0x6C) 4 % 2 = 1), mu := s.num (a + 0x70) 4, nu := s.num (a + 0x74) 4
      outcome := d % 4, causes := BitVec.ofNat 3 (d / 4), cMin := s.num (a + 0x7C) 2 } }

/-! ### Admission (R271) -/

/-- Start the cycle of every port that has one (R200). A port that has not finished the part before runs it to its end first. -/
def State.startCycles (s : State) (img : Image) : State :=
  img.ports.foldl (fun t r => if r.hasCycle then t.setPortPos r.port ((t.portPos r.port).stepAdmitted r) else t) s

/-- Return every stream to BODY (R203). -/
def State.startBodies (s : State) (img : Image) : State :=
  img.streams.foldl (fun t r => t.setStream (8 * r.owner + r.kind)
    { t.stream (8 * r.owner + r.kind) with stat := .running, pc := r.body, loops := [], since := t.time.ns }) s

/-- Zero the Wheel digests of every bucket (R266). -/
def State.zeroDigests (s : State) (img : Image) : State :=
  (List.range img.bucketCount).foldl (fun t b => t.zeroRange (indexAddr b + 64) 192) s

/-- The runtime's own state at an admission. -/
def Run.admitted (r : Run) (total grad nan : Nat) : Run :=
  { r with inStep := true, phase := 1, mask := 0, gated := 0, gateTotal := total, mbUe := false, replicaUe := false, fetchFail := 0
           backward := false, gradTotal := grad, gradNan := nan, late := false, amax := [], ordinals := [] }

/-- The Wheel's state at an admission. -/
def Wheel.admitted (w : Wheel) : Wheel :=
  { w with active := true, nextLaunch := 0, nextGather := 0, buckets := [], exchanges := [], suspected := w.suspectNext
           suspectNext := false, digestsSent := false, digestVote := false, atCommit := false, exchanging := false
           records := [], exps := [] }

/-- The Wheel takes its part in the step: the forward gate, the first exchange, and the frames that have arrived early. -/
def State.wheelBegin (s : State) (img : Image) : State :=
  let t := match img.weirOf s.ctx.table img.rtFwdWeir with
    | some e => if img.hasRt then (s.wheelCounted img e).weirFill img e weirFuel else s
    | none => s
  (t.enterSend img 0).wheelDrain

/-- The admission of a step, in one act. -/
def State.admitStep (s : State) (img : Image) : State :=
  let grad := s.groupTotal img.gradGroup true
  let nan := s.groupTotal img.gradGroup false
  let total := s.groupTotal (fun g => img.groupClass g == 0) false
  let t := if img.hasRt then s.pokes img.workingCursor (s.bytes img.committedCursor 48) else s
  let u := ((((State.zeroDigests { t with run := t.run.admitted total grad nan, wheel := t.wheel.admitted } img).digestHeld img).startCycles
    img).startBodies img).setLending 0
  let v := if img.hasRt then { u with shapes := (List.range 144).foldl (fun m l => (List.range img.rtM).foldl (fun m b =>
    NMap.set 0xFFFFFFFF m (256 * l + (img.rtShapeMb + b) % 256) 0xFFFFFFFF) m) u.shapes } else u
  (if img.hasRt then (v.moved.wheelBegin img).dataStart else v.moved)

/-- The SCALES entries: descriptor and history address. -/
def Image.histories (img : Image) : List (Nat × Nat) :=
  let bs := (img.sec 9).drop 8
  (List.range (bs.length / 16)).map fun i => (fieldAt bs (16 * i) 2, fieldAt bs (16 * i + 8) 6)
/-- The histories that give the tensor scales are read as a step begins and as it commits, since a scale is fixed for the whole
step: their words are verified then (R52, R127, R130; log 82). -/
def State.readHistories (s : State) (img : Image) : State := img.histories.foldl (fun t h => t.readRange (t.xlat img h.2) 72) s

def State.stepAdmit (s : State) : State := match s.image with
  | none => s
  | some img =>
    if s.atBoundary img && s.jobRuns && s.clk.lost then s.lostAtBoundary
    else if s.atBoundary img && s.jobRuns && !s.snapFirst then
      match s.boundaryStop img with
      | some t => t
      | none =>
        let prot := if img.hasRt then s.runtimeWaits img.rtState 256 else []
        let t := s.readHistories img
        if !prot.isEmpty then s.touch prot else if t.run.failed then t else t.admitStep img
    else s
/-- STEP_ADMIT (R271). -/
def execStepAdmit (s : State) : Host.Outcome State Fault Refusal := done s.stepAdmit

/-! ### The commit exchange (R54, R266, R292) -/

/-- Send the digests of every bucket to the neighbours, when a fault is suspected. -/
def State.sendDigests (s : State) (img : Image) : State :=
  if s.wheel.suspected ∧ s.wheel.digestsSent = false ∧ 0 < img.bucketCount then
    (List.range 12).foldl (fun t p =>
      let r := t.role p
      if 1 ≤ r ∧ r ≤ 6 ∧ (t.fport p).peerGm6 = false then
        t.portFrame img p (t.frameOf 9 0 (img.neighbour t.wheel.device ((r - 1) / 2) (decide (r % 2 = 1))) 0 0
          ((List.range img.bucketCount).flatMap fun b => leBytes 8 (t.num (indexAddr b + 8 * (8 + 2 * p)) 8)))
      else t) { s with wheel.digestsSent := true }
  else s

/-- Micro-batches withdrawn at the gate: F. -/
def State.gateCount (s : State) : Nat := ((List.range 8).filter fun i => s.run.mask.getLsbD i).length
/-- The losses of the surviving micro-batches, summed in order. -/
def State.lossSum (s : State) (img : Image) : Nat :=
  (sum32 (((List.range img.rtM).filter fun b => !s.run.mask.getLsbD b).map (s.lossOf img))).1
/-- The smallest C among the own shards; 0xFFFF with none. -/
def State.minCount (s : State) (img : Image) : Nat :=
  (((List.range img.bucketCount).filter fun b =>
    let r := img.shard s.wheel.device (img.bucket b).n
    decide (r.1 < r.2)).map fun b => (s.bucketSt b).total).foldl min 0xFFFF

/-- The two words of the own commit record. -/
def State.commitRecord (s : State) (img : Image) : Word64 × Word64 :=
  let ovf := decide (s.run.gradTotal < s.groupTotal img.gradGroup true)
  (BitVec.ofNat 64 (b2n ovf + b2n s.run.late * 2 + b2n s.wheel.digestVote * 4 + s.gateCount * 2 ^ 8 +
      s.minCount img % 2 ^ 16 * 2 ^ 16 + s.lossSum img * 2 ^ 32),
    BitVec.ofNat 64 (img.rtM - s.gateCount))

def State.commitExchange (s : State) : State := match s.image with
  | none => s
  | some img =>
    if img.hasRt ∧ s.wheel.exchanging = true ∧ s.run.inStep = true ∧ s.wheel.stalled = false ∧
        NMap.get none s.wheel.records s.wheel.device = none then
      let t := s.sendDigests img
      let w := t.commitRecord img
      let bytes := t.reports img
      ((t.keepRecord t.wheel.device w.1 w.2 bytes).sendRecord img t.wheel.device w bytes).wheelDrain
    else s
/-- COMMIT_EXCHANGE (R292). -/
def execCommitExchange (s : State) : Host.Outcome State Fault Refusal := done s.commitExchange

/-! ### The decision (R293) -/

/-- What the P records say. -/
structure Votes where
  ovf : Bool
  late : Bool
  digest : Bool
  cMin : Nat
  n : Nat
  sum : Nat
deriving DecidableEq, Repr

/-- All P records, in device order; none while one is missing. -/
def State.allRecords (s : State) : Option (List (Word64 × Word64)) :=
  ((List.range s.wheel.p).map fun d => NMap.get none s.wheel.records d).mapM id

/-- The records of a group as votes; an image with no RUNTIME section votes on nothing. -/
def votesOf (rs : List (Word64 × Word64)) : Votes :=
  let n := rs.foldl (fun n r => n + bitsOf r.2.toNat 15 0) 0
  let cs := rs.map fun r => bitsOf r.1.toNat 31 16
  { ovf := rs.any fun r => r.1.getLsbD 0, late := rs.any fun r => r.1.getLsbD 1, digest := rs.any fun r => r.1.getLsbD 2
    cMin := if cs.all (· == 0xFFFF) then n else cs.foldl min 0xFFFF
    n := n, sum := (sum32 (rs.map fun r => bitsOf r.1.toNat 63 32)).1 }

/-- Causes of a skip: [0] withdrawal test, [1] LATE, [2] DIGEST. -/
def Votes.causes (v : Votes) (pm fraction : Nat) : BitVec 3 :=
  BitVec.ofNat 3 (b2n (decide (fraction * pm < 256 * (pm - v.cMin))) + 2 * b2n v.late + 4 * b2n v.digest)

/-! ### Applying the decision (R294) -/

/-- L and the clean count (R54); an overflow at L_min counts one floor event (R296). -/
def State.stepScale (s : State) (img : Image) (ovf : Bool) : State :=
  let l := img.lossScale
  if ovf then
    (if s.run.scale ≤ l.2.1 then
      (State.count { s with run.clean := 0 } (cRun 4)).raise 0x0003 s.run.job [s.run.step % 2 ^ 32, s.run.step / 2 ^ 32]
    else { s with run.scale := max (s.run.scale - 1) l.2.1, run.clean := 0 })
  else if s.run.clean + 1 = 2000 then { s with run.scale := min (s.run.scale + 1) l.2.2, run.clean := 0 }
  else { s with run.clean := s.run.clean + 1 }

/-- EPOCH of every valid stream increases by one (R282). -/
def State.stepEpochs (s : State) (img : Image) : State :=
  (List.range img.rtStreams).foldl (fun t n =>
    let a := img.rtPhilox + 32 * n
    if bitOf (t.num (a + 16) 8) 0 then t.pokes (a + 8) (leBytes 8 (t.num (a + 8) 8 + 1)) else t) s

/-- The step's amax goes into every history, and its index advances (R51). The Wheel writes as a fabric agent, after ACTIVE_SET
has been inverted (R274, R294). -/
def State.stepHistories (s : State) (img : Image) : State :=
  (s.readHistories img) |> img.histories.foldl (fun t h =>
    let i := t.num (t.xlat img (h.2 + 64)) 1 % 16
    (t.pokes (t.xlat img (h.2 + 4 * i)) (leBytes 4 (NMap.get 0 t.run.amax h.1))).poke (t.xlat img (h.2 + 64))
      (BitVec.ofNat 8 ((i + 1) % 16)))

/-- The residual index of every bucket (R256, R260, R261); `step` is the step that commits. -/
def State.stepIndex (s : State) (img : Image) (step : Nat) : State :=
  (List.range img.bucketCount).foldl (fun t b =>
    let a := indexAddr b
    let w0 := t.num a 8
    let act := if (img.bucket b).mode = 1 ∨ (img.bucket b).mode = 2 then 1 - w0 % 2 else w0 % 2
    let h := (t.num (a + 8) 4 * 256 + t.wheel.exps.getD b 0 % 256) % 2 ^ 32
    t.pokes a (leBytes 8 (act + 2 + step % 2 ^ 32 * 2 ^ 32) ++ leBytes 8 (h + (t.bucketSt b).rescaled % 2 ^ 32 * 2 ^ 32))) s

/-- μ and ν (R290). -/
def State.stepStats (s : State) (img : Image) (v : Votes) : State :=
  if v.n = 0 then s
  else
    let mean := (div32 v.sum (round32 (FV.ofNat v.n)).1).1
    let h := (127 - img.rtSpikeShift) * 2 ^ 23
    let mix := fun (x target : Nat) => (add32 x (mul32 h (sub32 target x).1).1).1
    { s with run.mu := mix s.run.mu mean, run.nu := mix s.run.nu (mul32 mean mean).1 }

/-- The rows of R294 on a commit. -/
def State.commit (s : State) (img : Image) (v : Votes) : State :=
  let t := s.stepScale img v.ovf
  let k := t.run.step
  let u := { t with run := { t.run with
    step := k + 1, set := if img.hasRt then !t.run.set else t.run.set, skips := 0, outcome := 1, withdrawAll := false
    committedTag := some img.jobTag } }
  if img.hasRt then
    ((((u.pokes img.committedCursor (u.bytes img.workingCursor 48)).stepEpochs img).stepHistories img).stepIndex img k).stepStats img v
  else u

/-- The rows of R294 on a skip. -/
def State.skip (s : State) (img : Image) (v : Votes) (causes : BitVec 3) : State :=
  let t := s.stepScale img v.ovf
  State.count { t with run := { t.run with skips := t.run.skips + 1, outcome := 2, causes := causes } } (cRun 1)

/-- Step markers of the Wheel at every vertical port (R202). -/
def State.wheelMarkers (s : State) (img : Image) : State :=
  (List.range 144).foldl (fun t l => t.padPort img (0x3000 + l) [4]) s

/-- The step is over: markers, the state block, the mirrors, and the boundary (R24, R291). -/
def State.stepOver (s : State) (img : Image) : State :=
  let t := ((s.writeBlock img).wheelMarkers img).refreshAll
  let u : State := { t with
    run := { t.run with inStep := false, phase := 0, boundary := t.run.boundary + 1, data := DataSvc.init }
    wheel := { t.wheel with active := false, atCommit := false, exchanging := false, suspected := false, digestsSent := false } }
  let w := (u.opProgress u.run.job u.run.step).moved.lostAtBoundary
  if w.run.failed || w.snapFirst then w
  else match w.boundaryStop img with
    | some x => x
    | none => w

/-- Waits on the pages that the decision writes. -/
def State.decisionPages (s : State) (img : Image) : List PageWait :=
  if img.hasRt then
    s.runtimeWaits img.rtState 256 ++ s.runtimeWaits img.rtPhilox (32 * img.rtStreams) ++
      img.histories.flatMap fun h => s.runtimeWaits (img.translate (!s.run.set) h.2) 72
  else []

/-- The index entries that the decision advances are read (R265). -/
def State.readIndex (s : State) (img : Image) : State :=
  (List.range img.bucketCount).foldl (fun t b => s.unlessFailed t fun u => u.readOwn (indexAddr b) 16) s

def State.commitDecision (s : State) : State := match s.image with
  | none => s
  | some img =>
    if s.ctx.active = true ∧ s.run.job ≠ 0 ∧ s.run.failed = false ∧ s.run.inStep = true ∧ s.streamsEnded img = true then
      if img.hasRt then
        (match s.allRecords with
         | none => s
         | some rs =>
           if s.wheel.exchanging = false then s
           else match s.decisionPages img with
             | [] => s.unlessFailed (s.readIndex img) fun s =>
               let v := votesOf rs
               let causes := v.causes (s.wheel.p * img.rtM) img.rtSkipFraction
               let t := { s with run.cMin := v.cMin % 2 ^ 16 }
               if causes = 0 ∧ v.cMin ≠ 0 then (t.commit img v).stepOver img else (t.skip img v causes).stepOver img
             | ps => s.touch ps)
      else
        let ovf := decide (s.run.gradTotal < s.groupTotal img.gradGroup true)
        (s.commit img ⟨ovf, false, false, 0, 0, 0⟩).stepOver img
    else s
/-- COMMIT_DECISION (R293, R294). -/
def execCommitDecision (s : State) : Host.Outcome State Fault Refusal := done s.commitDecision

/-! ### The deadlock detector (R227, R228) -/

/-- A blocked item: last progress, KIND, ITEM, DETAIL. -/
structure Blocked where
  at_ : Nat
  kind : Nat
  item : Nat
  detail : Nat
deriving DecidableEq, Repr

/-- A port blocked on a holder, since a time. -/
def State.blockedAt (s : State) (at_ port code : Nat) : Blocked :=
  ⟨at_, 0, port, (s.portPos port).entry % 1024 + code % 16 * 1024⟩
/-- Ports waiting at an entry or executing only passing entries; the ports at which a write waits for a protected page (R309),
and those that serve nobody and at which a stream presents (R200). -/
def State.blockedPorts (s : State) : List Blocked :=
  (s.ports.filterMap fun p =>
    if p.2.running && (decide (p.2.waiting ≠ 0) || decide (p.2.held ≠ 0) || p.2.passing) then
      some (s.blockedAt p.2.progress p.1 (if p.2.waiting ≠ 0 then p.2.waiting else p.2.held)) else none) ++
  (s.snap.touched.map fun t => s.blockedAt t.since t.wait.port t.wait.code) ++
  s.streams.filterMap fun p => match p.2.stat with
    | .atPort port code => some (s.blockedAt p.2.since port code)
    | _ => none
/-- Races with a blocked end, by physical Mill and Race field. -/
def State.blockedRaces (s : State) : List Blocked :=
  let ks := s.streams.filterMap fun p => match p.2.stat with
    | .onRace key prod => some (2 * key + b2n (!prod))
    | _ => none
  (distinct ks).map fun q =>
    let key := q / 2
    let x := s.raceSt key
    ⟨x.progress, 1, key / 64 % 256 + key % 64 % 32 * 256 + key % 64 / 32 * 8192 + q % 2 * 16384, x.tail.toNat⟩
/-- Weirs with a waiting participant, by physical number. -/
def State.blockedWeirs (s : State) : List Blocked :=
  s.weirs.filterMap fun w =>
    if w.2.waiters.isEmpty then none
    else some ⟨w.2.progress, 2, w.1 % 2048, w.2.counted.length % 1024 + w.2.gen % 2 ^ 22 * 1024⟩

/-- One item goes before another: it is older; among ports of one age the lower PORT code. -/
def Blocked.before (x b : Blocked) : Bool :=
  decide (x.at_ < b.at_) || (decide (x.at_ = b.at_) && decide (x.kind = 0) && decide (b.kind = 0) && decide (x.item < b.item))
/-- The oldest item, the first among equals. -/
def oldest : Blocked → List Blocked → Blocked
  | b, [] => b
  | b, x :: xs => oldest (if x.before b then x else b) xs

/-- PORT code of the Wheel's spine output (R199). -/
def wheelPort : Nat := 0x6008

/-- The Wheel waits for frames of the group: a reduction, an all-gather or the commit exchange is short of what the neighbours
send. -/
def State.awaitsGroup (s : State) (img : Image) : Bool :=
  s.wheel.stalled || (s.wheel.active && ((List.range img.bucketCount).any (fun b =>
    (decide ((s.bucketSt b).st = .reducing) && !s.shardReady img b) || decide ((s.bucketSt b).st = .gathering)) ||
    (s.wheel.exchanging && s.allRecords.isNone)))
/-- The item reported; the Wheel's port when the cause lies outside the module, as with a neighbour that is silent (R227). -/
def State.oldestBlocked (s : State) (img : Image) : Blocked :=
  if s.awaitsGroup img then ⟨0, 0, wheelPort, 0⟩
  else match s.blockedPorts ++ s.blockedRaces ++ s.blockedWeirs with
    | [] => ⟨0, 0, wheelPort, 0⟩
    | b :: bs => oldest b bs

/-- A stream that is neither stopped nor waiting for admission. -/
def Stream.live (t : Stream) : Bool := match t.stat with
  | .idle => false
  | .stepEnd => false
  | _ => true

/-- The context is deadlocked and not yet reported. -/
def State.deadlocked (s : State) (img : Image) : Bool :=
  s.ctx.active && !s.ctx.reported && decide (img.deadlockNs ≤ s.time.ns - s.ctx.progress) && s.streams.any fun p => p.2.live

/-- DEADLOCK_DETECT (R228). -/
def execDeadlockDetect (s : State) : Host.Outcome State Fault Refusal :=
  match s.image with
  | none => done s
  | some img =>
    if s.deadlocked img then
      let b := s.oldestBlocked img
      let t := s.count (cWeir 3)
      let u := if t.deadLog.valid then t else { t with deadLog := ⟨true, b.kind, b.item, BitVec.ofNat 32 b.detail⟩ }
      done { u.raise 0x0002 s.run.job [2 ^ 31 + b.kind * 2 ^ 29 + b.item, b.detail] with ctx.reported := true }
    else done s

/-! ### What happens with no command (R280, R364) -/

/-- What an idle step does: a nanosecond of the timebase passes, the data service does what it can, and held frames that have
become ready are handled; DESIGN CHOICE, log 8. -/
def State.idle (s : State) : State :=
  let t := if s.time.running then { s with time.ns := s.time.ns + 1 } else s
  t.dataPump.wheelDrain

end Sys2Proof.Machine
end

