-- ==== Sys2Proof/Machine/Snapshot.lean ====
section
/-! DEFINITION. Snapshots: opening, first touches, streaming, sealing, closing and failing (R23, R304-R313). -/
namespace Sys2Proof.Machine

/-! ### Opening (R307) -/

/-- A request of the snapshot is outstanding on its queue pair. -/
def State.snapReq (s : State) (f : ReqOwner → Bool) : Bool := match s.qp s.snap.qpn with
  | some q => q.reqs.any fun r => f r.owner
  | none => true

/-- Suspend the stream of a snapshot: protection stays in force (R313). -/
def State.snapSuspend (s : State) : State :=
  State.opMove { s with snap.back := s.snap.st, snap.st := .suspended } s.snap.handle .suspended s.snap.last

/-- A held snapshot whose operation has been suspended meanwhile stops as it opens. -/
def State.snapOpened (s : State) : State := match s.op s.snap.handle with
  | some o => if o.state = .suspending then s.snapSuspend else s
  | none => s

def State.snapshotOpen (s : State) : State := match s.image with
  | none => s
  | some img =>
    if s.atBoundary img && s.snap.held && decide (s.snap.st = .idle) then
      let t := s.snapOpen img false s.snap.heldHandle
      (t.opProgress t.snap.handle t.snap.pagesLeft).snapOpened.millsFound
    else s
/-- SNAPSHOT_OPEN (R307). -/
def execSnapshotOpen (s : State) : Host.Outcome State Fault Refusal := done s.snapshotOpen

/-! ### First touches (R308, R309) -/

/-- A page of the open snapshot by its data-region page number. -/
def Snap.pageAt (sn : Snap) (page : Nat) : Option Nat :=
  (sn.indices fun p => decide (p.store = 0) && decide (p.addr = page * pageBytes) && p.slot.isNone && !p.sent).head?

def State.firstTouch (s : State) (page : Nat) : State :=
  if s.protectedPage page && s.snap.touched.any (fun t => t.wait.page == page) && s.freeSlot.isSome then
    match s.snap.pageAt page with
    | none => s
    | some i => ((((s.copyPage i).setBitmap touchBase page true).unprotect page).count (cSnap 4)).wheelDrain.millsFound
  else s
/-- FIRST_TOUCH_COPY (R309). -/
def execFirstTouchCopy (page : Nat) (s : State) : Host.Outcome State Fault Refusal := done (s.firstTouch page)

/-! ### Acknowledged pages (R310) -/

/-- The page whose SEND has been answered. -/
def State.answeredPage (s : State) : Option Nat :=
  match (s.snap.indices fun p => p.sent && !p.acked).head? with
  | none => none
  | some i => if s.snapReq (fun o => o == .snapPage i) then none else some i

/-- Its slot is free; a page read where it lay is protected no longer. -/
def State.releasePage (s : State) (i : Nat) : State := match s.snap.pages[i]? with
  | none => s
  | some p =>
    let t := s.setPage i { p with acked := true }
    match p.slot with
    | some k => { t with snap.slots := t.snap.slots.filter (· != k) }
    | none => if p.store = 0 ∧ t.snap.final = false then t.unprotect (p.addr / pageBytes) else t

def State.pageAcked (s : State) : State :=
  if s.snap.st = .idle then s
  else match s.answeredPage with
    | none => s
    | some i =>
      let t := s.releasePage i
      let u := t.opProgress t.snap.handle t.snap.pagesLeft
      (if u.snap.st = .opening then u.snapStart else u.snapPump).millsFound
/-- SNAPSHOT_PAGE_ACKED (R310). -/
def execSnapshotPageAcked (s : State) : Host.Outcome State Fault Refusal := done s.pageAcked

/-! ### Sealing (R312) -/

/-- Header bytes 0x000 to 0xEFF. -/
def State.tableHead (s : State) : List Byte :=
  let sn := s.snap
  let digest := match s.image with
    | some img => img.digest
    | none => []
  let rt := match s.image with
    | some img => leBytes 8 img.rtSetA ++ leBytes 8 img.rtSetB ++ leBytes 8 img.rtWin
    | none => List.replicate 24 0
  let tag := match s.image with
    | some img => img.jobTag
    | none => 0
  padTo 0xF00 0
    (leBytes 4 0x5A0A0008 ++ leBytes 2 0x0100 ++ leBytes 2 (b2n sn.final + 2 * b2n (sn.pages.any (·.ue)) + 4) ++ leBytes 4 sn.seq ++
      leBytes 2 (sn.device % 2 ^ 13) ++ leBytes 2 sn.p ++ leBytes 8 sn.step ++ leBytes 8 tag ++ padTo 64 0 digest ++
      leBytes 8 sn.timeNs ++ leBytes 4 sn.ordinal ++ leBytes 4 (b2n sn.set) ++ leBytes 4 sn.pages.length ++
      leBytes 4 0 ++ keyId (ecEncode (ecMul (deviceKey s.nv.secret "gm8 snapshot") g521)) ++ leBytes 8 s.nv.serial.toNat ++ rt)
/-- The entries of the snapshot table, in the order of the pages. -/
def State.tableEntries (s : State) : List Byte := s.snap.pages.flatMap snapEntry
/-- The snapshot table: header, ROOT, signature, entries. -/
def State.table (s : State) : List Byte :=
  let root := sha512 (s.tableHead ++ s.tableEntries)
  padTo 0x1000 0 (s.tableHead ++ root ++ ecdsaSign (deviceKey s.nv.secret "gm8 snapshot") root) ++ s.tableEntries

def State.snapshotSeal (s : State) : State :=
  if s.snap.st = .streaming ∧ s.snap.pagesLeft = 0 then
    let bs := s.table
    let t := s.pokes s.tableAddr bs
    ({ t with snap.st := .sealing }).roceIssue s.snap.qpn .snapTable false 0 0 bs.length bs 0
  else s
/-- SNAPSHOT_SEAL (R312). -/
def execSnapshotSeal (s : State) : Host.Outcome State Fault Refusal := done s.snapshotSeal

/-! ### Closing and failing (R312, R313) -/

def State.snapshotClose (s : State) : State :=
  if s.snap.st = .sealing ∧ s.snapReq (fun o => o == .snapTable) = false then
    ((s.clearBitmaps.count (cSnap 2)).snapIdle 1).opMove s.snap.handle .done 1
  else s
/-- SNAPSHOT_CLOSE (R312). -/
def execSnapshotClose (s : State) : Host.Outcome State Fault Refusal := done s.snapshotClose

/-- A SEND of the snapshot. -/
def ReqOwner.ofSnap : ReqOwner → Bool
  | .snapPage _ => true
  | .snapTable => true
  | _ => false

/-- A SEND has had its four retries and has waited 10 ms since, or has no queue pair to go by. -/
def State.snapLost (s : State) : Bool := match s.qp s.snap.qpn with
  | some q => q.reqs.any fun r => r.owner.ofSnap && decide (4 ≤ r.retries) && r.rnrAt.isNone && decide (r.sentAt + 10000000 ≤ s.time.ns)
  | none => true

def State.snapshotFail (s : State) : State := if s.snap.st ≠ .idle ∧ s.snapLost = true then (s.snapFail false).wheelDrain else s
/-- SNAPSHOT_FAIL (R313); a cancel through Leat fails it at once (OP_CANCEL). -/
def execSnapshotFail (s : State) : Host.Outcome State Fault Refusal := done s.snapshotFail

/-- Cancel a snapshot: the open one fails, a held one is dropped (R313, R335). -/
def State.snapCancel (s : State) (h : Word32) : State :=
  if s.snap.held ∧ s.snap.heldHandle = h then
    State.opMove { s with snap.held := false, snap.heldHandle := 0 } h .cancelled 3
  else (s.snapFail true).wheelDrain

end Sys2Proof.Machine
end

