-- ==== Sys2Proof/Machine/Restore.lean ====
section
/-! DEFINITION. Restore: its table, its checks, its pages and its end (R314, R342). -/
namespace Sys2Proof.Machine

/-- Local QPN of a restore's queue pair (R340). -/
def restQpn : Nat := 0x180

/-- The operation's PROGRESS is the number of pages left. -/
def State.restProgress (s : State) : State := s.opProgress (s.handleOf .restore) s.restore.pagesLeft

/-- A restore ends with a code; one that ends in its pages has partly written memory. -/
def State.restEnd (s : State) (code : Nat) : State :=
  let h := s.handleOf .restore
  let r := s.restore
  let t : State := { s.setQp restQpn none with
    restore := { r with busy := false, code := code, paging := false, table := [], partly := r.partly || (r.paging && decide (code ≠ 0)) } }
  t.opMove h (if code = 0 then .done else if code = 0x0B then .cancelled else .failed) code

/-! ### The table (R312, R314) -/

/-- Entries that the header announces. -/
def Restore.count (r : Restore) : Nat := fieldAt r.table 0x70 4
/-- Entry `k`. -/
def Restore.entry (r : Restore) (k : Nat) : List Byte := slice r.table (0x1000 + 96 * k) 96

/-- What the header check of step 1 finds wrong, if anything. -/
def headCheck (img : Image) (r : Restore) : Option Nat :=
  let t := r.table
  if fieldAt t 0 4 ≠ 0x5A0A0008 ∨ fieldAt t 4 2 ≠ 0x0100 then some 6
  else if fieldAt t 0x18 8 ≠ img.jobTag then some 3
  else if fieldAt t 0x0C 2 % 2 ^ 13 ≠ fieldAt r.block 0x54 2 then some 4
  else if fieldAt t 0x88 8 ≠ img.rtSetA ∨ fieldAt t 0x90 8 ≠ img.rtSetB ∨ fieldAt t 0x98 8 ≠ img.rtWin then some 5
  else none

/-- Where a page goes: its first data address; none outside the installed image. -/
def entryAddr (img : Image) (e : List Byte) : Option Nat :=
  let a := fieldAt e 0 6
  let st := fieldAt e 6 1
  let l := a / 2 ^ 40
  if st = 0 then (if a % pageBytes = 0 ∧ a + pageBytes ≤ 0x00A800000000 then some a else none)
  else if st = 1 then
    (if l < 144 ∧ a % 2 ^ 40 % pageBytes = 0 ∧ a % 2 ^ 40 + pageBytes ≤ img.scratchBytes then some (sliceBase (img.phys l) + a % 2 ^ 40)
     else none)
  else if st = 2 then (if l < 144 ∧ a % 2 ^ 40 = 0 then some (hopperBase (img.phys l)) else none)
  else if st = 3 ∧ a = indexBase then some indexBase else none

/-- What steps 1 to 3 find wrong in a whole table, if anything. -/
def tableCheck (img : Image) (r : Restore) : Option Nat :=
  let root := sha512 (r.table.take 0xF00 ++ r.table.drop 0x1000)
  if ((List.range r.count).all fun k => (entryAddr img (r.entry k)).isSome) = false then some 5
  else if slice r.table 0xF00 64 ≠ root then some 7
  else if ecdsaVerify (slice r.block 0x58 133) root (slice r.table 0xF40 132) = false then some 6
  else if bitOf (fieldAt r.table 6 2) 1 then some 8
  else none

/-- Remote key of both areas. -/
def Restore.rkey (r : Restore) : Word32 := BitVec.ofNat 32 (fieldAt r.block 0x50 4)

/-- Read what is next: the rest of the table, in READs of at most 2 MiB, or a page. -/
def State.restRead (s : State) : State :=
  let r := s.restore
  if r.paging then
    (if r.next < r.count then
      s.roceIssue restQpn (.restPage r.next) true (fieldAt r.block 0x48 8 + fieldAt (r.entry r.next) 12 4 * 0x200060 + 0x60) r.rkey pageBytes [] 0
     else s)
  else
    let whole := if r.table.length < 0x1000 then 0x1000 else 0x1000 + 96 * r.count
    s.roceIssue restQpn .restTable true (fieldAt r.block 0x40 8 + r.table.length) r.rkey (min pageBytes (whole - r.table.length)) [] 0

/-- A suspend or a cancel takes effect between pages; otherwise the next READ is issued. -/
def State.restNext (s : State) : State := match s.opOf .restore with
  | none => s
  | some o =>
    if o.state = .cancelling then s.restEnd 0x0B
    else if o.state = .suspending then s.opMove o.handle .suspended 0
    else s.restRead

/-- A piece of the table has arrived. -/
def State.tableIn (s : State) (bs : List Byte) : State := match s.image with
  | none => s.restEnd 2
  | some img =>
    let t := { s with restore.table := s.restore.table ++ bs }
    match headCheck img t.restore with
    | some c => t.restEnd c
    | none =>
      if t.restore.table.length < 0x1000 + 96 * t.restore.count then t.restNext
      else match tableCheck img t.restore with
        | some c => t.restEnd c
        | none => ((State.restProgress { t with restore.paging := true, restore.next := 0, restore.retried := false
                                                restore.pagesLeft := t.restore.count })).restNext

/-! ### Pages -/

/-- The engine writes bytes at untranslated addresses, under the fixed rules of R101 and R105. -/
def State.engineWrite (s : State) (img : Image) (a : Nat) (bs : List Byte) : State :=
  let t := s.countDenied img .snapshot ((List.range bs.length).map (a + ·))
  ((List.range bs.length).zip bs).foldl (fun u q =>
    if (u.deny img .snapshot (a + q.1)).isSome then u else u.poke (a + q.1) q.2) t

/-- A page has arrived: it is verified and written, read once more, or fails the restore. -/
def State.pageIn (s : State) (bs : List Byte) : State := match s.image with
  | none => s.restEnd 2
  | some img =>
    let r := s.restore
    let e := r.entry r.next
    if sha512 bs = slice e 16 64 then
      let t := s.engineWrite img ((entryAddr img e).getD 0) bs
      (State.restProgress { t with restore := { r with next := r.next + 1, retried := false, pagesLeft := r.pagesLeft - 1 } }).restNext
    else if r.retried then
      State.restEnd { s.count (cSnap 7) with restore.failPage := r.next } 9
    else State.restNext { s with restore.retried := true }

/-- The page READ on its way. -/
def State.pageReq (s : State) : Option Req := match s.qp restQpn with
  | none => none
  | some q => q.reqs.find? fun r => match r.owner with
    | .restPage _ => true
    | _ => false

def State.restorePage (s : State) (data : List Byte) : State :=
  match s.pageReq, s.qp restQpn with
  | some r, some q =>
    if s.restore.busy ∧ data.length = pageBytes then (s.setQp restQpn (some (q.drop r.psn))).pageIn data else s
  | _, _ => s
/-- RESTORE_PAGE (R314): the data of the page READ on its way. -/
def execRestorePage (data : List Byte) (s : State) : Host.Outcome State Fault Refusal := done (s.restorePage data)

/-! ### The end -/

/-- ACTIVE_SET and the step number from the header, the rest of the committed state from its pages; the working cursor is the
committed one (R299). A final snapshot makes this device a replacement, whose next step withdraws everything (R298). -/
def State.restState (s : State) (img : Image) : State :=
  let t := s.restore.table
  let u := if img.hasRt then (s.readBlock img).pokes img.workingCursor (s.bytes img.committedCursor 48) else s
  { u with run := { u.run with
      set := bitOf (fieldAt t 0x6C 4) 0, step := fieldAt t 0x10 8, committedTag := some img.jobTag
      withdrawAll := bitOf (fieldAt t 6 2) 0 } }

/-- The restore has been suspended after its last page. -/
def State.restHeld (s : State) : Bool := match s.opOf .restore with
  | some o => decide (o.state = .suspended)
  | none => false

def State.restoreDone (s : State) : State := match s.image with
  | none => s
  | some img =>
    let r := s.restore
    if r.busy ∧ r.paging = true ∧ r.next = r.count ∧ s.pageReq = none ∧ s.restHeld = false then
      let t := s.restState img
      State.restEnd { t with restore.partly := false } 0
    else s
/-- RESTORE_DONE (R314). -/
def execRestoreDone (s : State) : Host.Outcome State Fault Refusal := done s.restoreDone

/-! ### Starting -/

/-- Begin a restore whose block has been read. -/
def State.restStart (s : State) (block : List Byte) : State :=
  let t : State := { s with restore := { s.restore with
    busy := true, block := block, table := [], paging := false, next := 0, retried := false, pagesLeft := 0 } }
  if t.jobRuns ∨ t.run.job ≠ 0 ∨ t.snap.st ≠ .idle then t.restEnd 1
  else if t.image.isNone then t.restEnd 2
  else if qpDescValid (block.take 64) = false then t.restEnd 0x0A
  else (t.openQp restQpn (block.take 64)).restRead

def restoreRun (payload : List Byte) (v : State) : LeatAns :=
  let s := v.wake
  let a := fieldAt payload 0 8
  if s.busyOp .restore then answer s 1
  else if a % 8 ≠ 0 then answer s 5
  else if 0x00A800000000 < a + 224 then answer s 6
  else if !s.memctl.zeroed then answer s 2
  else
    let rd := s.millerRead a 224
    let r := rd.1.newOp .restore
    .mk3 (r.1.restStart rd.2) 0 (leBytes 4 r.2.toNat)
def State.restoreCmd (s : State) (h : LeatHdr) (payload : List Byte) : State :=
  s.request h 0x0023 payload true (payload.length == 8) (restoreRun payload)
/-- RESTORE (R314, R342). -/
def execRestore (h : LeatHdr) (payload : List Byte) (s : State) : Host.Outcome State Fault Refusal :=
  done (s.restoreCmd h payload)

end Sys2Proof.Machine
end

