-- ==== Sys2Proof/Machine/Load.lean ====
section
/-! DEFINITION. Loading a Block image: the cross-section checks, the signature, IMAGE_LOAD and the installation (R64, R167, R193, R208-R210, R222, R273, R319). -/
namespace Sys2Proof.Machine

/-! ### Cross-section checks (R209): FAIL_SECTION 0xFFFF, the offset within STREAMS or BUCKETS -/

/-- The first failure over every instruction of every stream. -/
def Image.eachInstr (img : Image) (status : Nat) (ok : StreamRec → Nat → SInstr → Bool) : Option Bad :=
  firstBad (img.streams.flatMap fun r => (List.range r.count).map fun j =>
    need (ok r j (r.at j)) ⟨status, 0xFFFF, r.off + 16 + 32 * j⟩)

/-- Opcodes that have Race fields. -/
def takesRaces (o : Nat) : Bool := decide (0x10 ≤ o)

/-- An operation holds its role in every Race it names (RACE). -/
def Image.racesHeld (img : Image) (r : StreamRec) (i : SInstr) : Bool :=
  !takesRaces i.opcode || (List.range 4).all fun f =>
    i.race f == 0x3F || (img.raceUse r.owner r.kind (i.opcode == 0x11) (i.race f)).isSome

/-- Buffers of the Wheel in scratch need turns of code 4 at that slice. -/
def Image.wheelTurns (img : Image) (a : Nat) : Bool := match regionOf a with
  | .slice m _ => (match img.logical m with
    | some l => img.covered false (0x3000 + l, 4)
    | none => true)
  | _ => true
def Image.wheelTurnBad (img : Image) : Option Bad :=
  firstBad ((List.range img.bucketCount).map fun b =>
    let d := img.bucket b
    need (([d.grad, d.shard, d.param] ++ if d.mode = 0 then [] else [d.resA, d.resB]).all img.wheelTurns)
      ⟨9, 0xFFFF, 32 + 64 * b⟩)

/-- The operand pair of a PASS (R39, R167); a PASS without both descriptors names no pair. -/
def Image.passPair (img : Image) (i : SInstr) : Bool :=
  i.opcode != 0x10 || (i.dIdx 0 != 0xFFFF && i.dIdx 1 != 0xFFFF &&
    pairOk (img.desc (i.dIdx 0)).format (img.desc (i.dIdx 1)).format &&
    ((PassOp.of i).sparsity != 5 || decide (kpb16 (img.desc (i.dIdx 0)).format (img.desc (i.dIdx 1)).format ≤ 64)))

/-! Panels (R64) -/

/-- Largest K range of a panel. -/
def panelK (f : Nat) : Nat :=
  let b := fmtBits f
  if b = 2 then 2048 else if b = 4 then 1024 else if b = 6 then 672 else if b = 8 then 512 else if b = 16 then 256 else 128
/-- A panel fits both parts of the buffer: elements, and 16 KiB of scales, one byte for each row and block. -/
def panelFits (d : Desc) (kLo kHi : Nat) : Bool :=
  let b := fmtBlock d.format
  let k0 := d.kIndex kLo
  decide (kHi - kLo ≤ panelK d.format) && (b == 0 || kLo == kHi || decide ((k0 + (kHi - kLo) - 1) / b - k0 / b < 128))

/-- What a fill records: side, descriptor, block, K range. -/
abbrev PanelKey := Bool × Nat × Nat × Nat × Nat
def panelStep (img : Image) (r : StreamRec) (last : Option PanelKey) (j : Nat) : Except Nat (Option PanelKey) :=
  let i := r.at j
  let p := PassOp.of i
  if i.opcode ≠ 0x10 ∨ p.panel = 0 then .ok last
  else
    let sideB := decide (p.panel = 2) || decide (p.panel = 4)
    let d := i.dIdx (b2n sideB)
    let key : PanelKey := (sideB, d, if sideB then p.colBlk else p.rowBlk, p.kLo, p.kHi)
    if p.panel ≤ 2 then (if panelFits (img.desc d) p.kLo p.kHi then .ok (some key) else .error j)
    else if p.panel ≤ 4 ∧ last = some key then .ok last else .error j
def Image.panelBad (img : Image) : Option Bad :=
  firstBad ((img.streams.filter fun r => decide (r.kind < 2)).map fun r =>
    match walk r (panelStep img r) (r.count + 1) 0 r.count (none : Option PanelKey) with
    | .error j => some ⟨0xC, 0xFFFF, r.off + 16 + 32 * j⟩
    | .ok _ => none)

/-- A WEIR instruction: valid in every table, and the stream takes part (R222). -/
def Image.weirHeld (img : Image) (r : StreamRec) (i : SInstr) : Bool :=
  i.opcode != 3 || (List.range img.contexts).all fun t => match img.weirOf t (i.op 15 0) with
    | some e => (img.weirParts e).contains (r.owner, r.kind)
    | none => false

/-- The cross-section checks, in ascending status. -/
def Image.crossBad (img : Image) : Option Bad :=
  firstBad
    [ img.eachInstr 6 fun r _ i => img.racesHeld r i
    , img.eachInstr 9 img.turnOk
    , img.wheelTurnBad
    , img.eachInstr 0xA fun _ _ i => img.passPair i
    , img.panelBad
    , img.eachInstr 0xE fun r _ i => img.weirHeld r i
    , need (!img.hasBuckets || img.hasRt) ⟨0x12, 0xFFFF, 0⟩ ]

/-! ### The loader (R209) -/

/-- A physical Mill is serviceable (R21). -/
def State.serviceable (s : State) (m : Nat) : Bool := decide (m < 152) && !(s.mill m).retired && !(s.mill m).suspect

/-- The signature of the trailer verifies under the image-signing key it names (R208). -/
def State.signed (s : State) (bs : List Byte) : Bool :=
  let t := bs.drop (bs.length - 144)
  match enrolFind s.nv.enrolment 2 (t.take 8) with
  | some e => ecdsaVerify (slice e 8 133) (sha512 (bs.take (bs.length - 144))) (slice t 8 132)
  | none => false

/-- BUSY: a job that is not suspended, an open snapshot, a restore or another image load. -/
def State.loadBusy (s : State) : Bool := s.jobRuns || decide (s.snap.st ≠ .idle) || s.busyOp .restore || s.busyOp .image
/-- NOT_READY: fuses, packages, Mills. -/
def State.loadNotReady (s : State) : Bool :=
  !s.boot.fusesLoaded || decide (s.memctl.pkgFail ≠ 0) || decide (((List.range 152).filter s.serviceable).length < 144)

/-- What the loader finds wrong with a staged image, if anything. -/
def State.loadBad (s : State) (bs : List Byte) : Option Bad :=
  firstBad
    [ need (!s.loadBusy) ⟨1, 0, 0⟩
    , need (!s.loadNotReady) ⟨2, 0, 0⟩
    , headerBad bs
    , need (s.signed bs) ⟨3, 0xFFFF, bs.length - 144⟩
    , sectionsBad bs (Image.parse bs) s.serviceable
    , (Image.parse bs).crossBad ]

/-! ### IMAGE_LOAD (R209, R331, R335) -/

/-- What follows from the loader's verdict on an operation's image: it is refused and changes nothing else, or it waits for its
commit point. PROGRESS is the bytes checked. -/
def State.loadVerdict (s : State) (h : Word32) (bs : List Byte) : Option Bad → State
  | some b => State.opMove { s with img := { last := b.status, failSection := b.sec, failOffset := b.off } } h .failed b.status
  | none => State.opProgress { s with loading := some (Image.parse bs) } h bs.length

/-- ADDRESS and LENGTH name the staged image; no more than 256 MiB and a word of it are read. -/
def imageLoadRun (payload : List Byte) (v : State) : LeatAns :=
  let s := v.wake
  let a := fieldAt payload 0 8
  let n := fieldAt payload 8 8
  if a % 8 ≠ 0 then answer s 5
  else if 0x00A800000000 < a + n then answer s 6
  else if !s.memctl.zeroed then answer s 2
  else
    let rd := s.millerRead a (min n 0x10000008)
    let r := rd.1.newOp .image
    .mk3 (r.1.loadVerdict r.2 rd.2 (rd.1.loadBad rd.2)) 0 (leBytes 4 r.2.toNat)
def State.imageLoad (s : State) (h : LeatHdr) (payload : List Byte) : State :=
  s.request h 0x0020 payload true (payload.length == 16) (imageLoadRun payload)
/-- IMAGE_LOAD (R209, R331). -/
def execImageLoad (h : LeatHdr) (payload : List Byte) (s : State) : Host.Outcome State Fault Refusal :=
  done (s.imageLoad h payload)

/-! ### The commit point and what follows it (R210, R319) -/

/-- The load test of one Mill that is retired or suspect and not permanent. -/
def MillRec.tested (r : MillRec) (pass : Bool) : MillRec :=
  if pass then { r with retired := false, suspect := false, count := 0 }
  else { r with retired := true, permanent := decide (3 ≤ r.count + 1), count := r.count + 1 }
def State.loadTestMill (s : State) (pass : Bool) (m : Nat) : State :=
  let t := s.setMill m ((s.mill m).tested pass)
  if pass then t else t.count (cSnap 8)
/-- Every such Mill, in turn. -/
def State.loadTest (s : State) (bits : BitVec 152) : State :=
  (List.range 152).foldl (fun t m =>
    if ((s.mill m).retired || (s.mill m).suspect) && !(s.mill m).permanent then t.loadTestMill (bits.getLsbD m) m else t) s

/-- Banks at the load: those the image powers are ON, every other is OFF (R99). -/
def Image.banks (img : Image) : NMap Bank :=
  (List.range 152).flatMap fun m => match img.logical m with
    | none => []
    | some l => (List.range 16).filterMap fun b => if img.bankOn l b then some (16 * m + b, { Bank.init with st := .on }) else none

/-- A job that is suspended ends at the commit point (R225, R335). -/
def State.endSuspended (s : State) : State :=
  let t := s.endJob .cancelled 2
  { t with run := { t.run with phase := 0, inStep := false, suspendAt := none, failed := false, data := DataSvc.init } }

/-- The stores at the load: Hoppers zero with their banks set, Kettles empty, the scratch of used slices zero, the cache empty
(R99, R109). -/
def State.loadStores (s : State) (img : Image) : State :=
  let t := { s.zeroRange 0x020000000000 0x13000000 with
    banks := img.banks, kettle := [], kettleSyn := [], memctl := { s.memctl with cache := [] } }
  (List.range 152).foldl (fun u m => if img.uses m then u.zeroRange (sliceBase m) img.scratchBytes else u) t

/-- Steps 6 to 10 of the installation (R210). A device that has failed holds no longer (log 49). -/
def State.install (s : State) (img : Image) (bits : BitVec 152) : State :=
  let t := ((s.endSuspended.uninstall).loadTest bits).loadStores img
  { t with
    image := some img, ports := img.portsAtRest, shapes := img.shapesMap, img := { t.img with last := 0 }
    leat.tailraceDone := true, leat.tailraceOpen := t.boot.recovery }

def State.imageInstall (s : State) (bits : BitVec 152) : State := match s.loading, s.opOf .image with
  | some img, some o => if s.up && decide (s.pwr.plCur = 0) then (s.install img bits).opMove o.handle .done 0 else s
  | _, _ => s
/-- IMAGE_INSTALL: the commit point of a load that has passed its checks; the bits say which Mills pass the load test
(R210, R319). -/
def execImageInstall (loadTest : BitVec 152) (s : State) : Host.Outcome State Fault Refusal := done (s.imageInstall loadTest)

/-- A load cancelled before its commit point changes nothing (R335). -/
def State.loadCancel (s : State) (h : Word32) : State :=
  State.opMove { s with loading := none, img := { s.img with last := 0x11 } } h .cancelled 0x11

end Sys2Proof.Machine
end

