-- ==== Sys2Proof/Machine/Jobs.lean ====
section
/-! DEFINITION. Training jobs: JOB_START, the operation commands, SNAPSHOT, DIGEST_CHECK and TAKEOVER (R226, R264, R266, R298, R299, R305, R306, R316, R334-R339). -/
namespace Sys2Proof.Machine

/-! ### The job-start block (R338) -/

structure JobBlock where
  cont : Bool
  context : Nat
  device : Nat
  p : Nat
  seed : Nat
  stepLimit : Nat
  snapBase : Nat
  snapLen : Nat
  snapQp : Nat
  qpCount : Nat
  qps : List (List Byte)
  captureCount : Nat
  capture : List (Nat × Nat)
deriving DecidableEq, Repr

/-- Bytes of the block that its first 48 bytes announce. -/
def jobBlockBytes (bs : List Byte) : Nat := 0x30 + 64 * fieldAt bs 0x29 1 + 16 * fieldAt bs 0x2A 2
def JobBlock.parse (bs : List Byte) : JobBlock :=
  let n := fieldAt bs 0x29 1
  let c := fieldAt bs 0x2A 2
  { cont := bitOf (fieldAt bs 0 4) 0, context := bitsOf (fieldAt bs 0 4) 2 1, device := fieldAt bs 4 2, p := fieldAt bs 6 2
    seed := fieldAt bs 8 8, stepLimit := fieldAt bs 16 8, snapBase := fieldAt bs 0x18 8, snapLen := fieldAt bs 0x20 8
    snapQp := fieldAt bs 0x28 1, qpCount := n, qps := (List.range n).map fun i => slice bs (0x30 + 64 * i) 64
    captureCount := c
    capture := (List.range c).map fun i => (fieldAt bs (0x30 + 64 * n + 16 * i) 8, fieldAt bs (0x38 + 64 * n + 16 * i) 8) }

/-! ### Refusals (R305, R306, R337) -/

/-- A page of a capture range lies in the data region, the scratch part of a used slice, or the Hopper of a used Mill. -/
def Image.pageOk (img : Image) (a : Nat) : Bool := match regionOf a with
  | .data => decide (a + pageBytes ≤ 0x00A800000000)
  | .slice m off => img.uses m && decide (off + pageBytes ≤ img.scratchBytes)
  | .hopper m _ => img.uses m
  | _ => false
def Image.rangeOk (img : Image) (r : Nat × Nat) : Bool :=
  r.1 % pageBytes == 0 && r.2 % pageBytes == 0 && decide (r.1 + r.2 ≤ 0x030000000000) &&
    (List.range (r.2 / pageBytes)).all fun i => img.pageOk (r.1 + i * pageBytes)

def snapRegionOk (base len : Nat) (pages : List Nat) : Bool :=
  base % pageBytes == 0 && decide (1 ≤ len / pageBytes) && decide (len / pageBytes ≤ 32768) &&
    decide (base + len ≤ 0x00A800000000) && pages.all fun p => !(pagesOf base len).contains p

/-! ### Starting a context (R200, R203, R226, R299) -/

/-- A port at segment 0, entry FIRST, running its prologue; a port with none waits for its first cycle. -/
def PortRec.start (r : PortRec) (now : Nat) : PortPos :=
  let p : PortPos := { r.rest with running := true, progress := now }
  if r.hasCycle ∧ r.cycleStart = 0 then { p with ended := true } else PortPos.settle r 17 p

/-- Every stream at the start of its prologue; one with none is at its step end, and what it drives pads. -/
def State.startStreams (s : State) (img : Image) : State :=
  let t := img.streams.foldl (fun u r =>
    let k := 8 * r.owner + r.kind
    u.setStream k { (u.stream k).stopped with stat := if r.body = 0 then .stepEnd else .running, since := u.time.ns }) s
  (img.streams.filter fun r => r.body == 0).foldl (fun u r => u.padStream img r.owner r.kind) t

/-- Start the context: the ports' prologues, the streams' prologues, and the Wheel, which has none (R202). -/
def State.startContext (s : State) (img : Image) (table : Nat) : State :=
  let t : State := { s with
    ctx := ⟨true, table, 0, s.time.ns, false⟩, weirs := []
    ports := img.ports.foldl (fun m r => NMap.set PortPos.init m r.port (r.start s.time.ns)) [] }
  (t.startStreams img).wheelMarkers img

/-! ### A fresh start (R51, R53, R54, R261, R270, R277, R278, R282, R290) -/

/-- The runtime of a fresh start. -/
def Run.fresh (r : Run) (img : Image) (seed : Nat) : Run :=
  { r with step := 0, scale := img.lossScale.1, skips := 0, clean := 0, set := false, mu := 0, nu := 0, outcome := 0, causes := 0
           cMin := 0, mask := 0, withdrawAll := false, seed := seed, committedTag := some img.jobTag }
/-- Every EPOCH of the stream table is zero. -/
def State.zeroEpochs (s : State) (img : Image) : State :=
  (List.range img.rtStreams).foldl (fun t n => t.pokes (img.rtPhilox + 32 * n + 8) (leBytes 8 0)) s
/-- Histories hold the initial amax of their tensors. -/
def State.initHistories (s : State) (img : Image) : State :=
  img.histories.foldl (fun t h =>
    let a := match img.scaleEntry h.1 with
      | some e => e.2.1
      | none => 0
    t.pokes h.2 ((List.range 16).flatMap (fun _ => leBytes 4 a) ++ leBytes 8 0)) s
/-- The residual index: zero, with HISTORY of E_INIT. -/
def State.initIndex (s : State) (img : Image) : State :=
  (List.range img.bucketCount).foldl (fun t b =>
    (t.zeroRange (indexAddr b) 256).pokes (indexAddr b + 8) (List.replicate 4 (BitVec.ofNat 8 img.eInit))) s
/-- The committed state of a fresh start. -/
def State.freshState (s : State) (img : Image) (seed : Nat) : State :=
  let t : State := { s with run := s.run.fresh img seed }
  let cur := (Cursor.mk 0 0 0 seed).bytes img
  let u := if img.hasRt then
      (t.pokes img.rtState (cur ++ cur ++ t.run.block ++ List.replicate 128 0)).zeroEpochs img else t
  (u.initHistories img).initIndex img
/-- The committed state of a start with CONTINUE: as it stands in memory (R299). -/
def State.continueState (s : State) (img : Image) : State :=
  if img.hasRt then
    let t := s.readBlock img
    { (t.pokes img.workingCursor (t.bytes img.committedCursor 48)) with run := { t.run with seed := (t.cursorAt img.committedCursor).seed } }
  else s

/-- The state whose capture set a job start checks (R305, R306): the parameter set, the residual copies and the capture
list with which the job begins (log 50). -/
def State.atStart (s : State) (img : Image) (b : JobBlock) : State :=
  let t := if b.cont then s.continueState img else s.initIndex img
  { t with run.capture := b.capture, run.set := b.cont && t.run.set }

/-- Why a job start is refused: its DETAIL (R337). -/
def State.jobRefusal (s : State) (img : Image) (b : JobBlock) : Option Nat :=
  firstBad
    [ need (decide (b.device < b.p) && b.device != 8191 && (!img.hasBuckets || b.p == img.groupSize)) 0x11
    , need (img.routers.all fun r => decide ((((img.desc r.logits).ext.drop 1).foldl (· * ·) 1) ≤ 8192)) 0x12
    , need (decide (b.captureCount ≤ 256) && b.capture.all img.rangeOk && decide (((s.atStart img b).captureSet img).length ≤ 349482)) 0x13
    , need (snapRegionOk b.snapBase b.snapLen ((s.atStart img b).captureData img)) 0x14
    , need (!b.cont || (decide (s.run.committedTag = some img.jobTag) && !s.restore.partly)) 0x15
    , need (decide (1 ≤ b.qpCount) && decide (b.qpCount ≤ 64) && b.qps.all qpDescValid && decide (b.snapQp < b.qpCount)) 0x16
    , need (decide (b.context < img.contexts)) 0x17 ]

/-! ### Pages that a start writes while a snapshot of an earlier job is open (R308, R309, log 51) -/

def State.startPages (s : State) (img : Image) (cont : Bool) : List Nat :=
  (if img.hasRt then s.protectedIn img.rtState 256 else []) ++
    if cont then [] else
      (if img.hasRt then s.protectedIn img.rtPhilox (32 * img.rtStreams) else []) ++ img.histories.flatMap fun h => s.protectedIn h.2 72
/-- Copy one protected page; none while no slot is free. -/
def State.claimPage (s : State) (page : Nat) : Option State :=
  if s.protectedPage page then
    match s.snap.pageAt page, s.freeSlot with
    | some i, some _ => some ((((s.copyPage i).setBitmap touchBase page true).unprotect page).count (cSnap 4)).millsFound
    | _, _ => none
  else some s
def State.claimPages (s : State) : List Nat → Option State
  | [] => some s
  | p :: ps => (s.claimPage p).bind fun t => t.claimPages ps

/-! ### JOB_START (R331, R335, R338) -/

/-- A snapshot that does not let a job start: one that is opening, or a failed device's last (log 51). -/
def State.snapHolds (s : State) : Bool :=
  s.snap.final || decide (s.snap.st = .opening) || (decide (s.snap.st = .suspended) && decide (s.snap.back = .opening))
/-- BUSY: another job, an image load, a restore or a self-test, or a scrub of Millpond or the Hoppers. -/
def State.startBusy (s : State) : Bool :=
  s.jobOpen || s.busyOp .image || s.busyOp .restore || s.busyOp .selfTest ||
    (s.busyOp .scrub && (s.work.scrubStores.getLsbD 1 || s.work.scrubStores.getLsbD 2)) || s.snapHolds

/-- Queue pair i has QPN 0x100 + i; that of a snapshot still open stays as it is (R340). -/
def State.openQps (s : State) : Nat → List (List Byte) → State
  | _, [] => s
  | i, bs :: rest =>
    (if s.snap.st ≠ .idle ∧ s.snap.qpn = targetQpn i then s else s.openQp (targetQpn i) bs).openQps (i + 1) rest

/-- The Wheel of a new job, with the image's roles (R250). -/
def Wheel.begin (w : Wheel) (img : Image) (p device : Nat) : Wheel :=
  { Wheel.init with valid := true, p := p, device := device, roles := (List.range 12).map img.role, digSel := w.digSel, digLog := w.digLog }
/-- The runtime of a new job. -/
def Run.begin (r : Run) (h : Word32) (b : JobBlock) : Run :=
  { r with job := h, stepLimit := b.stepLimit, failed := false, failClass := 0, suspendAt := none, snapBase := b.snapBase
           snapLen := b.snapLen, snapQp := b.snapQp, capture := b.capture, amax := [], ordinals := [], millErrs := [], snapSeq := 0
           boundary := r.boundary + 1 }

/-- Start a job that nothing refuses. -/
def State.jobBegin (s : State) (img : Image) (b : JobBlock) : State × Word32 :=
  let r := (State.ownerReset { s with weirs := [] }).newOp .job
  let t : State := { r.1 with wheel := r.1.wheel.begin img b.p b.device, run := r.1.run.begin r.2 b }
  let u := if b.cont then t.continueState img else t.freshState img b.seed
  let v := (u.openQps 0 b.qps).startContext img b.context
  (v.opProgress r.2 v.run.step, r.2)

/-- Start the job, refuse it with a DETAIL, or answer BUSY. -/
def State.jobJudge (s : State) (b : JobBlock) : LeatAns := match s.image with
  | none => .mk3 s 0xA (leBytes 4 0 ++ leBytes 4 0x10)
  | some img => match s.jobRefusal img b with
    | some d => .mk3 s 0xA (leBytes 4 0 ++ leBytes 4 d)
    | none => match s.claimPages (s.startPages img b.cont) with
      | none => answer s 1
      | some t => let r := t.jobBegin img b
                  .mk3 r.1 0 (leBytes 4 r.2.toNat ++ leBytes 4 0)

def jobStartRun (payload : List Byte) (v : State) : LeatAns :=
  let s := v.wake
  let a := fieldAt payload 0 8
  if a % 8 ≠ 0 then answer s 5
  else if 0x00A800000000 < a + 0x30 then answer s 6
  else if !s.memctl.zeroed then answer s 2
  else if s.startBusy then answer s 1
  else
    let n := jobBlockBytes (s.millerBytes a 0x30)
    if 0x00A800000000 < a + n then answer s 6
    else
      let rd := s.millerRead a n
      rd.1.jobJudge (JobBlock.parse rd.2)
def State.jobStart (s : State) (h : LeatHdr) (payload : List Byte) : State :=
  s.request h 0x0021 payload true (payload.length == 8) (jobStartRun payload)
/-- JOB_START (R331, R337, R338). -/
def execJobStart (h : LeatHdr) (payload : List Byte) (s : State) : Host.Outcome State Fault Refusal :=
  done (s.jobStart h payload)

/-! ### SNAPSHOT (R304, R335) -/

/-- A trigger while the job has no context running, as after an immediate suspend, is discarded: its operation fails at once
(R304, log 77). -/
def State.triggerHost (s : State) : State × Word32 :=
  if s.ctx.active then s.snapTrigger
  else
    let r := s.newOp .snapshot
    (r.1.opMove r.2 .failed r.1.snap.last, r.2)
def snapshotRun (v : State) : LeatAns :=
  let s := v.wake
  if s.run.job = 0 then answer s 9
  else
    let r := s.triggerHost
    .mk3 r.1 0 (leBytes 4 r.2.toNat)
def State.snapshotCmd (s : State) (h : LeatHdr) (payload : List Byte) : State :=
  s.request h 0x0022 payload true payload.isEmpty snapshotRun
/-- SNAPSHOT (R304, R335). -/
def execSnapshot (h : LeatHdr) (payload : List Byte) (s : State) : Host.Outcome State Fault Refusal :=
  done (s.snapshotCmd h payload)

/-! ### OP_SUSPEND (R335-R337) -/

/-- A request of the restore is on its way. -/
def State.restReading (s : State) : Bool := match s.qp restQpn with
  | some q => !q.reqs.isEmpty
  | none => false

/-- Suspend a training job: at once with an owner reset, or at a boundary. -/
def State.suspendJob (s : State) (o : Op) (immediate : Bool) (at_ : Nat) : Option State :=
  if o.state ≠ .running ∧ o.state ≠ .suspending then none
  else if immediate then some (State.opMove ({ s with run.suspendAt := none }).ownerReset o.handle .suspended 6)
  else some (State.opMove { s with run.suspendAt := some at_ } o.handle .suspending 0)

/-- What a suspend does to an operation; none where its state does not allow it. -/
def State.suspendOp (s : State) (o : Op) (immediate : Bool) (at_ : Nat) : Option State :=
  if o.kind = .job then s.suspendJob o immediate at_
  else if o.state ≠ .running then none
  else
    let t := s.opMove o.handle .suspending o.status
    match o.kind with
    | .scrub => some t
    | .restore => some (if t.restReading then t else t.opMove o.handle .suspended o.status)
    | .snapshot => some (if t.snap.st ≠ .idle ∧ t.snap.handle = o.handle then t.snapSuspend else t)
    | _ => none

/-- An operation command: NO_HANDLE, BAD_STATE, or done. -/
def opCommand (handle : Nat) (run : State → Op → Option State) (s : State) : LeatAns :=
  match s.op (BitVec.ofNat 32 handle) with
  | none => answer s 8
  | some o => match run s o with
    | none => answer s 9
    | some t => answer t 0

def State.opSuspend (s : State) (h : LeatHdr) (payload : List Byte) : State :=
  s.request h 0x0030 payload true (payload.length == 16)
    (opCommand (fieldAt payload 0 4) fun t o => t.suspendOp o (bitOf (fieldAt payload 4 4) 0) (fieldAt payload 8 8))
/-- OP_SUSPEND (R335, R336, R337). -/
def execOpSuspend (h : LeatHdr) (payload : List Byte) (s : State) : Host.Outcome State Fault Refusal :=
  done (s.opSuspend h payload)

/-! ### OP_RESUME (R335-R337) -/

/-- A job suspended at the skip limit resumes with no skips counted (R337). -/
def State.clearSkips (s : State) (img : Image) : State :=
  let t : State := { s with run.skips := 0 }
  if img.hasRt then t.poke (img.rtState + 0x69) 0 else t
/-- Resume a suspended training job: a pre-empted one runs its prologues again. -/
def State.resumeJob (s : State) (img : Image) (o : Op) : State :=
  let t := if o.status = 6 then s.startContext img s.ctx.table else if o.status = 7 then s.clearSkips img else s
  t.moved.opMove o.handle .running 0

/-- A snapshot's stream goes on (R313). -/
def State.resumeSnap (s : State) (o : Op) : State :=
  let t := State.opMove { s with snap.st := s.snap.back, snap.back := .idle } o.handle .running 0
  (if t.snap.st = .opening then t.snapStart else t.snapPump).millsFound

/-- What a resume does; BUSY is given as a status. -/
def State.resumeOp (s : State) (o : Op) : Except Nat State :=
  if o.state = .suspending then
    (if o.kind = .job then .ok (State.opMove { s with run.suspendAt := none } o.handle .running 0) else .ok (s.opMove o.handle .running o.status))
  else if o.state = .suspended then
    match o.kind, s.image with
    | .job, some img =>
      if s.busyOp .image then .error 1
      else match s.claimPages (if o.status = 7 ∧ img.hasRt = true then s.protectedIn img.rtState 256 else []) with
        | none => .error 1
        | some t => .ok (t.resumeJob img o)
    | .job, none => .error 9
    | .restore, _ => let t := s.opMove o.handle .running o.status
                     .ok (if t.restReading then t else t.restRead)
    | .snapshot, _ => .ok (s.resumeSnap o)
    | _, _ => .ok (s.opMove o.handle .running o.status)
  else .error 9

def opResumeRun (payload : List Byte) (s : State) : LeatAns :=
  match s.op (BitVec.ofNat 32 (fieldAt payload 0 4)) with
  | none => answer s 8
  | some o => match s.resumeOp o with
    | .error e => answer s e
    | .ok t => answer t 0
def State.opResume (s : State) (h : LeatHdr) (payload : List Byte) : State :=
  s.request h 0x0031 payload true (payload.length == 4) (opResumeRun payload)
/-- OP_RESUME (R335, R336, R337). -/
def execOpResume (h : LeatHdr) (payload : List Byte) (s : State) : Host.Outcome State Fault Refusal :=
  done (s.opResume h payload)

/-! ### OP_CANCEL (R224, R313, R335) -/

/-- What a cancel does once the operation is CANCELLING; `from_` is the state it left. -/
def State.cancelOp (s : State) (o : Op) : Option State :=
  if o.state.terminal || decide (o.state = .cancelling) then none
  else
    let t := s.opMove o.handle .cancelling o.status
    match o.kind with
    | .job => some (t.ownerReset.endJob .cancelled 2)
    | .image => some (t.loadCancel o.handle)
    | .snapshot => some (t.snapCancel o.handle)
    | .restore => some (if o.state = .suspended ∨ t.restReading = false then t.restEnd 0x0B else t)
    | .scrub => some (if o.state = .suspended then t.opMove o.handle .cancelled 1 else t)
    | .selfTest => some t

def State.opCancel (s : State) (h : LeatHdr) (payload : List Byte) : State :=
  s.request h 0x0032 payload true (payload.length == 4) (opCommand (fieldAt payload 0 4) State.cancelOp)
/-- OP_CANCEL (R224, R335). -/
def execOpCancel (h : LeatHdr) (payload : List Byte) (s : State) : Host.Outcome State Fault Refusal :=
  done (s.opCancel h payload)

/-! ### OP_QUERY (R334) -/

def opQueryRun (payload : List Byte) (s : State) : LeatAns :=
  match s.op (BitVec.ofNat 32 (fieldAt payload 0 4)) with
  | none => answer s 8
  | some o => .mk3 s 0 (opRecord o)
def State.opQuery (s : State) (h : LeatHdr) (payload : List Byte) : State :=
  s.request h 0x0033 payload false (payload.length == 4) (opQueryRun payload)
/-- OP_QUERY (R334). -/
def execOpQuery (h : LeatHdr) (payload : List Byte) (s : State) : Host.Outcome State Fault Refusal :=
  done (s.opQuery h payload)

/-! ### DIGEST_CHECK (R266, R339) -/

def digestCheckRun (s : State) : LeatAns :=
  if s.run.job = 0 then answer s 9
  else if s.run.inStep then answer { s with wheel.suspected := true } 0
  else answer { s with wheel.suspectNext := true } 0
def State.digestCheck (s : State) (h : LeatHdr) (payload : List Byte) : State :=
  s.request h 0x0041 payload true payload.isEmpty digestCheckRun
/-- DIGEST_CHECK (R266, R339). -/
def execDigestCheck (h : LeatHdr) (payload : List Byte) (s : State) : Host.Outcome State Fault Refusal :=
  done (s.digestCheck h payload)

/-! ### TAKEOVER (R264, R298, R316, R339) -/

/-- One of the two forms of R339. -/
def State.takeoverOk (s : State) (f sp : Nat) : Bool :=
  let x := s.fport f
  decide (s.run.job ≠ 0) && s.wheel.stalled && decide (f < 12) && decide (sp < 12) && decide (1 ≤ s.role f) && decide (s.role f ≤ 6) &&
    (if f = sp then decide (x.st = .active) && decide (x.peerSerial = some x.nowSerial)
     else decide (x.st = .down) && decide (s.role sp = 7) && decide ((s.fport sp).st = .active))

/-- The Wheel begins the step again from bucket 0 and exchange 0: what it received is discarded, its Weir entries and its counts
stand (R264). A Wheel that waits at COMMIT_WEIR, which has not closed, leaves it: it enters again once every bucket and
exchange is done (R254, R298). -/
def State.restartWheel (s : State) (img : Image) : State :=
  let s := if s.wheel.atCommit then s.wheelLeave img img.rtCommitWeir else s
  let w := s.wheel
  let t : State := { s.count (cWheel 3) with wheel := { w with
    nextLaunch := 0, nextGather := 0, atCommit := false
    buckets := w.buckets.map fun p => (p.1, { Bucket.init with passed := p.2.passed, count := p.2.count })
    exchanges := w.exchanges.map fun p => (p.1, { Exchange.init with passed := p.2.passed })
    heldFrames := w.heldFrames.filter fun x => x.2.kind == 7 || x.2.kind == 9 } }
  t.enterSend img 0

/-- Send every commit record that is held, with the group maximum of the reports. -/
def State.resendRecords (s : State) (img : Image) : State :=
  s.wheel.records.foldl (fun t r => match r.2 with
    | some w => t.sendRecord img r.1 w s.wheel.exps
    | none => t) s

/-- Roles change over, STALLED clears, and the step, the commit exchange, or an exchange already decided goes on (R298). -/
def State.readmit (s : State) (img : Image) (f sp : Nat) : State :=
  let roles := if f = sp then s.wheel.roles else setAt (setAt s.wheel.roles sp (s.role f)) f 0
  let t : State := { s with wheel.stalled := false, wheel.roles := roles }
  (if t.run.inStep ∧ t.wheel.exchanging = false then t.restartWheel img else t.resendRecords img).wheelDrain

def takeoverRun (payload : List Byte) (s : State) : LeatAns :=
  let f := fieldAt payload 0 1
  let sp := fieldAt payload 1 1
  match s.image with
  | some img => if s.takeoverOk f sp then answer (s.readmit img f sp) 0 else answer s 9
  | none => answer s 9
def State.takeover (s : State) (h : LeatHdr) (payload : List Byte) : State :=
  s.request h 0x0042 payload true (payload.length == 4) (takeoverRun payload)
/-- TAKEOVER (R316, R339). -/
def execTakeover (h : LeatHdr) (payload : List Byte) (s : State) : Host.Outcome State Fault Refusal :=
  done (s.takeover h payload)

end Sys2Proof.Machine
end

