-- ==== Sys2Proof/Machine/Roce.lean ====
section
/-! DEFINITION. The RoCEv2 requester: what comes in on a queue pair, timeouts and congestion (R281, R341). -/
namespace Sys2Proof.Machine

/-- Packets received on the port of a queue pair. -/
def State.rxOn (s : State) (q : Qp) (n : Nat) : State := s.countN (cEth q.desc.port.val 0) n
/-- A packet that answers nothing is discarded and counted. -/
def State.unexpectedOn (s : State) (q : Qp) : State := (s.rxOn q 1).count (cEth q.desc.port.val 7)

/-- A queue pair whose port's link is up, so that packets reach it. -/
def State.qpLive (s : State) (n : Nat) : Option Qp :=
  (s.qp n).filter fun q => (NMap.get Eth.init s.eth q.desc.port.val).linkUp

/-- Give the data of a READ to what asked for it. -/
def State.deliver (s : State) (r : Req) (data : List Byte) : State := match r.owner with
  | .data => s.dataArrive data
  | .restTable => s.tableIn data
  | .restPage _ => s.pageIn data
  | _ => s

def State.readResponse (s : State) (n : Nat) (psn : BitVec 24) (data : List Byte) : State := match s.qpLive n with
  | none => s
  | some q => match q.find psn with
    | some r =>
      if r.read && decide (data.length = r.len) then
        State.deliver ((s.rxOn q (packets q.desc.mtu r.len)).setQp n (some (q.drop r.psn))) r data
      else s.unexpectedOn q
    | none => s.unexpectedOn q
/-- ROCE_READ_RESPONSE (R341). -/
def execRoceReadResponse (qpn : Nat) (psn : BitVec 24) (data : List Byte) (s : State) : Host.Outcome State Fault Refusal :=
  done (s.readResponse qpn psn data)

/-- An acknowledgement of `psn` completes a SEND whose last packet is not after it. -/
def Qp.acks (q : Qp) (psn : BitVec 24) (r : Req) : Bool :=
  !r.read && decide ((psn - (r.psn + BitVec.ofNat 24 (packets q.desc.mtu r.len - 1))).toNat < 2 ^ 23)

def State.roceAck (s : State) (n : Nat) (psn : BitVec 24) : State := match s.qpLive n with
  | none => s
  | some q =>
    if q.reqs.any (q.acks psn) then
      (s.rxOn q 1).setQp n (some { q with reqs := q.reqs.filter fun r => !q.acks psn r })
    else s.unexpectedOn q
/-- ROCE_ACK (R341). -/
def execRoceAck (qpn : Nat) (psn : BitVec 24) (s : State) : Host.Outcome State Fault Refusal := done (s.roceAck qpn psn)

/-- A list of requests is sent again now. -/
def State.resendNow (s : State) (n : Nat) (q : Qp) (rs : List Req) : State :=
  let ps := rs.map (·.psn)
  let q' := { q with reqs := q.reqs.map fun r => if ps.contains r.psn then { r with sentAt := s.time.ns, rnrAt := none } else r }
  (s.setQp n (some q')).roceResend n q' rs

def State.seqNak (s : State) (n : Nat) (psn : BitVec 24) : State := match s.qpLive n with
  | none => s
  | some q => match q.find psn with
    | none => s.unexpectedOn q
    | some r => (s.rxOn q 1).resendNow n q (q.reqs.dropWhile fun x => x.psn ≠ r.psn)
/-- ROCE_SEQ_NAK (R341): a resend from the PSN it names, counted against no limit. -/
def execRoceSeqNak (qpn : Nat) (psn : BitVec 24) (s : State) : Host.Outcome State Fault Refusal := done (s.seqNak qpn psn)

def State.rnrNak (s : State) (n : Nat) (psn : BitVec 24) : State := match s.qpLive n with
  | none => s
  | some q => match q.find psn with
    | none => s.unexpectedOn q
    | some r => (s.rxOn q 1).setQp n (some (q.update r.psn fun x => { x with rnrAt := some s.time.ns }))
/-- ROCE_RNR_NAK (R341). -/
def execRoceRnrNak (qpn : Nat) (psn : BitVec 24) (s : State) : Host.Outcome State Fault Refusal := done (s.rnrNak qpn psn)

/-- The 1 ms after an RNR NAK has passed. -/
def State.rnrDue (s : State) (r : Req) : Bool := match r.rnrAt with
  | some t => decide (t + 1000000 ≤ s.time.ns)
  | none => false
def State.rnrResend (s : State) (n : Nat) : State := match s.qp n with
  | none => s
  | some q => match q.reqs.find? s.rnrDue with
    | none => s
    | some r => s.resendNow n q [r]
/-- RNR_RESEND (R341). -/
def execRnrResend (qpn : Nat) (s : State) : Host.Outcome State Fault Refusal := done (s.rnrResend qpn)

/-- The resend of a request that has timed out: it counts in ROCE_RETRY and against its limit of four. -/
def State.retrySend (s : State) (n : Nat) (q : Qp) (r : Req) : State :=
  let q' := q.update r.psn fun x => { x with sentAt := s.time.ns, retries := x.retries + 1 }
  ((s.setQp n (some q')).count (cEth q.desc.port.val 6)).roceSend n q' r

/-- A request has been unacknowledged for 10 ms. -/
def State.timedOut (s : State) (n : Nat) (q : Qp) (r : Req) : State := match r.owner with
  | .data =>
    let limit := match s.image with
      | some img => img.rtRetryLimit
      | none => 0
    (if s.run.data.retries < limit then s.count (cEth q.desc.port.val 6) else s).dataRetry n q r
  | .restTable => if r.retries < 4 then s.retrySend n q r else s.restEnd 0x0A
  | .restPage _ => if r.retries < 4 then s.retrySend n q r else s.restEnd 0x0A
  | _ => if r.retries < 4 then s.retrySend n q r else (s.snapFail false).wheelDrain

def State.roceTimeout (s : State) (n : Nat) (psn : BitVec 24) : State := match s.qp n with
  | none => s
  | some q => match q.find psn with
    | none => s
    | some r => if r.rnrAt.isNone && decide (r.sentAt + 10000000 ≤ s.time.ns) then s.timedOut n q r else s
/-- ROCE_TIMEOUT (R281, R313, R314, R341). -/
def execRoceTimeout (qpn : Nat) (psn : BitVec 24) (s : State) : Host.Outcome State Fault Refusal :=
  done (s.roceTimeout qpn psn)

/-- The READ of the data service with a PSN: its queue pair, and itself. -/
def State.dataReq (s : State) (psn : BitVec 24) : Option (Nat × Qp × Req) :=
  (s.qps.filterMap fun p => match p.2 with
    | none => none
    | some q => match q.find psn with
      | some r => if r.owner = .data then some (p.1, q, r) else none
      | none => none).head?
def State.dataFetchRetry (s : State) (psn : BitVec 24) : State := match s.dataReq psn with
  | none => s
  | some (n, q, r) => s.dataRetry n q r
/-- DATA_FETCH_RETRY (R281): a READ of the data service has failed. -/
def execDataFetchRetry (psn : BitVec 24) (s : State) : Host.Outcome State Fault Refusal := done (s.dataFetchRetry psn)

def State.roceUnexpected (s : State) (p : Fin 2) (n : Nat) (psn : BitVec 24) : State :=
  let answers := match s.qp n with
    | some q => (q.find psn).isSome
    | none => false
  if answers || !s.up || !(NMap.get Eth.init s.eth p.val).linkUp then s else (s.rx p).count (cEth p.val 7)
/-- ROCE_UNEXPECTED (R341). -/
def execRoceUnexpected (p : Fin 2) (qpn : Nat) (psn : BitVec 24) (s : State) : Host.Outcome State Fault Refusal :=
  done (s.roceUnexpected p qpn psn)

def State.cnp (s : State) (n : Nat) : State := match s.qpLive n with
  | none => s
  | some q =>
    ((s.rxOn q 1).count (cEth q.desc.port.val 8)).setQp n (some { q with rate := max (q.rate / 2) 1000000000, lastCnp := s.time.ns })
/-- CNP (R341). -/
def execCnp (qpn : Nat) (s : State) : Host.Outcome State Fault Refusal := done (s.cnp qpn)

def State.rateRecovery (s : State) (n : Nat) : State := match s.qp n with
  | none => s
  | some q =>
    let line := lineRate (NMap.get Eth.init s.eth q.desc.port.val).mode
    if q.lastCnp + 100000 ≤ s.time.ns then
      s.setQp n (some { q with rate := min (q.rate + 5000000000) line, lastCnp := s.time.ns })
    else s
/-- ROCE_RATE_RECOVERY (R341). -/
def execRoceRateRecovery (qpn : Nat) (s : State) : Host.Outcome State Fault Refusal := done (s.rateRecovery qpn)

end Sys2Proof.Machine
end

