-- ==== Sys2Proof/Machine/Scalar.lean ====
section
/-! DEFINITION. Scalar kernels: RV64IMC with FP32 instructions and narrow-view loads and stores (R47, R81, R204; log 20). The instruction encodings are those of RISC-V, which R204 names; for the FP32 instructions those of its F extension are PRESUMED. -/
namespace Sys2Proof.Machine

/-! ### The core -/

/-- Registers x1 to x31, the FP32 registers f0 to f31, and the pc, a byte offset in the kernel area. -/
structure Core64 where
  regs : NMap Nat
  fregs : NMap Nat
  pc : Nat
deriving DecidableEq, Repr

/-- x0 reads as zero. -/
def Core64.reg (c : Core64) (r : Nat) : Word64 := BitVec.ofNat 64 (if r = 0 then 0 else NMap.get 0 c.regs r)
/-- Write a register and go on to `pc`. -/
def Core64.put (c : Core64) (r : Nat) (v : Word64) (pc : Nat) : Core64 :=
  { c with regs := if r = 0 then c.regs else NMap.set 0 c.regs r v.toNat, pc := pc }
/-- An FP32 register. -/
def Core64.freg (c : Core64) (r : Nat) : Nat := NMap.get 0 c.fregs r
/-- Write an FP32 register and go on to `pc`. -/
def Core64.fput (c : Core64) (r v pc : Nat) : Core64 := { c with fregs := NMap.set 0 c.fregs r v, pc := pc }
def Core64.jump (c : Core64) (pc : Nat) : Core64 := { c with pc := pc }

/-- Where a kernel returns to: the return address it is entered with (log 20). -/
def kernelExit : Nat := 2 ^ 64 - 2

/-- A number of `n` bits, sign-extended to 64. -/
def sx (n v : Nat) : Word64 := (BitVec.ofNat n v).signExtend 64
/-- The low word of a result, sign-extended. -/
def sxw (v : Word64) : Word64 := (v.setWidth 32).signExtend 64

/-! ### Compressed instructions, expanded to 32-bit words -/

def encI (op f3 rd rs1 imm : Nat) : Nat := op + rd * 2 ^ 7 + f3 * 2 ^ 12 + rs1 * 2 ^ 15 + imm % 2 ^ 12 * 2 ^ 20
def encR (op f3 f7 rd rs1 rs2 : Nat) : Nat := op + rd * 2 ^ 7 + f3 * 2 ^ 12 + rs1 * 2 ^ 15 + rs2 * 2 ^ 20 + f7 * 2 ^ 25
def encS (f3 rs1 rs2 imm : Nat) : Nat :=
  0x23 + imm % 32 * 2 ^ 7 + f3 * 2 ^ 12 + rs1 * 2 ^ 15 + rs2 * 2 ^ 20 + imm / 32 % 128 * 2 ^ 25
def encB (f3 rs1 rs2 imm : Nat) : Nat :=
  0x63 + bitsOf imm 11 11 * 2 ^ 7 + bitsOf imm 4 1 * 2 ^ 8 + f3 * 2 ^ 12 + rs1 * 2 ^ 15 + rs2 * 2 ^ 20 +
    bitsOf imm 10 5 * 2 ^ 25 + bitsOf imm 12 12 * 2 ^ 31
def encJ (rd imm : Nat) : Nat :=
  0x6F + rd * 2 ^ 7 + bitsOf imm 19 12 * 2 ^ 12 + bitsOf imm 11 11 * 2 ^ 20 + bitsOf imm 10 1 * 2 ^ 21 + bitsOf imm 20 20 * 2 ^ 31
def encU (op rd imm : Nat) : Nat := op + rd * 2 ^ 7 + imm % 2 ^ 20 * 2 ^ 12
/-- An immediate of `n` bits, sign-extended to 24. -/
def sx24 (n v : Nat) : Nat := if bitOf v (n - 1) then v % 2 ^ n + 2 ^ 24 - 2 ^ n else v % 2 ^ n

/-- Quadrant 0. -/
def expand0 (h : Nat) : Nat :=
  let rd := 8 + bitsOf h 4 2
  let rs := 8 + bitsOf h 9 7
  let w := bitsOf h 5 5 * 64 + bitsOf h 12 10 * 8 + bitsOf h 6 6 * 4
  let d := bitsOf h 6 5 * 64 + bitsOf h 12 10 * 8
  match bitsOf h 15 13 with
  | 0 => encI 0x13 0 rd 2 (bitsOf h 10 7 * 64 + bitsOf h 12 11 * 16 + bitsOf h 5 5 * 8 + bitsOf h 6 6 * 4)
  | 2 => encI 0x03 2 rd rs w
  | 3 => encI 0x03 3 rd rs d
  | 6 => encS 2 rs rd w
  | 7 => encS 3 rs rd d
  | _ => h
/-- Quadrant 1. -/
def expand1 (h : Nat) : Nat :=
  let rd := bitsOf h 11 7
  let rp := 8 + bitsOf h 9 7
  let r2 := 8 + bitsOf h 4 2
  let imm6 := sx24 6 (bitsOf h 12 12 * 32 + bitsOf h 6 2)
  let jimm := sx24 12 (bitsOf h 12 12 * 2048 + bitsOf h 8 8 * 1024 + bitsOf h 10 9 * 256 + bitsOf h 6 6 * 128 +
    bitsOf h 7 7 * 64 + bitsOf h 2 2 * 32 + bitsOf h 11 11 * 16 + bitsOf h 5 3 * 2)
  let bimm := sx24 9 (bitsOf h 12 12 * 256 + bitsOf h 6 5 * 64 + bitsOf h 2 2 * 32 + bitsOf h 11 10 * 8 + bitsOf h 4 3 * 2)
  match bitsOf h 15 13 with
  | 0 => encI 0x13 0 rd rd imm6
  | 1 => encI 0x1B 0 rd rd imm6
  | 2 => encI 0x13 0 rd 0 imm6
  | 3 => if rd = 2 then encI 0x13 0 2 2 (sx24 10 (bitsOf h 12 12 * 512 + bitsOf h 4 3 * 128 + bitsOf h 5 5 * 64 +
      bitsOf h 2 2 * 32 + bitsOf h 6 6 * 16)) else encU 0x37 rd imm6
  | 4 => match bitsOf h 11 10 with
    | 0 => encI 0x13 5 rp rp (imm6 % 64)
    | 1 => encI 0x13 5 rp rp (imm6 % 64 + 1024)
    | 2 => encI 0x13 7 rp rp imm6
    | _ => match bitsOf h 12 12 * 4 + bitsOf h 6 5 with
      | 0 => encR 0x33 0 0x20 rp rp r2
      | 1 => encR 0x33 4 0 rp rp r2
      | 2 => encR 0x33 6 0 rp rp r2
      | 3 => encR 0x33 7 0 rp rp r2
      | 4 => encR 0x3B 0 0x20 rp rp r2
      | 5 => encR 0x3B 0 0 rp rp r2
      | _ => h
  | 5 => encJ 0 jimm
  | 6 => encB 0 rp 0 bimm
  | _ => encB 1 rp 0 bimm
/-- Quadrant 2. -/
def expand2 (h : Nat) : Nat :=
  let rd := bitsOf h 11 7
  let r2 := bitsOf h 6 2
  match bitsOf h 15 13 with
  | 0 => encI 0x13 1 rd rd (bitsOf h 12 12 * 32 + r2)
  | 2 => encI 0x03 2 rd 2 (bitsOf h 3 2 * 64 + bitsOf h 12 12 * 32 + bitsOf h 6 4 * 4)
  | 3 => encI 0x03 3 rd 2 (bitsOf h 4 2 * 64 + bitsOf h 12 12 * 32 + bitsOf h 6 5 * 8)
  | 4 =>
    if bitOf h 12 then
      (if r2 = 0 then (if rd = 0 then 0x00100073 else encI 0x67 0 1 rd 0) else encR 0x33 0 0 rd rd r2)
    else if r2 = 0 then encI 0x67 0 0 rd 0 else encR 0x33 0 0 rd 0 r2
  | 6 => encS 2 2 r2 (bitsOf h 8 7 * 64 + bitsOf h 12 9 * 4)
  | 7 => encS 3 2 r2 (bitsOf h 9 7 * 64 + bitsOf h 12 10 * 8)
  | _ => h
/-- The 32-bit word of a compressed instruction; a word with no expansion stays as it is. -/
def expandC (h : Nat) : Nat := if h % 4 = 0 then expand0 h else if h % 4 = 1 then expand1 h else expand2 h

/-! ### Arithmetic -/

/-- OP and OP-IMM on 64-bit values; `alt` selects SUB and SRA. -/
def aluOp (f3 : Nat) (alt : Bool) (a b : Word64) : Word64 :=
  match f3 with
  | 0 => if alt then a - b else a + b
  | 1 => a <<< (b.toNat % 64)
  | 2 => if a.slt b then 1 else 0
  | 3 => if a.ult b then 1 else 0
  | 4 => a ^^^ b
  | 5 => if alt then a.sshiftRight (b.toNat % 64) else a >>> (b.toNat % 64)
  | 6 => a ||| b
  | _ => a &&& b
/-- The 32-bit forms. -/
def aluOpW (f3 : Nat) (alt : Bool) (a b : Word64) : Word64 :=
  let x := a.setWidth 32
  match f3 with
  | 0 => sxw (if alt then a - b else a + b)
  | 1 => (x <<< (b.toNat % 32)).signExtend 64
  | _ => (if alt then x.sshiftRight (b.toNat % 32) else x >>> (b.toNat % 32)).signExtend 64
/-- The M extension at a width: division by zero gives all ones, and its remainder the dividend. -/
def mulOp {n : Nat} (f3 : Nat) (a b : BitVec n) : BitVec n :=
  match f3 with
  | 0 => a * b
  | 1 => BitVec.ofInt n (a.toInt * b.toInt / 2 ^ n)
  | 2 => BitVec.ofInt n (a.toInt * (b.toNat : Int) / 2 ^ n)
  | 3 => BitVec.ofNat n (a.toNat * b.toNat / 2 ^ n)
  | 4 => if b = 0 then BitVec.allOnes n else a.sdiv b
  | 5 => if b = 0 then BitVec.allOnes n else a / b
  | 6 => if b = 0 then a else a.srem b
  | _ => if b = 0 then a else a % b

/-- A branch is taken. -/
def branchTaken (f3 : Nat) (a b : Word64) : Bool :=
  match f3 with
  | 0 => a == b
  | 1 => a != b
  | 4 => a.slt b
  | 5 => !a.slt b
  | 6 => a.ult b
  | 7 => !a.ult b
  | _ => false

/-! ### FP32 (R47, log 20) -/

/-- The integer nearest a value in a rounding mode of RISC-V: 1 towards zero, 2 down, 3 up, else nearest even. -/
def rmRound (rm : Nat) (neg : Bool) (num den : Nat) (e : Int) : Nat :=
  roundInt (if rm = 1 then .down else if rm = 2 then (if neg then .up else .down) else if rm = 3 then (if neg then .down else .up)
    else .rne) num den e
/-- A value as an integer between two bounds, its magnitude clamped to them; NaN gives the upper one. -/
def fpToInt (rm : Nat) (lo hi : Int) : FV → Int
  | .nan => hi
  | .inf neg => if neg then lo else hi
  | .fin neg num den e =>
    let n : Int := rmRound rm neg num den e
    max lo (min hi (if neg then -n else n))
/-- An integer as a value. -/
def FV.ofInt (i : Int) : FV := .fin (decide (i < 0)) i.natAbs 1 0

/-- The class mask of an FP32 code: −inf, −normal, −subnormal, −0, +0, +subnormal, +normal, +inf, signalling and quiet NaN. -/
def fpClass (x : Nat) : Nat :=
  let neg := bitOf x 31
  let ex := bitsOf x 30 23
  let man := x % 2 ^ 23
  let k := if ex = 255 then (if man = 0 then 0 else 8)
    else if ex = 0 then (if man = 0 then 3 else 2) else 1
  if k = 8 then (if bitOf x 22 then 512 else 256) else if neg then 2 ^ k else 2 ^ (7 - k)

/-- The smaller (or larger) of two codes: a NaN gives the other, and −0 is below +0. -/
def fpMin (big : Bool) (a b : Nat) : Nat :=
  if (dec32 a).isNan then (if (dec32 b).isNan then ffFP32.nanCode else b)
  else if (dec32 b).isNan then a
  else
    let less := (dec32 a).lt (dec32 b) || ((dec32 a).isZero && (dec32 b).isZero && bitOf a 31)
    if less != big then a else b
/-- Comparisons: 0 at most, 1 less, 2 equal. -/
def fpCmp (f3 a b : Nat) : Bool :=
  let x := dec32 a
  let y := dec32 b
  let eq := (x.isZero && y.isZero) || a == b
  !x.isNan && !y.isNan && (if f3 = 0 then eq || x.lt y else if f3 = 1 then x.lt y && !eq else eq)

/-- What an FP32 instruction gives: a value for an FP32 register or for an integer register, and its saturations. -/
inductive FpRes where
  | fp (v : Nat) (sat : Bool)
  | int (v : Word64)
  | other
deriving DecidableEq, Repr

/-- OP-FP of the single format: `f7` and `f3` select, `r2` is the register field that selects among conversions. -/
def fpOp (f7 f3 r2 a b : Nat) (x : Word64) : FpRes :=
  let conv := fun (i : Int) => let r := round32 (FV.ofInt i); FpRes.fp r.1 r.2
  match f7 with
  | 0x00 => let r := add32 a b; .fp r.1 r.2
  | 0x04 => let r := sub32 a b; .fp r.1 r.2
  | 0x08 => let r := mul32 a b; .fp r.1 r.2
  | 0x0C => let r := div32 a b; .fp r.1 r.2
  | 0x2C => let r := sqrt32 a; .fp r.1 r.2
  | 0x10 => .fp (a % 2 ^ 31 + 2 ^ 31 * b2n (if f3 = 0 then bitOf b 31 else if f3 = 1 then !bitOf b 31 else bitOf a 31 ^^ bitOf b 31)) false
  | 0x14 => .fp (fpMin (f3 == 1) a b) false
  | 0x50 => .int (BitVec.ofNat 64 (b2n (fpCmp f3 a b)))
  | 0x60 => .int (match r2 with
    | 0 => BitVec.ofInt 64 (fpToInt f3 (-2 ^ 31) (2 ^ 31 - 1) (dec32 a))
    | 1 => sx 32 (fpToInt f3 0 (2 ^ 32 - 1) (dec32 a)).toNat
    | 2 => BitVec.ofInt 64 (fpToInt f3 (-2 ^ 63) (2 ^ 63 - 1) (dec32 a))
    | _ => BitVec.ofInt 64 (fpToInt f3 0 (2 ^ 64 - 1) (dec32 a)))
  | 0x68 => match r2 with
    | 0 => conv (x.setWidth 32).toInt
    | 1 => conv (x.setWidth 32).toNat
    | 2 => conv x.toInt
    | _ => conv x.toNat
  | 0x70 => if f3 = 0 then .int (sx 32 a) else .int (BitVec.ofNat 64 (fpClass a))
  | 0x78 => .fp (x.toNat % 2 ^ 32) false
  | _ => .other

/-- ±(a × b) ± c with one rounding. -/
def fpFma (negProd negAdd : Bool) (a b c : Nat) : Nat × Bool :=
  let p := (dec32 a).mul (dec32 b)
  let q := dec32 c
  arith32 ((dec32 a).isFinite && (dec32 b).isFinite && q.isFinite)
    ((if negProd then p.negate else p).add (if negAdd then q.negate else q))

/-! ### One instruction -/

/-- What an instruction does; a wait is for a bank or for protected pages. -/
inductive KStep where
  | next (s : State) (c : Core64)
  | wait (pages : List PageWait)
  | stop (s : State)
deriving DecidableEq, Repr

/-- The data address of a kernel's access: an offset of the own Hopper, or a data address above it (log 20). -/
def kernelAddr (m a : Nat) : Nat := if a < 0x200000 then hopperBase m + a else a % 2 ^ 48

/-- Immediates of the 32-bit formats. -/
def immI (w : Nat) : Word64 := sx 12 (bitsOf w 31 20)
def immS (w : Nat) : Word64 := sx 12 (bitsOf w 31 25 * 32 + bitsOf w 11 7)
def immB (w : Nat) : Word64 := sx 13 (bitsOf w 31 31 * 4096 + bitsOf w 7 7 * 2048 + bitsOf w 30 25 * 32 + bitsOf w 11 8 * 2)
def immU (w : Nat) : Word64 := sx 32 (bitsOf w 31 12 * 4096)
def immJ (w : Nat) : Word64 :=
  sx 21 (bitsOf w 31 31 * 2 ^ 20 + bitsOf w 19 12 * 4096 + bitsOf w 20 20 * 2048 + bitsOf w 30 21 * 2)

/-- Read `n` bytes at an address: one narrow-view presentation. The spec gives a misaligned one no outcome; it is performed
across words (DESIGN CHOICE, log 20). -/
def State.kernelRead (s : State) (e : Issue) (n a : Nat) (k : State → Nat → KStep) : KStep :=
  match s.fetch e.img (e.agent false) none true ((List.range n).map fun i => kernelAddr e.m a + i) with
  | .go t => k t (t.fabNum e.img (e.agent false) (kernelAddr e.m a) n)
  | .wait ps _ => .wait ps
  | .stop t => .stop t
/-- A load of 1, 2, 4 or 8 bytes. -/
def State.kernelLoad (s : State) (e : Issue) (c : Core64) (f3 rd a nx : Nat) : KStep :=
  let n := 2 ^ (f3 % 4)
  s.kernelRead e n a fun t v => .next t (c.put rd (if f3 < 4 then sx (8 * n) v else BitVec.ofNat 64 v) nx)
/-- A store of `n` bytes. -/
def State.kernelStore (s : State) (e : Issue) (c : Core64) (n v a nx : Nat) : KStep :=
  match s.deposit e.img (e.agent false) none [⟨kernelAddr e.m a, 0, 8 * n, v⟩] with
  | .go t => .next t (c.jump nx)
  | .wait ps _ => .wait ps
  | .stop t => .stop t

/-- The tensor group in which a kernel's saturations count: that of its RUN's D0, or group 0 when it names none (log 20). -/
def Issue.kernelGroup (e : Issue) : Nat := if e.ins.dIdx 0 = 0xFFFF then 0 else (e.img.desc (e.ins.dIdx 0)).group
/-- A result into an FP32 register. -/
def State.kernelFp (s : State) (e : Issue) (c : Core64) (rd : Nat) (r : Nat × Bool) (nx : Nat) : KStep :=
  .next (if r.2 then s.count (cGroup e.kernelGroup 2) else s) (c.fput rd r.1 nx)
/-- An FP32 instruction, or a word of the device's extension that the F encodings do not cover. -/
def State.kernelFloat (s : State) (e : Issue) (c : Core64) (w nx : Nat) : KStep :=
  let rd := bitsOf w 11 7
  let a := c.reg (bitsOf w 19 15)
  let x := c.freg (bitsOf w 19 15)
  let y := c.freg (bitsOf w 24 20)
  let z := c.freg (bitsOf w 31 27)
  let free := KStep.next s (c.put rd (Config.kernelExt (BitVec.ofNat 32 w) a (c.reg (bitsOf w 24 20))) nx)
  if w % 128 = 0x53 then
    match fpOp (bitsOf w 31 25) (bitsOf w 14 12) (bitsOf w 24 20) x y a with
    | .fp v sat => s.kernelFp e c rd (v, sat) nx
    | .int v => .next s (c.put rd v nx)
    | .other => free
  else if bitsOf w 26 25 = 0 ∧ w % 128 ∈ [0x43, 0x47, 0x4B, 0x4F] then
    let neg := w % 128 == 0x4B || w % 128 == 0x4F
    s.kernelFp e c rd (fpFma neg (w % 128 == 0x47 || w % 128 == 0x4F) x y z) nx
  else free

/-- Execute one 32-bit word; `nx` is the pc after it. ECALL and EBREAK end the kernel (log 20). -/
def State.kernelExec (s : State) (e : Issue) (c : Core64) (w nx : Nat) : KStep :=
  let rd := bitsOf w 11 7
  let f3 := bitsOf w 14 12
  let a := c.reg (bitsOf w 19 15)
  let b := c.reg (bitsOf w 24 20)
  let f7 := bitsOf w 31 25
  let pc := BitVec.ofNat 64 c.pc
  match w % 128 with
  | 0x37 => .next s (c.put rd (immU w) nx)
  | 0x17 => .next s (c.put rd (pc + immU w) nx)
  | 0x6F => .next s (c.put rd (BitVec.ofNat 64 nx) (pc + immJ w).toNat)
  | 0x67 => .next s (c.put rd (BitVec.ofNat 64 nx) ((a + immI w).toNat / 2 * 2))
  | 0x63 => .next s (c.jump (if branchTaken f3 a b then (pc + immB w).toNat else nx))
  | 0x03 => s.kernelLoad e c f3 rd (a + immI w).toNat nx
  | 0x23 => s.kernelStore e c (2 ^ (f3 % 4)) b.toNat (a + immS w).toNat nx
  | 0x07 => s.kernelRead e 4 (a + immI w).toNat fun t v => .next t (c.fput rd v nx)
  | 0x27 => s.kernelStore e c 4 (c.freg (bitsOf w 24 20)) (a + immS w).toNat nx
  | 0x13 => .next s (c.put rd (aluOp f3 (f3 == 5 && bitOf w 30) a (immI w)) nx)
  | 0x1B => .next s (c.put rd (aluOpW f3 (f3 == 5 && bitOf w 30) a (immI w)) nx)
  | 0x33 => .next s (c.put rd (if f7 = 1 then mulOp f3 a b else aluOp f3 (bitOf w 30) a b) nx)
  | 0x3B => .next s (c.put rd (if f7 = 1 then (mulOp f3 (a.setWidth 32) (b.setWidth 32)).signExtend 64
      else aluOpW f3 (bitOf w 30) a b) nx)
  | 0x0F => .next s (c.jump nx)
  | 0x73 => .next s (c.jump kernelExit)
  | _ => s.kernelFloat e c w nx

/-- Fetch, expand and execute the instruction at the pc; beyond the kernel area the words are 0. -/
def State.kernelStep (s : State) (e : Issue) (c : Core64) : KStep :=
  let h := fieldAt e.rc.kernel c.pc 2
  if h % 4 = 3 then s.kernelExec e c (fieldAt e.rc.kernel c.pc 4) ((c.pc + 4) % 2 ^ 64)
  else s.kernelExec e c (expandC h) ((c.pc + 2) % 2 ^ 64)

/-- Run until the kernel returns, for at most `n` instructions; a kernel that has not returned by then still runs, and
the operation waits. -/
def State.kernelRun (s : State) (e : Issue) : Nat → Core64 → Out
  | 0, c => if c.pc = kernelExit then .go s else .wait [] 0
  | n + 1, c =>
    if c.pc = kernelExit then .go s
    else match s.kernelStep e c with
      | .next t d => t.kernelRun e n d
      | .wait ps => .wait ps 0
      | .stop t => .stop t

/-- The registers a kernel is entered with: its argument in x10, its return address in x1 (log 20). -/
def kernelEntry (off arg : Nat) : Core64 := ⟨NMap.set 0 (NMap.set 0 [] 1 kernelExit) 10 arg, [], off⟩

/-- RUN (R204): the operand is how many instructions the kernel may take in this command. -/
def execRun (mill : Fin 144) (steps : Nat) (s : State) : Host.Outcome State Fault Refusal :=
  match s.issue mill.val 4 0x60 with
  | some e => done (s.engine e false [0, 1, 2, 3] fun t => t.kernelRun e steps (kernelEntry (e.ins.op 31 0) (e.ins.op 63 32)))
  | none => done s

end Sys2Proof.Machine
end

