-- ==== Sys2Proof/Machine/Dispatch.lean ====
section
/-! DEFINITION. One arm per command: each calls its meaning. -/
namespace Sys2Proof.Machine

/-- The effect of a command on everything but the queue. -/
def exec (i : Instr) (s : State) : Host.Outcome State Fault Refusal :=
  match i with
  | .pwrEnRise => Sys2Proof.Machine.execPwrEnRise s
  | .pwrGoodAssert => Sys2Proof.Machine.execPwrGoodAssert s
  | .pwrEnFall => Sys2Proof.Machine.execPwrEnFall s
  | .inputRange mv => Sys2Proof.Machine.execInputRange mv s
  | .inputUndervoltTrip mv => Sys2Proof.Machine.execInputUndervoltTrip mv s
  | .inputRecovered => Sys2Proof.Machine.execInputRecovered s
  | .modResetNAssert lowNs => Sys2Proof.Machine.execModResetNAssert lowNs s
  | .modResetNRelease lowNs highNs => Sys2Proof.Machine.execModResetNRelease lowNs highNs s
  | .refclkStable => Sys2Proof.Machine.execRefclkStable s
  | .refclkStableTimeout => Sys2Proof.Machine.execRefclkStableTimeout s
  | .refclkLoss => Sys2Proof.Machine.execRefclkLoss s
  | .pllLock n => Sys2Proof.Machine.execPllLock n s
  | .pllUnlock n => Sys2Proof.Machine.execPllUnlock n s
  | .fuseLoad appendOk => Sys2Proof.Machine.execFuseLoad appendOk s
  | .lpddr5xTrainingDone fails => Sys2Proof.Machine.execLpddr5xTrainingDone fails s
  | .startupZeroingDone => Sys2Proof.Machine.execStartupZeroingDone s
  | .ethLinkUp p partner fec4 => Sys2Proof.Machine.execEthLinkUp p partner fec4 s
  | .ethLinkDown p => Sys2Proof.Machine.execEthLinkDown p s
  | .ethRenegotiate p => Sys2Proof.Machine.execEthRenegotiate p s
  | .arpRequest p srcMac srcIp target => Sys2Proof.Machine.execArpRequest p srcMac srcIp target s
  | .icmpEcho p kind src dst payload => Sys2Proof.Machine.execIcmpEcho p kind src dst payload s
  | .neighbourDiscovery p src m => Sys2Proof.Machine.execNeighbourDiscovery p src m s
  | .dhcpMessage p kind clientId yiaddr => Sys2Proof.Machine.execDhcpMessage p kind clientId yiaddr s
  | .pfcPause p prios quanta => Sys2Proof.Machine.execPfcPause p prios quanta s
  | .hello p payload => Sys2Proof.Machine.execHello p payload s
  | .leatSessionTimeout session => Sys2Proof.Machine.execLeatSessionTimeout session s
  | .ping h payload => Sys2Proof.Machine.execPing h payload s
  | .close h payload => Sys2Proof.Machine.execClose h payload s
  | .regRead h payload => Sys2Proof.Machine.execRegRead h payload s
  | .regWrite h payload => Sys2Proof.Machine.execRegWrite h payload s
  | .memRead h payload => Sys2Proof.Machine.execMemRead h payload s
  | .memWrite h payload => Sys2Proof.Machine.execMemWrite h payload s
  | .imageLoad h payload => Sys2Proof.Machine.execImageLoad h payload s
  | .imageInstall loadTest => Sys2Proof.Machine.execImageInstall loadTest s
  | .jobStart h payload => Sys2Proof.Machine.execJobStart h payload s
  | .snapshot h payload => Sys2Proof.Machine.execSnapshot h payload s
  | .restore h payload => Sys2Proof.Machine.execRestore h payload s
  | .scrub h payload => Sys2Proof.Machine.execScrub h payload s
  | .selfTest h payload => Sys2Proof.Machine.execSelfTest h payload s
  | .opSuspend h payload => Sys2Proof.Machine.execOpSuspend h payload s
  | .opResume h payload => Sys2Proof.Machine.execOpResume h payload s
  | .opCancel h payload => Sys2Proof.Machine.execOpCancel h payload s
  | .opQuery h payload => Sys2Proof.Machine.execOpQuery h payload s
  | .attest h payload => Sys2Proof.Machine.execAttest h payload s
  | .digestCheck h payload => Sys2Proof.Machine.execDigestCheck h payload s
  | .takeover h payload => Sys2Proof.Machine.execTakeover h payload s
  | .setNet h payload => Sys2Proof.Machine.execSetNet h payload s
  | .fwUpdate h payload => Sys2Proof.Machine.execFwUpdate h payload s
  | .fwUpdatePhaseDone ok => Sys2Proof.Machine.execFwUpdatePhaseDone ok s
  | .eventAck h => Sys2Proof.Machine.execEventAck h s
  | .eventResend seq => Sys2Proof.Machine.execEventResend seq s
  | .counterClear h v => Sys2Proof.Machine.execCounterClear h v s
  | .claim h guard => Sys2Proof.Machine.execClaim h guard s
  | .enrol h guard => Sys2Proof.Machine.execEnrol h guard s
  | .closeDebug h guard => Sys2Proof.Machine.execCloseDebug h guard s
  | .commitSvn h guard => Sys2Proof.Machine.execCommitSvn h guard s
  | .powerLevelRequest h v => Sys2Proof.Machine.execPowerLevelRequest h v s
  | .powerLevelDone => Sys2Proof.Machine.execPowerLevelDone s
  | .govCfgWrite h v => Sys2Proof.Machine.execGovCfgWrite h v s
  | .ethCfgWrite h p v => Sys2Proof.Machine.execEthCfgWrite h p v s
  | .flumeCfgWrite h p v => Sys2Proof.Machine.execFlumeCfgWrite h p v s
  | .clkCtrlWrite h n v => Sys2Proof.Machine.execClkCtrlWrite h n v s
  | .clockSourceSwitch h n src => Sys2Proof.Machine.execClockSourceSwitch h n src s
  | .timeLoRead h count => Sys2Proof.Machine.execTimeLoRead h count s
  | .ueLogClear h v => Sys2Proof.Machine.execUeLogClear h v s
  | .shapeLogClear h v => Sys2Proof.Machine.execShapeLogClear h v s
  | .deadlockLogClear h v => Sys2Proof.Machine.execDeadlockLogClear h v s
  | .weirFaultLogClear h v => Sys2Proof.Machine.execWeirFaultLogClear h v s
  | .wheelDigestLogClear h v => Sys2Proof.Machine.execWheelDigestLogClear h v s
  | .govAlertClear h v => Sys2Proof.Machine.execGovAlertClear h v s
  | .discover t => Sys2Proof.Machine.execDiscover t s
  | .counters t => Sys2Proof.Machine.execCounters t s
  | .macLoopback t => Sys2Proof.Machine.execMacLoopback t s
  | .prbsGen t => Sys2Proof.Machine.execPrbsGen t s
  | .prbsCheck t bits errors => Sys2Proof.Machine.execPrbsCheck t bits errors s
  | .eyeMargin t eyes => Sys2Proof.Machine.execEyeMargin t eyes s
  | .laneLoopback t => Sys2Proof.Machine.execLaneLoopback t s
  | .testDurationExpiry sel => Sys2Proof.Machine.execTestDurationExpiry sel s
  | .tailraceMemRead t => Sys2Proof.Machine.execTailraceMemRead t s
  | .tailraceMemWrite t payload => Sys2Proof.Machine.execTailraceMemWrite t payload s
  | .fwBegin t => Sys2Proof.Machine.execFwBegin t s
  | .fwData t payload => Sys2Proof.Machine.execFwData t payload s
  | .fwCommit t flashOk => Sys2Proof.Machine.execFwCommit t flashOk s
  | .smbusStatusRead pec => Sys2Proof.Machine.execSmbusStatusRead pec s
  | .smbusRomRead pec => Sys2Proof.Machine.execSmbusRomRead pec s
  | .smbusTelemetryRead pec => Sys2Proof.Machine.execSmbusTelemetryRead pec s
  | .smbusFruRead code pec => Sys2Proof.Machine.execSmbusFruRead code pec s
  | .smbusNack code dataWritten => Sys2Proof.Machine.execSmbusNack code dataWritten s
  | .smbusTimeout => Sys2Proof.Machine.execSmbusTimeout s
  | .telemetryRefresh => Sys2Proof.Machine.execTelemetryRefresh s
  | .tapReset => Sys2Proof.Machine.execTapReset s
  | .extest => Sys2Proof.Machine.execExtest s
  | .extestPulse => Sys2Proof.Machine.execExtestPulse s
  | .extestTrain => Sys2Proof.Machine.execExtestTrain s
  | .idcode => Sys2Proof.Machine.execIdcode s
  | .samplePreload pins preload => Sys2Proof.Machine.execSamplePreload pins preload s
  | .bypass code => Sys2Proof.Machine.execBypass code s
  | .millerDebug => Sys2Proof.Machine.execMillerDebug s
  | .fabricRead loc => Sys2Proof.Machine.execFabricRead loc s
  | .fabricHalt sid => Sys2Proof.Machine.execFabricHalt sid s
  | .thermalAlert sensor tempC => Sys2Proof.Machine.execThermalAlert sensor tempC s
  | .thermalTrip => Sys2Proof.Machine.execThermalTrip s
  | .thermalTripRelease => Sys2Proof.Machine.execThermalTripRelease s
  | .railFault dom within1s => Sys2Proof.Machine.execRailFault dom within1s s
  | .droop f => Sys2Proof.Machine.execDroop f s
  | .governorPeriod pMw windowW inputMv tj spineTj => Sys2Proof.Machine.execGovernorPeriod pMw windowW inputMv tj spineTj s
  | .lendStart f pMw railMw => Sys2Proof.Machine.execLendStart f pMw railMw s
  | .healthEvaluation => Sys2Proof.Machine.execHealthEvaluation s
  | .counterRefresh => Sys2Proof.Machine.execCounterRefresh s
  | .patrolScrubRead pkg => Sys2Proof.Machine.execPatrolScrubRead pkg s
  | .scrubLine => Sys2Proof.Machine.execScrubLine s
  | .selfTestMill pass => Sys2Proof.Machine.execSelfTestMill pass s
  | .deadlockDetect => Sys2Proof.Machine.execDeadlockDetect s
  | .flumeSignalDetect p lanes => Sys2Proof.Machine.execFlumeSignalDetect p lanes s
  | .flumeTrainDone p goodRx goodTx => Sys2Proof.Machine.execFlumeTrainDone p goodRx goodTx s
  | .cap p words => Sys2Proof.Machine.execCap p words s
  | .retrainTimeout p => Sys2Proof.Machine.execRetrainTimeout p s
  | .flumeRxIdle p => Sys2Proof.Machine.execFlumeRxIdle p s
  | .flumeDownTimeout p => Sys2Proof.Machine.execFlumeDownTimeout p s
  | .laneLockLoss p lanes => Sys2Proof.Machine.execLaneLockLoss p lanes s
  | .laneCeLimit p lane => Sys2Proof.Machine.execLaneCeLimit p lane s
  | .reqRepeat p => Sys2Proof.Machine.execReqRepeat p s
  | .lanePrbsPassed p lane => Sys2Proof.Machine.execLanePrbsPassed p lane s
  | .laneShadowMatch p lane seqAt => Sys2Proof.Machine.execLaneShadowMatch p lane seqAt s
  | .idle p words => Sys2Proof.Machine.execIdle p words s
  | .data p words => Sys2Proof.Machine.execData p words s
  | .mark p words => Sys2Proof.Machine.execMark p words s
  | .nak p words => Sys2Proof.Machine.execNak p words s
  | .spare p words => Sys2Proof.Machine.execSpare p words s
  | .narrow p words => Sys2Proof.Machine.execNarrow p words s
  | .admitLane p words => Sys2Proof.Machine.execAdmit p words s
  | .switched p words => Sys2Proof.Machine.execSwitched p words s
  | .ringChunk p f => Sys2Proof.Machine.execRingChunk p f s
  | .compressedContribution p f => Sys2Proof.Machine.execCompressedContribution p f s
  | .gatherChunk p f => Sys2Proof.Machine.execGatherChunk p f s
  | .dispatchRow p f => Sys2Proof.Machine.execDispatchRow p f s
  | .returnRow p f => Sys2Proof.Machine.execReturnRow p f s
  | .rowCount p f => Sys2Proof.Machine.execRowCount p f s
  | .windowWrite p f => Sys2Proof.Machine.execWindowWrite p f s
  | .controlFrame p f => Sys2Proof.Machine.execControlFrame p f s
  | .neighbourLoss p => Sys2Proof.Machine.execNeighbourLoss p s
  | .roceReadResponse qpn psn data => Sys2Proof.Machine.execRoceReadResponse qpn psn data s
  | .roceAck qpn psn => Sys2Proof.Machine.execRoceAck qpn psn s
  | .roceSeqNak qpn psn => Sys2Proof.Machine.execRoceSeqNak qpn psn s
  | .roceRnrNak qpn psn => Sys2Proof.Machine.execRoceRnrNak qpn psn s
  | .roceTimeout qpn psn => Sys2Proof.Machine.execRoceTimeout qpn psn s
  | .roceUnexpected p qpn psn => Sys2Proof.Machine.execRoceUnexpected p qpn psn s
  | .cnp qpn => Sys2Proof.Machine.execCnp qpn s
  | .roceRateRecovery qpn => Sys2Proof.Machine.execRoceRateRecovery qpn s
  | .dataFetchRetry psn => Sys2Proof.Machine.execDataFetchRetry psn s
  | .nop sid => Sys2Proof.Machine.execNop sid s
  | .loop sid => Sys2Proof.Machine.execLoop sid s
  | .stepEnd sid => Sys2Proof.Machine.execStepEnd sid s
  | .weir sid => Sys2Proof.Machine.execWeir sid s
  | .weirRelease sid => Sys2Proof.Machine.execWeirRelease sid s
  | .turnPass sid => Sys2Proof.Machine.execTurnPass sid s
  | .shapeSet sid => Sys2Proof.Machine.execShapeSet sid s
  | .pass mill sideB => Sys2Proof.Machine.execPass mill sideB s
  | .drain mill sideB => Sys2Proof.Machine.execDrain mill sideB s
  | .maskLoad mill sideB => Sys2Proof.Machine.execMaskLoad mill sideB s
  | .gather mill => Sys2Proof.Machine.execGather mill s
  | .scatterAdd mill => Sys2Proof.Machine.execScatterAdd mill s
  | .gatherAdd mill => Sys2Proof.Machine.execGatherAdd mill s
  | .merge mill => Sys2Proof.Machine.execMerge mill s
  | .mergeSum mill => Sys2Proof.Machine.execMergeSum mill s
  | .compressBmv mill => Sys2Proof.Machine.execCompressBmv mill s
  | .compressIxvPbm mill => Sys2Proof.Machine.execCompressIxvPbm mill s
  | .intersection mill => Sys2Proof.Machine.execIntersection mill s
  | .sparseFeed mill => Sys2Proof.Machine.execSparseFeed mill s
  | .structuredPack mill => Sys2Proof.Machine.execStructuredPack mill s
  | .predictorUnion mill => Sys2Proof.Machine.execPredictorUnion mill s
  | .auditCompare mill => Sys2Proof.Machine.execAuditCompare mill s
  | .rank mill => Sys2Proof.Machine.execRank mill s
  | .place mill => Sys2Proof.Machine.execPlace mill s
  | .dispatchPack mill => Sys2Proof.Machine.execDispatchPack mill s
  | .receiveCompact mill => Sys2Proof.Machine.execReceiveCompact mill s
  | .combine mill => Sys2Proof.Machine.execCombine mill s
  | .copy mill => Sys2Proof.Machine.execCopy mill s
  | .tcopy floor => Sys2Proof.Machine.execTcopy floor s
  | .run mill steps => Sys2Proof.Machine.execRun mill steps s
  | .bankOff mill bank => Sys2Proof.Machine.execBankOff mill bank s
  | .bankOn mill bank => Sys2Proof.Machine.execBankOn mill bank s
  | .bankWakeDone mill bank => Sys2Proof.Machine.execBankWakeDone mill bank s
  | .bankCloseDone mill bank => Sys2Proof.Machine.execBankCloseDone mill bank s
  | .compareAndSwap mill req off expected new => Sys2Proof.Machine.execCompareAndSwap mill req off expected new s
  | .countEqual mill req off width value => Sys2Proof.Machine.execCountEqual mill req off width value s
  | .portEntryExecute port pres => Sys2Proof.Machine.execPortEntryExecute port pres s
  | .raceUnblock sid => Sys2Proof.Machine.execRaceUnblock sid s
  | .stepMarker port holder => Sys2Proof.Machine.execStepMarker port holder s
  | .stepAdmit => Sys2Proof.Machine.execStepAdmit s
  | .bucketLaunch => Sys2Proof.Machine.execBucketLaunch s
  | .bucketFillRelease b => Sys2Proof.Machine.execBucketFillRelease b s
  | .bucketReduced b => Sys2Proof.Machine.execBucketReduced b s
  | .bucketGatherStart b => Sys2Proof.Machine.execBucketGatherStart b s
  | .exchangeSend a => Sys2Proof.Machine.execExchangeSend a s
  | .exchangeReceived a => Sys2Proof.Machine.execExchangeReceived a s
  | .wheelCommitEntry => Sys2Proof.Machine.execWheelCommitEntry s
  | .commitExchange => Sys2Proof.Machine.execCommitExchange s
  | .commitDecision => Sys2Proof.Machine.execCommitDecision s
  | .snapshotOpen => Sys2Proof.Machine.execSnapshotOpen s
  | .firstTouchCopy page => Sys2Proof.Machine.execFirstTouchCopy page s
  | .snapshotPageAcked => Sys2Proof.Machine.execSnapshotPageAcked s
  | .snapshotSeal => Sys2Proof.Machine.execSnapshotSeal s
  | .snapshotClose => Sys2Proof.Machine.execSnapshotClose s
  | .snapshotFail => Sys2Proof.Machine.execSnapshotFail s
  | .restorePage data => Sys2Proof.Machine.execRestorePage data s
  | .restoreDone => Sys2Proof.Machine.execRestoreDone s
  | .retrainDone p goodRx goodTx => Sys2Proof.Machine.execRetrainDone p goodRx goodTx s
  | .rnrResend qpn => Sys2Proof.Machine.execRnrResend qpn s

end Sys2Proof.Machine
end

