-- ==== Sys2Proof/WellFormed.lean ====
section
/-! DEFINITION. Which commands are well formed: the ranges that the operands' types do not already fix. The step runs a command whether or not it is well formed, and an operand outside its range makes the command's own condition false. -/
namespace Sys2Proof

/-- A stream that R203 lists: kinds 0 to 4 of 144 logical Mills, kind 5 of eight Floors. -/
def Sid.wf (s : Sid) : Bool :=
  (decide (s.kind < 5) && decide (s.owner < 144)) || (decide (s.kind = 5) && decide (s.owner < 8))

/-- The tag of a Leat datagram is 64 bytes (R326, R327). -/
def LeatHdr.wf (h : LeatHdr) : Bool := decide (h.tag.length = 64)

/-- A Leat payload is 0 to 1,344 bytes (R326). -/
def leatPayloadWf (payload : List Byte) : Bool := decide (payload.length ≤ 1344)

/-- A Tailrace payload is 0 to 1,024 bytes (R345). -/
def trPayloadWf (payload : List Byte) : Bool := decide (payload.length ≤ 1024)

/-- A flit is 64 words of the (72,64) code (R235). -/
def flitWf (words : List (BitVec 72)) : Bool := decide (words.length = 64)

/-- A presentation at a port names one of the lanes 0-3, the narrow slot 4 or the scale lanes 5 and 6. -/
def Pres.wf (p : Pres) : Bool := decide (p.lane ≤ 6)

/-- Well-formedness of a command. -/
def Instr.wf : Instr → Bool
  | .governorPeriod _ _ _ tj _ => decide (tj.length = 8)
  | .lendStart _ _ railMw => decide (railMw.length = 8)
  | .inputRange mv => decide (mv < 46000 ∨ 58000 < mv)
  | .inputUndervoltTrip mv => decide (mv < 44000 ∨ 60000 < mv)
  | .modResetNAssert lowNs => decide (20 ≤ lowNs)
  | .hello _ p => leatPayloadWf p
  | .ping h p => h.wf && leatPayloadWf p
  | .close h p => h.wf && leatPayloadWf p
  | .regRead h p => h.wf && leatPayloadWf p
  | .regWrite h p => h.wf && leatPayloadWf p
  | .memRead h p => h.wf && leatPayloadWf p
  | .memWrite h p => h.wf && leatPayloadWf p
  | .imageLoad h p => h.wf && leatPayloadWf p
  | .jobStart h p => h.wf && leatPayloadWf p
  | .snapshot h p => h.wf && leatPayloadWf p
  | .restore h p => h.wf && leatPayloadWf p
  | .scrub h p => h.wf && leatPayloadWf p
  | .selfTest h p => h.wf && leatPayloadWf p
  | .opSuspend h p => h.wf && leatPayloadWf p
  | .opResume h p => h.wf && leatPayloadWf p
  | .opCancel h p => h.wf && leatPayloadWf p
  | .opQuery h p => h.wf && leatPayloadWf p
  | .attest h p => h.wf && leatPayloadWf p
  | .digestCheck h p => h.wf && leatPayloadWf p
  | .takeover h p => h.wf && leatPayloadWf p
  | .setNet h p => h.wf && leatPayloadWf p
  | .fwUpdate h p => h.wf && leatPayloadWf p
  | .eventAck h => h.wf
  | .tailraceMemWrite _ p => trPayloadWf p
  | .fwData _ p => trPayloadWf p
  | .cap _ w => flitWf w
  | .idle _ w => flitWf w
  | .data _ w => flitWf w
  | .mark _ w => flitWf w
  | .nak _ w => flitWf w
  | .spare _ w => flitWf w
  | .narrow _ w => flitWf w
  | .admitLane _ w => flitWf w
  | .switched _ w => flitWf w
  | .nop sid => sid.wf
  | .loop sid => sid.wf
  | .stepEnd sid => sid.wf
  | .weir sid => sid.wf
  | .weirRelease sid => sid.wf
  | .turnPass sid => sid.wf
  | .shapeSet sid => sid.wf
  | .raceUnblock sid => sid.wf
  | .fabricHalt sid => sid.wf
  | .portEntryExecute _ ps => ps.all Pres.wf
  | _ => true

end Sys2Proof
end

