-- ==== Sys2Proof/Safety.lean ====
section
/-! DEFINITION. The terms in which the statements speak: canonical tables, what a power-on reset leaves, an admitted Leat request and its answer, a raised event. -/
namespace Sys2Proof.Machine

/-! ### Canonical form -/

/-- The data address space is in canonical form: addresses strictly rising, and no entry equal to what an unlisted
address reads as (log 1). -/
abbrev Memory.wf (m : NMap Byte) : Bool := NMap.wf 0 m

/-- Every store of the block is in canonical form: the data address space, its syndromes, the Kettles and the flash. -/
structure State.Canonical (s : State) : Prop where
  mem : Memory.wf s.mem = true
  syn : NMap.wf 0 s.syn = true
  kettle : NMap.wf 0 s.kettle = true
  flash : NMap.wf 0xFF s.nv.flash = true

/-! ### Reset -/

/-- `t` is `s` after a power-on reset: every field holds its reset value but those that R364, R373, R381, R405 and R406
keep; the pins and rails of `t` are named by the statement that uses this. -/
structure AfterReset (s t : State) : Prop where
  rest : t = { State.reset with
    pending := s.pending, fresh := s.fresh, out := s.out, nv := s.nv.interrupted s.sec.fw, tap := s.tap, smb := s.smb
    boot := { Boot.init with fruValid := s.boot.fruValid, fruBuf := s.boot.fruBuf }, clk := t.clk, pwr := t.pwr }
  clk : t.clk = { Clk.init with strap := t.clk.strap }
  pwr : t.pwr = { Pwr.init with
    pwrEn := t.pwr.pwrEn, auxOn := t.pwr.auxOn, inRange := t.pwr.inRange, pwrGood := t.pwr.pwrGood
    resetLow := t.pwr.resetLow, pdOn := t.pwr.pdOn, startStep := t.pwr.startStep, thermTrip := t.pwr.thermTrip
    railLock := t.pwr.railLock, tripped := t.pwr.tripped, railFaulted := t.pwr.railFaulted }

/-! ### Leat -/

/-- An event of a code and DETAIL is queued (R333). -/
def State.hasEvent (s : State) (code : Nat) (detail : List Nat) : Prop :=
  ∃ e, e ∈ s.leat.events ∧ e.code = code ∧ e.detail = padTo 16 0 (detail.flatMap (leBytes 4))

/-- A request that the gate of R326, R327 and R330 lets through: heard, of the right MAGIC and VERSION, of an open session
with a valid tag, and with a SEQ not yet executed and not too old. -/
structure Admitted (s : State) (h : LeatHdr) (ses : Session) (command : BitVec 16) (payload : List Byte) : Prop where
  hears : s.hears h.port = true
  magic : h.magic = 0x4C54
  version : h.version = 1
  session : s.session h.session = some ses
  tag : h.tag = hostTag ses.keyIn h 0x03 command payload
  fresh : ses.cache.find? (fun c => c.1 == h.seq.toNat) = none
  recent : ses.highSeq ≤ h.seq.toNat + 63

/-- An admitted REG_WRITE of one register from a session with control. -/
structure WriteAdmitted (s : State) (h : LeatHdr) (ses : Session) (a v : Nat) : Prop where
  admitted : Admitted s h ses 0x0011 (regPayload a 1 [v])
  control : ses.control = true

/-- An admitted REG_WRITE has left the block in state `X` and is answered OK with an empty payload; sessions close after the reply. -/
def State.wroteClosing (s : State) (h : LeatHdr) (ses : Session) (X : State) (closes : List Word32) : State :=
  (s.rx h.port).execute ses h 0x0011 ⟨X, 0, [], closes⟩
/-- The same, closing none. -/
abbrev State.wrote (s : State) (h : LeatHdr) (ses : Session) (X : State) : State := s.wroteClosing h ses X []

/-! ### Tailrace and the test port -/

/-- A frame that Tailrace takes: the module is up, the port's link is up, the version is 1, and Tailrace is open (R343). -/
structure TrHeard (s : State) (t : TrHdr) : Prop where
  up : s.up = true
  link : (s.port t.port.val).linkUp = true
  version : t.version = 1
  tailraceOpen : s.leat.tailraceOpen = true

/-- A lane test, a pair taken by EXTEST: only ports, tests, the test port, outputs, counters, events and the Wheel's view of
its neighbours may differ; memory, clocks, power, images, jobs and the rest of the module do not. -/
def ModuleOnly (s t : State) : Prop :=
  t = { s with
    tests := t.tests, tap := t.tap, eth := t.eth, flume := t.flume, wheel := t.wheel, health := t.health
    out := t.out, cnt := t.cnt, leat := t.leat }

/-- A timed test has started: it replaces an earlier one of its operation and selector, its port is out of service, and the
reply went out before it took effect (R347). -/
structure TestStarted (s X : State) (t : TrHdr) (op sel endAt : Nat) : Prop where
  tests : X.tests = dropTest s.tests op sel ++ [⟨BitVec.ofNat 8 op, BitVec.ofNat 16 sel, t.arg, endAt⟩]
  reply : .tailrace t.port t.srcMac (BitVec.ofNat 8 (op + 0x80)) t.tag 0 t.arg [] ∈ X.out
  ethernet : sel / 256 < 2 → (X.port (sel / 256)).linkUp = false
  flume : 0x10 ≤ sel / 256 → (X.fport (sel / 256 - 0x10)).held = true
  rest : ModuleOnly s X

/-- An EXTEST instruction holds the pairs: its code is loaded, no Flume port stays in service, and no Ethernet link is up
(R407). -/
structure PairsTaken (s t : State) (ir : Byte) : Prop where
  tap : t.tap = { s.tap with ir := ir, extest := true, millerDebug := false }
  flume : ∀ p, p < 12 → (t.fport p).st = .disabled ∨ (t.fport p).st = .down
  ethernet : ∀ p, p < 2 → (t.port p).linkUp = false
  rest : ModuleOnly s t

/-! ### Flume ports (R235, R242) -/

/-- A flit arrives on a port that is ACTIVE, and it has not failed (R235-R237). -/
structure FlitGood (s : State) (p : Fin 12) (words : List (BitVec 72)) (typ : Nat) : Prop where
  active : (s.fport p.val).st = .active
  ok : (flitIn words).ok = true
  typ : (flitIn words).typ = typ

/-- Only links, outputs, counters and the Wheel's view of them may differ. -/
def LinkOnly (s t : State) : Prop :=
  t = { s with flume := t.flume, out := t.out, cnt := t.cnt, wheel := { s.wheel with suspected := t.wheel.suspected } }

/-- A receive lane that carried logical lane `l` has gone to the spare, and REQ SPARE asks for it (R244). -/
structure LaneSpared (s t : State) (p : Fin 12) (lane l : Nat) : Prop where
  rest : LinkOnly s t
  active : (t.fport p.val).st = .active
  map : (t.fport p.val).rx.map = setAt (s.fport p.val).rx.map l (s.fport p.val).rx.spare
  spare : (t.fport p.val).rx.spare = 7
  retired : (t.fport p.val).rx.retired = BitVec.ofNat 5 (2 ^ lane)
  req : (t.fport p.val).req = some ⟨2, l, (s.fport p.val).rx.spare, (s.fport p.val).rxSeq⟩
  counted : t.source (cFlume p.val 4) = s.source (cFlume p.val 4) + 1
  others : ∀ k, k ≠ p.val → t.fport k = s.fport k
  asked : ∃ words, t.out = .flit p words :: s.out

/-- Nothing waits to be sent on a link. -/
structure LinkQuiet (s : State) (p : Fin 12) : Prop where
  data : (s.fport p.val).txBuf = [[], [], [], []]
  marks : (s.fport p.val).marks = []

/-- The port has entered DOWN: its link's traffic is gone, its lanes are idle, and the entry is counted once (R242). -/
structure WentDown (s t : State) (p : Fin 12) : Prop where
  port : t.fport p.val = { (s.fport p.val).cleared with st := .down, downAt := s.time.ns }
  others : ∀ k, k ≠ p.val → t.fport k = s.fport k
  counted : t.source (cFlume p.val 6) = s.source (cFlume p.val 6) + 1
  rest : t = { s with
    flume := t.flume, cnt := t.cnt, out := .lanes p false :: s.out
    health := { s.health with lastNeighbour := t.health.lastNeighbour } }
  neighbour : 1 ≤ s.role p.val → s.role p.val ≤ 6 → t.health.lastNeighbour = some s.time.ns

/-! ### Banks and ports (R84, R99, R100, R200) -/

/-- A bank has woken or closed: it stands as `y`, its words are zero with valid checks, and nothing outside it has changed. -/
structure BankZeroed (s t : State) (m b : Nat) (y : Bank) : Prop where
  rest : t = { s with mem := t.mem, syn := t.syn, banks := NMap.set Bank.init s.banks (16 * m + b) y }
  mem : ∀ a, NMap.get 0 t.mem a =
    if hopperBase m + b * 0x20000 ≤ a ∧ a < hopperBase m + b * 0x20000 + 0x20000 then 0 else NMap.get 0 s.mem a
  syn : ∀ w, NMap.get 0 t.syn w =
    if hopperBase m + b * 0x20000 ≤ 8 * w ∧ 8 * w < hopperBase m + b * 0x20000 + 0x20000 then 0 else NMap.get 0 s.syn w

/-- Port `n` runs its sequence in the active context of a device that has not failed. -/
structure PortRuns (s : State) (img : Image) (n : BitVec 16) (r : PortRec) : Prop where
  image : s.image = some img
  port : img.port n.toNat = some r
  active : s.ctx.active = true
  failed : s.run.failed = false
  running : (s.portPos n.toNat).running = true
  ended : (s.portPos n.toNat).ended = false

/-! ### Engine operations (R92, R93, R206) -/

/-- Nothing makes an access wait or stop: every stored word has a valid check, no link brings an error, no snapshot is open,
no bank is waking. -/
structure Quiet (s : State) : Prop where
  syn : s.syn = []
  kettleSyn : s.kettleSyn = []
  links : s.noc = []
  snap : s.snap.st = .idle
  banks : ∀ k, (NMap.get Bank.init s.banks k).st ≠ .waking

/-- Where an operation may store: elements and scales of views, bytes at offsets from a view's base, plain addresses. -/
structure Dests where
  views : List View
  bytes : List View
  plain : List Nat

/-- Address `a` is one of them, after the translation of R274. -/
def Dests.has (D : Dests) (s : State) (img : Image) (a : Nat) : Prop :=
  (∃ v ∈ D.views, ∃ i : Ix, (∃ b, b < ((v.elem (v.clamp i)).2.1 + v.w + 7) / 8 ∧ a = s.xlat img ((v.elem (v.clamp i)).1 + b)) ∨
    (v.blocked = true ∧ a = s.xlat img (v.scale i).1)) ∨
  (∃ v ∈ D.bytes, ∃ off, a = s.xlat img (v.byteAt off).1) ∨ ∃ x ∈ D.plain, a = s.xlat img x

/-- An engine operation done whole: its Races' slots are published and released, its stream stands at the next
instruction, every other stream and Race stands as it did, what it presents waits for its turns, and no byte outside its
destinations has changed. -/
structure EngineDone (s t : State) (e : Issue) (drain : Bool) (fields : List Nat) (D : Dests) : Prop where
  rest : t = { s with
    mem := t.mem, cnt := t.cnt, memctl := { s.memctl with cache := t.memctl.cache }, races := t.races, feeds := t.feeds
    streams := t.streams, shapes := t.shapes, shapeLog := t.shapeLog, tenters := t.tenters, carders := t.carders
    kettle := t.kettle, leat := t.leat, out := t.out, due := t.due, folds := t.folds
    ctx := if e.races drain fields = [] then s.ctx else { s.ctx with progress := s.time.ns, reported := false }
    run := { s.run with amax := t.run.amax, ordinals := t.run.ordinals, mbUe := t.run.mbUe, backward := t.run.backward } }
  stream : (t.stream e.k).pc = (s.stream e.k).next.pc ∧ (t.stream e.k).loops = (s.stream e.k).next.loops ∧
    (t.stream e.k).stat = .running
  others : ∀ k, k ≠ e.k → t.stream k = s.stream k
  races : ∀ u ∈ e.races drain fields, t.raceSt u.key =
    if u.prod then { s.raceSt u.key with tail := (s.raceSt u.key).tail + 1, prodHeld := false, progress := s.time.ns }
    else { s.raceSt u.key with head := (s.raceSt u.key).head + 1, consHeld := false, progress := s.time.ns }
  still : ∀ k, (∀ u ∈ e.races drain fields, u.key ≠ k) → t.raceSt k = s.raceSt k
  memory : ∀ a, ¬ D.has s e.img a → NMap.get 0 t.mem a = NMap.get 0 s.mem a

/-- The operation leaves the Kettles as they were, and of its stream changes the place alone. -/
structure PlainEngine (s t : State) (e : Issue) : Prop where
  kettle : t.kettle = s.kettle
  stream : t.stream e.k = (s.stream e.k).next

/-- The next instruction of a stream has the opcode, no Race that it names is blocked, and the ports at which it may present serve
presentations (R200). -/
structure Ready (s : State) (e : Issue) (owner kind opc : Nat) (drain : Bool) (fields : List Nat) : Prop where
  quiet : Quiet s
  issue : s.issue owner kind opc = some e
  free : ∀ u ∈ e.races drain fields, s.raceBlocked u = false
  flowing : s.stalledTurn e.img e.k = none
  served : ∀ ag w a n, ag.stream e.img = e.k → ∀ u ∈ e.img.accessTurns ag w a n, s.portServes e.img u.port = true

/-- An engine command with the stream it belongs to, its opcode, whether it drains, and the fields whose Races it uses. -/
structure EngineCmd where
  c : Instr
  owner : Nat
  kind : Nat
  opc : Nat
  drain : Bool
  fields : List Nat

/-- The engine commands of a Mill, a Stone side and a Floor (R204). -/
def engineCmds (m : Fin 144) (b : Bool) (f : Fin 8) (n : Nat) : List EngineCmd :=
  [⟨.pass m b, m.val, b2n b, 0x10, false, [0, 1, 2, 3]⟩, ⟨.drain m b, m.val, b2n b, 0x11, true, [0]⟩, ⟨.maskLoad m b, m.val, b2n b, 0x12, false, []⟩,
    ⟨.gather m, m.val, 2, 0x21, false, [0, 1, 2]⟩, ⟨.scatterAdd m, m.val, 2, 0x22, false, [0, 1, 2, 3]⟩,
    ⟨.gatherAdd m, m.val, 2, 0x23, false, [0, 1, 2, 3]⟩, ⟨.merge m, m.val, 2, 0x24, false, [0, 1, 2]⟩,
    ⟨.mergeSum m, m.val, 2, 0x25, false, [0, 1, 2]⟩, ⟨.compressBmv m, m.val, 2, 0x26, false, [0, 1]⟩,
    ⟨.compressIxvPbm m, m.val, 2, 0x27, false, [0, 1, 2]⟩, ⟨.intersection m, m.val, 2, 0x28, false, [0, 1, 2]⟩,
    ⟨.sparseFeed m, m.val, 2, 0x29, false, [0, 1, 2]⟩, ⟨.structuredPack m, m.val, 2, 0x2A, false, [0, 1, 2, 3]⟩,
    ⟨.predictorUnion m, m.val, 2, 0x2B, false, [0, 1, 2]⟩, ⟨.auditCompare m, m.val, 2, 0x2C, false, [0, 1]⟩,
    ⟨.rank m, m.val, 2, 0x30, false, [0, 1]⟩, ⟨.place m, m.val, 2, 0x31, false, [0, 1]⟩,
    ⟨.dispatchPack m, m.val, 2, 0x32, false, [0, 1, 2]⟩, ⟨.receiveCompact m, m.val, 2, 0x33, false, [0, 1]⟩,
    ⟨.combine m, m.val, 2, 0x34, false, [0, 1, 2, 3]⟩, ⟨.copy m, m.val, 3, 0x40, false, [0, 1]⟩,
    ⟨.run m n, m.val, 4, 0x60, false, [0, 1, 2, 3]⟩, ⟨.tcopy f, f.val, 5, 0x50, false, [0, 1]⟩]

/-- A descriptor in force as a row of `n` elements of `c` bytes in the data region, in no Race slot. -/
structure PlainRow (v : View) (n c : Nat) : Prop where
  slot : v.slot = none
  ext : v.ext = ⟨n, 1, 1, 1⟩
  some_ : 0 < n
  width : v.w = 8 * c
  bytes : 0 < c
  low : v.base + n * c ≤ 0xA800000000

/-! ### Frames of the Wheel (R239, R251) -/

/-- A frame of a KIND arrives at an ACTIVE port that carries the Wheel's traffic in a running job. -/
structure FrameIn (s : State) (p : Fin 12) (f : Frame) (kind : Byte) (img : Image) : Prop where
  active : (s.fport p.val).st = .active
  kind : f.kind = kind
  image : s.image = some img
  valid : s.wheel.valid = true
  role : 1 ≤ s.role p.val ∧ s.role p.val ≤ 6
  peer : (s.fport p.val).peerGm6 = false
  admitted : frameClass f.kind = 0 → s.wheel.active = true
  words : s.syn = []

/-- It is for this device, the Wheel is not stalled, and nothing is held. -/
structure FrameHere (s : State) (p : Fin 12) (f : Frame) (kind : Byte) (img : Image) : Prop where
  frame : FrameIn s p f kind img
  here : f.dest.toNat = s.wheel.device
  moving : s.wheel.stalled = false
  held : s.wheel.heldFrames = []

/-- The device's place in the ring of a bucket for a chunk of piece `j`: the stage of the port, the axis and the range. -/
structure RingPlace (s : State) (img : Image) (p b j stage : Nat) (st : RStage) (r : RRange) : Prop where
  at_ : s.portStage img p = some stage
  axis : (img.ringStages s.wheel.device)[stage]? = some st
  range : (stageRanges 0 (img.bucket b).n (img.ringStages s.wheel.device))[stage]? = some r
  bucket : b < img.bucketCount
  piece : j < st.q

/-- A routed row stands at its place in the receive buffer of exchange `a`, with its tag and its expert (R263). -/
structure RowLanded (s t : State) (f : Frame) (c : ExchCtx) (a row rows ex : Nat) : Prop where
  counted : (t.exchSt a).rows = (s.exchSt a).rows + 1
  body : ∀ i, i < f.body.length → NMap.get 0 t.mem (c.x.recv + c.stride * row + i) = f.body.getD i 0
  tag : ∀ i, i < 4 → NMap.get 0 t.mem (c.x.recv + c.stride * rows + 8 * row + i) = (leBytes 4 f.id.toNat).getD i 0
  expert : ∀ i, i < 4 → NMap.get 0 t.mem (c.x.recv + c.stride * rows + 8 * row + 4 + i) = (leBytes 4 ex).getD i 0

/-! ### The decision of a step (R291, R294) -/

/-- A running job stands between its commit Weir and its decision, with REFCLK present. -/
structure UnderDecision (s : State) (img : Image) : Prop where
  image : s.image = some img
  context : s.ctx.active = true
  job : s.run.job ≠ 0
  failed : s.run.failed = false
  step : s.run.inStep = true
  ended : s.streamsEnded img = true
  clock : s.clk.lost = false
  words : s.syn = []

/-- The step is over: the boundary is reached, and the Wheel rests. -/
structure StepEnded (s t : State) : Prop where
  step : t.run.inStep = false
  phase : t.run.phase = 0
  wheel : t.wheel.active = false
  exchange : t.wheel.exchanging = false
  records : t.wheel.records = s.wheel.records
  image : t.image = s.image

/-- L and the clean count after a step (R54): an OVERFLOW takes one from L, down to L_min, and clears the count; the 2,000th clean
step adds one, up to L_max. -/
def ScaleStep (s t : State) (img : Image) (ovf : Bool) : Prop :=
  if ovf = true then t.run.clean = 0 ∧ t.run.scale = (if s.run.scale ≤ img.lossScale.2.1 then s.run.scale
    else max (s.run.scale - 1) img.lossScale.2.1)
  else if s.run.clean + 1 = 2000 then t.run.clean = 0 ∧ t.run.scale = min (s.run.scale + 1) img.lossScale.2.2
  else t.run.clean = s.run.clean + 1 ∧ t.run.scale = s.run.scale

/-- The state block, the stream table and, in either parameter set (R274), the scale histories lie apart from each other, below
the metadata (R272). -/
structure AreasApart (img : Image) : Prop where
  block : img.rtState + 256 ≤ 0xA800000000
  streams : img.rtPhilox + 32 * img.rtStreams ≤ 0xA800000000
  apart : img.rtState + 256 ≤ img.rtPhilox ∨ img.rtPhilox + 32 * img.rtStreams ≤ img.rtState
  histories : ∀ h ∈ img.histories, ∀ set x, x ≤ 68 → img.translate set (h.2 + x) + 4 ≤ 0xA800000000 ∧
    (img.translate set (h.2 + x) + 4 ≤ img.rtState ∨ img.rtState + 256 ≤ img.translate set (h.2 + x)) ∧
    (img.translate set (h.2 + x) + 4 ≤ img.rtPhilox ∨ img.rtPhilox + 32 * img.rtStreams ≤ img.translate set (h.2 + x))

end Sys2Proof.Machine
end

