-- ==== Sys2Proof/Certificates/Slice0/Obligations.lean ====
section
/-! DEFINITION. The statements about the GM8 block, from the numbered rules of the spec. -/
open Sys2Proof Sys2Proof.Machine

/-! ### Power, reset and clocks (R370-R381) -/

/-- R372, R373, R381: the rails come up with PWR_EN, PWR_GOOD follows, and PWR_EN low or MOD_RESET_N low for 100 ns is a
power-on reset. Releasing the pin after a pulse outside the strap lengths starts the module normally.
R370: leaving 46 V to 58 V sets an alert, counts and raises INPUT_RANGE; below 44 V or above 60 V the rails drop; the
return of the input brings them up again, unless a thermal trip or rail faults hold them off, or with PWR_EN low lets the
auxiliary rail come back.
R382: an unpowered port's transmitters are undriven, and idle while MOD_RESET_N is low.
Where the rules leave a point open, what is stated is the model's choice: logs 2, 4, 10 and 56. -/
def Obligations.PowerSequence : Prop :=
  (∀ s : State, s.pwr.pwrEn = false → s.pwr.inRange = true → s.pwr.auxOn = true → s.pwr.thermTrip = false →
    exec .pwrEnRise s = .next { s with pwr := { s.pwr with
      pwrEn := true, railLock := false, railFaulted := false, tripped := false, pdOn := BitVec.allOnes 20, startStep := 2 } }) ∧
  (∀ s : State, s.pwr.pwrEn = true → s.pwr.pwrGood = false → s.pwr.startStep = 2 →
    exec .pwrGoodAssert s = .next { s with pwr := { s.pwr with pwrGood := true, startStep := 3 } }) ∧
  (∀ s : State, s.pwr.pwrEn = true → ∃ t, exec .pwrEnFall s = .next t ∧
    AfterReset { s with smb := { Smb.init with latched := s.smb.latched } } t ∧
    t.pwr.pwrEn = false ∧ t.pwr.pwrGood = false ∧ t.pwr.pdOn = 0 ∧ t.pwr.startStep = 0 ∧
    (∀ p : Fin 12, t.flumeDrive p.val = .undriven) ∧ ∀ p : Fin 2, t.ethDrive p.val = .undriven) ∧
  (∀ (s : State) (n : Nat), s.pwr.pwrGood = true → 100 ≤ n → ∃ t, exec (.modResetNAssert n) s = .next t ∧
    AfterReset { s with fresh := s.fresh + 1 } t ∧ t.pwr.resetLow = true ∧ t.pwr.startStep = 3 ∧ t.pwr.pdOn = s.pwr.pdOn ∧
    (∀ p : Fin 12, s.pwr.pdOn.getLsbD (2 + p.val / 4) = true → t.flumeDrive p.val = .idle) ∧
    ∀ p : Fin 2, s.pwr.pdOn.getLsbD 1 = true → t.ethDrive p.val = .idle) ∧
  (∀ (s : State) (n : Nat), n < 20 → exec (.modResetNAssert n) s = .next { s with fresh := s.fresh + 1 }) ∧
  (∀ (s : State) (n m : Nat), s.pwr.resetLow = true → (n < 1000000 ∨ 10000000 < n) →
    exec (.modResetNRelease n m) s = .next { s with
      pwr := { s.pwr with resetLow := false, startStep := 3 }, clk := { s.clk with strap := 0 }, boot := { s.boot with recovery := false } }) ∧
  (∀ (s : State) (mv : Nat), s.pwr.pwrGood = true → s.pwr.resetLow = false → (mv < 46000 ∨ 58000 < mv) →
    ∃ t, exec (.inputRange mv) s = .next t ∧ t = { s with pwr := t.pwr, cnt := t.cnt, leat := t.leat, out := t.out } ∧
      t.pwr = { s.pwr with inRange := false, inputMv := mv, alert := s.pwr.alert ||| 4 } ∧
      t.source (cPower 5) = s.source (cPower 5) + 1 ∧ t.hasEvent 0x0044 [mv]) ∧
  (∀ (s : State) (mv : Nat), (mv < 44000 ∨ 60000 < mv) → ∃ t, exec (.inputUndervoltTrip mv) s = .next t ∧ t.mem = [] ∧
      t.image = none ∧ t.pwr.pwrGood = false ∧ t.pwr.pdOn = 0 ∧ t.pwr.inRange = false ∧ t.pwr.tripped = s.pwr.pwrEn ∧
      t.pwr.pwrEn = s.pwr.pwrEn ∧ (mv < 44000 → t.pwr.auxOn = false) ∧ (60000 < mv → t.pwr.auxOn = s.pwr.auxOn)) ∧
  (∀ s : State, s.pwr.tripped = true → s.pwr.pwrEn = true → s.pwr.thermTrip = false → s.pwr.railLock = false → s.pwr.auxOn = true →
    exec .inputRecovered s = .next { s with pwr := { s.pwr with
      tripped := false, inRange := true, pdOn := BitVec.allOnes 20, startStep := 2 } }) ∧
  (∀ s : State, s.pwr.tripped = true → (s.pwr.thermTrip = true ∨ s.pwr.railLock = true) → s.pwr.auxOn = true →
    exec .inputRecovered s = .next { s with pwr := { s.pwr with tripped := false, inRange := true } }) ∧
  (∀ s : State, s.pwr.inRange = false → s.pwr.pwrEn = false → s.pwr.tripped = false →
    exec .inputRecovered s = .next { s with
      pwr := { s.pwr with inRange := true, auxOn := true }, tap := if s.pwr.auxOn then s.tap else Tap.init })

/-- R374, R375, R376: REFCLK stable, its time-out and its loss; a PLL locks, and the timebase starts with PLL 1; a lost
PLL clears its bit and counts.
Where the rules leave a point open, what is stated is the model's choice: logs 10 and 56. -/
def Obligations.Clocks : Prop :=
  (∀ s : State, s.up = true → s.clk.refStable = false → s.clk.lost = false → s.pwr.startStep = 3 →
    exec .refclkStable s = .next { s with clk := { s.clk with refStable := true }, pwr := { s.pwr with startStep := 4 } }) ∧
  (∀ s : State, s.up = true → s.clk.refStable = false →
    exec .refclkStableTimeout s = .next { s with pwr := { s.pwr with alert := s.pwr.alert ||| 16 } }) ∧
  (∀ s : State, s.up = true → s.clk.refStable = true → s.clk.lost = false → ∃ t, exec .refclkLoss s = .next t ∧
    t = { s with
      clk := { s.clk with lost := true }, time := { s.time with degraded := true }
      pwr := { s.pwr with alert := s.pwr.alert ||| 16 }, leat := t.leat, out := t.out, cnt := t.cnt } ∧
    t.hasEvent 0x0040 [s.clk.locked.toNat]) ∧
  (∀ (s : State) (n : Fin 18), s.up = true → s.clk.refStable = true → s.clk.lost = false → s.clk.locked.getLsbD n.val = false →
    (s.ctrl n.val).deep = false → ∃ t, exec (.pllLock n) s = .next t ∧ t = { s with clk := t.clk, time := t.time } ∧
      t.clk = { s.clk with locked := t.clk.locked, switching := t.clk.switching } ∧
      (∀ k : Fin 18, t.clk.locked.getLsbD k.val = (s.clk.locked.getLsbD k.val || k == n)) ∧
      (∀ k : Fin 18, t.clk.switching.getLsbD k.val = (s.clk.switching.getLsbD k.val && k != n)) ∧
      t.time = { s.time with running := s.time.running || n == 1 }) ∧
  (∀ (s : State) (n : Fin 18), n.val < 4 → s.up = true → s.clk.lost = false → s.clk.locked.getLsbD n.val = true →
    ∃ t, exec (.pllUnlock n) s = .next t ∧ t = { s with clk := t.clk, cnt := t.cnt } ∧
      (∀ k : Fin 18, t.clk.locked.getLsbD k.val = (s.clk.locked.getLsbD k.val && k != n)) ∧
      t.source (cPower 4) = s.source (cPower 4) + 1)

/-- R120, R365, R380: fuse load reads the retirement record and the next ordinal and copies the FRU record; training marks
the packages; zeroing clears the data region, the metadata payload and every slice, and sets ZEROED.
Where the rules leave a point open, what is stated is the model's choice: log 3. -/
def Obligations.StartUp : Prop :=
  (∀ s : State, s.up = true → s.clk.lost = false → s.pwr.startStep = 4 → s.time.running = true →
    ∃ t, exec (.fuseLoad true) s = .next t ∧
      t = { s with boot := t.boot, mills := loadMills s.nv.flash, pwr := { s.pwr with startStep := 6 }, time := t.time, nv := t.nv } ∧
      t.time = { s.time with ordinal := nextOrdinal s.nv.flash, ordFault := false } ∧ t.boot.fusesLoaded = true ∧
      t.boot.fruValid = true ∧ t.boot.fruBuf = flashRead t.nv.flash 0x3F10000 2048 ∧ (s.boot.recovery = true → t.boot.recovery = true)) ∧
  (∀ (s : State) (fails : BitVec 12), s.up = true → s.clk.lost = false → s.pwr.startStep = 6 →
    ∃ t, exec (.lpddr5xTrainingDone fails) s = .next t ∧ t = { s with pwr := { s.pwr with startStep := 7 }, memctl := t.memctl, flume := t.flume } ∧
      t.memctl = { s.memctl with
        rate := BitVec.ofNat 2 (Config.firmwareRate s.boot.fwDigest).val, pkgTrained := ~~~fails, pkgFail := fails, patrolOn := ~~~fails } ∧
      (s.boot.recovery = true → t.flume = s.flume)) ∧
  (∀ s : State, s.up = true → 7 ≤ s.pwr.startStep → s.memctl.zeroed = false → s.memctl.pkgTrained ≠ 0 →
    ∃ t, exec .startupZeroingDone s = .next t ∧ t = { s with mem := t.mem, syn := t.syn, memctl := { s.memctl with zeroed := true } } ∧
      (∀ a, NMap.get 0 t.mem a = if a < 0xA800000000 ∨ metaBase ≤ a ∧ a < metaBase + metaPayload ∨
          0x010000000000 ≤ a ∧ a < 0x0100BE000000 then 0 else NMap.get 0 s.mem a))


/-! ### Registers (R10-R12, R332, R366-R369, R378, R379, R391, R393) -/

/-- R332: a REG_READ that is admitted answers OK with the values of the registers at ADDRESS + 4i, and TIME_LO_READ is the
one that begins at TIME_LO; a misaligned ADDRESS is answered ALIGN and touches nothing.
Where the rules leave a point open, what is stated is the model's choice: log 54. -/
def Obligations.RegisterReads : Prop :=
  (∀ (s : State) (h : LeatHdr) (ses : Session) (a n : Nat), a < 2 ^ 32 → a % 4 = 0 → 1 ≤ n → n ≤ 64 →
    Admitted s h ses 0x0010 (regPayload a n []) →
    exec (.regRead h (regPayload a n [])) s = .next ((s.rx h.port).execute ses h 0x0010
      ⟨s.rx h.port, 0, (List.range n).flatMap fun i => leBytes 4 ((s.rx h.port).reg (a + 4 * i)), []⟩)) ∧
  (∀ (s : State) (h : LeatHdr) (ses : Session) (a n : Nat), a < 2 ^ 32 → a % 4 ≠ 0 → n < 2 ^ 16 →
    Admitted s h ses 0x0010 (regPayload a n []) →
    exec (.regRead h (regPayload a n [])) s = .next ((s.rx h.port).execute ses h 0x0010 ⟨s.rx h.port, 5, [], []⟩)) ∧
  (∀ (s : State) (h : LeatHdr) (ses : Session) (n : Nat), 1 ≤ n → n ≤ 64 → Admitted s h ses 0x0010 (regPayload 0x30000 n []) →
    exec (.timeLoRead h n) s = .next ((s.rx h.port).execute ses h 0x0010
      ⟨s.rx h.port, 0, (List.range n).flatMap fun i => leBytes 4 ((s.rx h.port).reg (0x30000 + 4 * i)), []⟩)) ∧
  (∀ s : State, s.reg 0x30000 = s.time.ns % 2 ^ 32) ∧ (∀ s : State, s.reg 0x30004 = s.time.ns / 2 ^ 32 % 2 ^ 32)

/-- R332: a REG_WRITE writes its values to the registers at ADDRESS + 4i in ascending order and answers OK; of a register
that has no writable field, or of an address without a register, it changes nothing; without control it is answered
NOT_CONTROL.
R393, R349, R267, R378, R379: GOV_CFG takes each field at the nearer limit; ETH_CFG and FLUME_CFG keep their writable
fields; a port's clock controls take effect at once while its ENABLE is 0 and are held while it is 1, and those of domains
0 to 3 are ignored.
Where the rules leave a point open, what is stated is the model's choice: log 54. -/
def Obligations.RegisterWrites : Prop :=
  (∀ (s : State) (h : LeatHdr) (ses : Session) (a : Nat) (vs : List Nat), a < 2 ^ 32 → a % 4 = 0 → 1 ≤ vs.length → vs.length ≤ 64 →
    (∀ v ∈ vs, v < 2 ^ 32) → Admitted s h ses 0x0011 (regPayload a vs.length vs) → ses.control = true →
    exec (.regWrite h (regPayload a vs.length vs)) s = .next
      (s.wroteClosing h ses ((s.rx h.port).regWrites a vs).1 ((s.rx h.port).regWrites a vs).2)) ∧
  (∀ (s : State) (a v : Nat) (vs : List Nat), s.regWrites a [] = (s, []) ∧ s.regWrites a (v :: vs) =
    (((s.regWriteOne a v).1.regWrites (a + 4) vs).1, (s.regWriteOne a v).2 ++ ((s.regWriteOne a v).1.regWrites (a + 4) vs).2)) ∧
  (∀ (s : State) (h : LeatHdr) (ses : Session) (v : Nat), v < 2 ^ 32 → Admitted s h ses 0x0011 (regPayload 0x40010 1 [v]) →
    ses.control = true → exec (.regWrite h (regPayload 0x40010 1 [v])) s = .next ((s.rx h.port).execute ses h 0x0011
      ⟨{ s.rx h.port with health := { s.health with cfg := BitVec.ofNat 32 v } }, 0, [], []⟩)) ∧
  (∀ (s : State) (h : LeatHdr) (ses : Session) (a v : Nat), (a = 0 ∨ a = 0x30000 ∨ a = 0xFFFFFFFC) → v < 2 ^ 32 →
    Admitted s h ses 0x0011 (regPayload a 1 [v]) → ses.control = true →
    exec (.regWrite h (regPayload a 1 [v])) s = .next ((s.rx h.port).execute ses h 0x0011 ⟨s.rx h.port, 0, [], []⟩)) ∧
  (∀ (s : State) (h : LeatHdr) (ses : Session) (a v : Nat), a < 2 ^ 32 → v < 2 ^ 32 →
    Admitted s h ses 0x0011 (regPayload a 1 [v]) → ses.control = false →
    exec (.regWrite h (regPayload a 1 [v])) s = .next ((s.rx h.port).execute ses h 0x0011 ⟨s.rx h.port, 7, [], []⟩)) ∧
  (∀ (s : State) (h : LeatHdr) (ses : Session) (v : Word32), WriteAdmitted s h ses 0x10000 v.toNat →
    exec (.govCfgWrite h v) s = .next (s.wrote h ses { s.rx h.port with pwr := { s.pwr with
      targetC := clamp 85 100 (bitsOf v.toNat 31 24), baseMv := clamp 600 800 (bitsOf v.toNat 19 10) / 10 * 10
      capW := clamp 300 700 (bitsOf v.toNat 9 0) } })) ∧
  (∀ (s : State) (h : LeatHdr) (ses : Session) (p : Fin 2) (v : Word32), v.getLsbD 31 = true →
    WriteAdmitted s h ses (0x60000 + 0x10000 * p.val) v.toNat →
    ∃ X : State, exec (.ethCfgWrite h p v) s = .next (s.wrote h ses X) ∧ X = { s.rx h.port with eth := X.eth } ∧
      X.port p.val = { s.port p.val with cfg := v &&& 0xE01FF0F0, live := (X.port p.val).live } ∧
      ∀ k, k ≠ p.val → X.port k = s.port k) ∧
  (∀ (s : State) (h : LeatHdr) (ses : Session) (p : Fin 2) (v : Word32), v.getLsbD 31 = false →
    WriteAdmitted s h ses (0x60000 + 0x10000 * p.val) v.toNat →
    ∃ X : State, exec (.ethCfgWrite h p v) s = .next (s.wrote h ses X) ∧ X = { s.rx h.port with eth := X.eth, clk := X.clk } ∧
      (X.port p.val).linkUp = false ∧ (X.port p.val).cfg = v &&& 0xE01FF0F0 ∧ (X.port p.val).live = v &&& 0xE01FF0F0 ∧
      ∀ k, k ≠ p.val → X.port k = s.port k) ∧
  (∀ (s : State) (h : LeatHdr) (ses : Session) (p : Fin 12) (v : Word32), v.getLsbD 31 = true →
    (s.fport p.val).st ≠ .disabled → WriteAdmitted s h ses (0x80004 + 0x1000 * p.val) v.toNat →
    ∃ X : State, exec (.flumeCfgWrite h p v) s = .next (s.wrote h ses X) ∧ X = { s.rx h.port with flume := X.flume } ∧
      X.fport p.val = { s.fport p.val with cfg := v &&& 0xC000FFFF } ∧ ∀ k, k ≠ p.val → X.fport k = s.fport k) ∧
  (∀ (s : State) (h : LeatHdr) (ses : Session) (p : Fin 12) (v : Word32), (v.getLsbD 31 = false ∨ (s.fport p.val).st = .disabled) →
    WriteAdmitted s h ses (0x80004 + 0x1000 * p.val) v.toNat →
    ∃ X : State, exec (.flumeCfgWrite h p v) s = .next (s.wrote h ses X) ∧
      X = { s.rx h.port with flume := X.flume, clk := X.clk, out := X.out } ∧ (X.fport p.val).cfg = v &&& 0xC000FFFF ∧
      (X.fport p.val).st = (if v.getLsbD 31 = true ∧ s.portRuns p.val = true then .detect else .disabled) ∧
      ∀ k, k ≠ p.val → X.fport k = s.fport k) ∧
  (∀ (s : State) (h : LeatHdr) (ses : Session) (n : Fin 18) (v : Word32), 4 ≤ n.val → s.portEnable n.val = true →
    WriteAdmitted s h ses (0x20100 + 4 * n.val) v.toNat → ∃ X : State, exec (.clkCtrlWrite h n v) s = .next (s.wrote h ses X) ∧
      X = { s.rx h.port with clk := { s.clk with held := X.clk.held } } ∧
      NMap.get none X.clk.held n.val = some (ClkCtrl.ofWord v)) ∧
  (∀ (s : State) (h : LeatHdr) (ses : Session) (n : Fin 18) (v : Word32), n.val < 4 →
    WriteAdmitted s h ses (0x20100 + 4 * n.val) v.toNat → exec (.clkCtrlWrite h n v) s = .next (s.wrote h ses (s.rx h.port))) ∧
  (∀ (s : State) (h : LeatHdr) (ses : Session) (n : Fin 18) (v : Word32), 4 ≤ n.val → s.portEnable n.val = false →
    WriteAdmitted s h ses (0x20100 + 4 * n.val) v.toNat → ∃ X : State, exec (.clkCtrlWrite h n v) s = .next (s.wrote h ses X) ∧
      X = { s.rx h.port with clk := X.clk } ∧ X.ctrl n.val = ClkCtrl.ofWord v ∧ ∀ k, k ≠ n.val → X.ctrl k = s.ctrl k) ∧
  (∀ (s : State) (h : LeatHdr) (ses : Session) (n : Fin 18) (src : Bool), 4 ≤ n.val → s.portEnable n.val = false →
    NMap.get none s.clk.held n.val = none → WriteAdmitted s h ses (0x20100 + 4 * n.val) (s.withSrc n.val src) → ∃ X : State, exec (.clockSourceSwitch h n src) s = .next (s.wrote h ses X) ∧
      X = { s.rx h.port with clk := X.clk } ∧ X.ctrl n.val = { s.ctrl n.val with src := src } ∧
      (src = false → s.clk.locked.getLsbD n.val = false → (s.ctrl n.val).src = true → X.clk.switching.getLsbD n.val = true))

/-- R133, R212, R231, R268, R393: a 1 written to VALID clears a log, which is then armed again, and a 1 written to a bit of
GOV_ALERT clears that bit; zeros change nothing.
R24, R366, R367: a refresh presents, for every counter, its source count since the baseline, saturated; COUNTER_CLEAR
sets the baselines and the presented values of the counters it names.
Where the rules leave a point open, what is stated is the model's choice: log 68. -/
def Obligations.LogClears : Prop :=
  (∀ (s : State) (h : LeatHdr) (ses : Session) (v : Word32), WriteAdmitted s h ses 0xA0014 v.toNat →
    exec (.ueLogClear h v) s = .next (s.wrote h ses { s.rx h.port with memctl := { s.memctl with ueValid := s.memctl.ueValid && !v.getLsbD 31 } })) ∧
  (∀ (s : State) (h : LeatHdr) (ses : Session) (v : Word32), WriteAdmitted s h ses 0x254 v.toNat →
    exec (.shapeLogClear h v) s = .next (s.wrote h ses { s.rx h.port with shapeLog := { s.shapeLog with valid := s.shapeLog.valid && !v.getLsbD 31 } })) ∧
  (∀ (s : State) (h : LeatHdr) (ses : Session) (v : Word32), WriteAdmitted s h ses 0x200014 v.toNat →
    exec (.deadlockLogClear h v) s = .next (s.wrote h ses { s.rx h.port with deadLog := { s.deadLog with valid := s.deadLog.valid && !v.getLsbD 31 } })) ∧
  (∀ (s : State) (h : LeatHdr) (ses : Session) (v : Word32), WriteAdmitted s h ses 0x200018 v.toNat →
    exec (.weirFaultLogClear h v) s = .next (s.wrote h ses { s.rx h.port with weirLog := { s.weirLog with valid := s.weirLog.valid && !v.getLsbD 31 } })) ∧
  (∀ (s : State) (h : LeatHdr) (ses : Session) (v : Word32), WriteAdmitted s h ses 0x90014 v.toNat →
    ∃ X : State, exec (.wheelDigestLogClear h v) s = .next (s.wrote h ses X) ∧ X = { s.rx h.port with wheel := { s.wheel with digLog := X.wheel.digLog } } ∧
      X.wheel.digLog.getLsbD 16 = (s.wheel.digLog.getLsbD 16 && !v.getLsbD 31) ∧
      ∀ k, k < 16 → X.wheel.digLog.getLsbD k = s.wheel.digLog.getLsbD k) ∧
  (∀ (s : State) (h : LeatHdr) (ses : Session) (v : Word32), WriteAdmitted s h ses 0x10008 v.toNat →
    ∃ X : State, exec (.govAlertClear h v) s = .next (s.wrote h ses X) ∧ X = { s.rx h.port with pwr := { s.pwr with alert := X.pwr.alert } } ∧
      ∀ k, k < 5 → X.pwr.alert.getLsbD k = (s.pwr.alert.getLsbD k && !v.getLsbD k)) ∧
  (∀ s : State, s.time.running = true → s.time.ns % 100000 = 0 → ∃ t, exec .counterRefresh s = .next t ∧
    t = { s with mirror := t.mirror, leat := t.leat, out := t.out, cnt := t.cnt } ∧
    ∀ off, off ∈ s.cnt.map (·.1) → NMap.get 0 t.mirror off = s.presented off) ∧
  (∀ (s : State) (h : LeatHdr) (ses : Session) (v : Word32), WriteAdmitted s h ses 0x300000 v.toNat →
    ∃ X : State, exec (.counterClear h v) s = .next (s.wrote h ses X) ∧
      X = { s.rx h.port with base := X.base, mirror := X.mirror, ctrClear := v &&& 0xFFFFFFFC } ∧
      ∀ off, off ∈ (s.rx h.port).cnt.map (·.1) →
        if bitOf v.toNat 31 = true ∨ bitsOf v.toNat 17 2 * 4 ≤ off ∧ off < bitsOf v.toNat 17 2 * 4 + 4 * (bitsOf v.toNat 30 18 + 1)
        then NMap.get 0 X.base off = (s.rx h.port).source off ∧ NMap.get 0 X.mirror off = 0
        else NMap.get 0 X.base off = NMap.get 0 s.base off ∧ NMap.get 0 X.mirror off = NMap.get 0 s.mirror off)

/-- R390, R391: a request for the level that is held sets RESULT 0; a request to leave READY while a long operation is not
terminal sets RESULT 1 and nothing else; otherwise the image is uninstalled and the request is BUSY until the level is reached; a request to return to READY powers every domain and is BUSY until the level is
reached; reaching READY raises POWER_LEVEL_DONE.
Where the rules leave a point open, what is stated is the model's choice: logs 10 and 56. -/
def Obligations.PowerLevels : Prop :=
  (∀ (s : State) (h : LeatHdr) (ses : Session) (v : Word32), s.pwr.plCur = v.setWidth 2 → s.pwr.plBusy = false →
    WriteAdmitted s h ses 0x1000C v.toNat →
    exec (.powerLevelRequest h v) s = .next (s.wrote h ses { s.rx h.port with pwr := { s.pwr with plReq := v.setWidth 2, plResult := 0 } })) ∧
  (∀ (s : State) (h : LeatHdr) (ses : Session) (v : Word32), s.pwr.plCur = 0 → v.setWidth 2 ≠ (0 : BitVec 2) → s.occupied = true →
    WriteAdmitted s h ses 0x1000C v.toNat →
    exec (.powerLevelRequest h v) s = .next (s.wrote h ses { s.rx h.port with pwr := { s.pwr with plReq := v.setWidth 2, plResult := 1 } })) ∧
  (∀ (s : State) (h : LeatHdr) (ses : Session) (v : Word32), s.pwr.plCur ≠ 0 → v.setWidth 2 = (0 : BitVec 2) →
    WriteAdmitted s h ses 0x1000C v.toNat →
    exec (.powerLevelRequest h v) s = .next (s.wrote h ses { s.rx h.port with pwr := { s.pwr with
      plReq := 0, plBusy := true, plResult := 0, pdOn := BitVec.allOnes 20 } })) ∧
  (∀ (s : State) (h : LeatHdr) (ses : Session) (v : Word32), s.pwr.plCur = 0 → v.setWidth 2 ≠ (0 : BitVec 2) → s.occupied = false →
    WriteAdmitted s h ses 0x1000C v.toNat → ∃ X : State, exec (.powerLevelRequest h v) s = .next (s.wrote h ses X) ∧ X.image = none ∧
      X.pwr.plReq = v.setWidth 2 ∧ X.pwr.plBusy = true ∧ X.pwr.plResult = 0 ∧ X.pwr.plCur = 0 ∧ X.pwr.pdOn = s.pwr.pdOn) ∧
  (∀ (s : State) (h : LeatHdr) (ses : Session) (v : Word32), s.pwr.plCur ≠ 0 → ¬ (s.pwr.plCur = v.setWidth 2 ∧ s.pwr.plBusy = false) →
    WriteAdmitted s h ses 0x1000C v.toNat → ∃ X : State, exec (.powerLevelRequest h v) s = .next (s.wrote h ses X) ∧
      X = { s.rx h.port with pwr := { s.pwr with plReq := v.setWidth 2, plBusy := true, plResult := 0, pdOn := X.pwr.pdOn } } ∧
      ∀ k : Fin 20, s.pwr.pdOn.getLsbD k.val = true → X.pwr.pdOn.getLsbD k.val = true) ∧
  (∀ s : State, s.up = true → s.pwr.plBusy = true → s.pwr.plReq = 0 → s.memctl.zeroed = true →
    ∃ t, exec .powerLevelDone s = .next t ∧ t = { s with pwr := t.pwr, flume := t.flume, leat := t.leat, out := t.out, cnt := t.cnt } ∧
      t.pwr = { s.pwr with pdOn := BitVec.allOnes 20, plCur := 0, plBusy := false } ∧ t.hasEvent 0x0045 [0])


/-! ### Security actions (R361, R363, R369) -/

/-- R361, R363, R369: with GUARD 0xC5 each action has its effect and its LAST_RESULT; with another GUARD nothing changes.
Where the rules leave a point open, what is stated is the model's choice: logs 10 and 22. -/
def Obligations.SecurityActions : Prop :=
  (∀ (s : State) (h : LeatHdr) (ses : Session) (g : Byte), g ≠ 0xC5 →
    (WriteAdmitted s h ses 0x50008 (g.toNat * 2 ^ 24 + 1) → exec (.claim h g) s = .next (s.wrote h ses (s.rx h.port))) ∧
    (WriteAdmitted s h ses 0x50008 (g.toNat * 2 ^ 24 + 2) → exec (.enrol h g) s = .next (s.wrote h ses (s.rx h.port))) ∧
    (WriteAdmitted s h ses 0x50008 (g.toNat * 2 ^ 24 + 3) → exec (.closeDebug h g) s = .next (s.wrote h ses (s.rx h.port))) ∧
    (WriteAdmitted s h ses 0x50008 (g.toNat * 2 ^ 24 + 4) → exec (.commitSvn h g) s = .next (s.wrote h ses (s.rx h.port)))) ∧
  (∀ (s : State) (h : LeatHdr) (ses : Session), WriteAdmitted s h ses 0x50008 0xC5000003 →
    exec (.closeDebug h 0xC5) s = .next (s.wrote h ses { s.rx h.port with
      nv := { s.nv with debugClosed := true }, tap := { s.tap with millerDebug := false }
      sec := { s.sec with guard := 0xC5, action := 3, lastAction := 3, lastResult := 0 } })) ∧
  (∀ (s : State) (h : LeatHdr) (ses : Session), WriteAdmitted s h ses 0x50008 0xC5000004 →
    exec (.commitSvn h 0xC5) s = .next (s.wrote h ses { s.rx h.port with
      nv := { s.nv with rollback := max s.nv.rollback (min 64 s.boot.fwSvn.toNat) }
      sec := { s.sec with guard := 0xC5, action := 4, lastAction := 4, lastResult := 0 } })) ∧
  (∀ (s : State) (h : LeatHdr) (ses : Session), WriteAdmitted s h ses 0x50008 0xC5000001 → s.nv.owner = none → s.syn = [] →
    s.memctl.zeroed = true → inData s.secAddress (s.rx h.port).stagedList.2.length = true → enrolFormat (s.rx h.port).stagedList.2 = true →
    enrolSigned (s.rx h.port).stagedList.2 = true →
    ∃ X : State, exec (.claim h 0xC5) s = .next (s.wroteClosing h ses X ((s.leat.sessions.filter fun x =>
        (enrolFind (s.rx h.port).stagedList.2 1 x.hostKey).isNone).map (·.id))) ∧
      X = { s.rx h.port with
        nv := X.nv, sec := X.sec, memctl := { s.memctl with cache := X.memctl.cache }, leat := X.leat, out := X.out, cnt := X.cnt } ∧
      X.nv = { s.nv with
        owner := some (sha512 (slice (s.rx h.port).stagedList.2 0x10 133))
        flash := flashWrite (NMap.clearRange s.nv.flash 0x3F20000 0x10000) 0x3F20000 (s.rx h.port).stagedList.2 } ∧
      X.sec = { s.sec with guard := 0xC5, action := 1, lastAction := 1, lastResult := 0 } ∧
      X.hasEvent 0x0063 [fieldAt (s.rx h.port).stagedList.2 8 4, fieldAt (s.rx h.port).stagedList.2 12 4]) ∧
  (∀ (s : State) (h : LeatHdr) (ses : Session) (owner : List Byte), WriteAdmitted s h ses 0x50008 0xC5000002 →
    s.nv.owner = some owner → s.syn = [] → s.memctl.zeroed = true →
    inData s.secAddress (s.rx h.port).stagedList.2.length = true → enrolFormat (s.rx h.port).stagedList.2 = true →
    sha512 (slice (s.rx h.port).stagedList.2 0x10 133) = owner → enrolSigned (s.rx h.port).stagedList.2 = true →
    fieldAt s.nv.enrolment 8 8 < fieldAt (s.rx h.port).stagedList.2 8 8 →
    ∃ X : State, exec (.enrol h 0xC5) s = .next (s.wroteClosing h ses X ((s.leat.sessions.filter fun x =>
        (enrolFind (s.rx h.port).stagedList.2 1 x.hostKey).isNone).map (·.id))) ∧
      X = { s.rx h.port with
        nv := X.nv, sec := X.sec, memctl := { s.memctl with cache := X.memctl.cache }, leat := X.leat, out := X.out, cnt := X.cnt } ∧
      X.nv = { s.nv with
        flash := flashWrite (NMap.clearRange s.nv.flash 0x3F20000 0x10000) 0x3F20000 (s.rx h.port).stagedList.2 } ∧
      X.sec = { s.sec with guard := 0xC5, action := 2, lastAction := 2, lastResult := 0 })


/-! ### Leat sessions, requests and events (R326-R331, R333) -/

/-- R326, R327, R330: an executed request is answered by one tagged REPLY to the port it came from, its reply is kept, and
nothing else changes than what the command changed; a repeated SEQ is answered from the kept replies and not executed; a
SEQ more than 63 below the highest is discarded and counts, and so is a tag that fails.
Where the rules leave a point open, what is stated is the model's choice: log 54. -/
def Obligations.LeatRequests : Prop :=
  (∀ (s : State) (h : LeatHdr) (ses : Session) (command : BitVec 16) (a : LeatAns), s.session h.session = some ses →
    a.st.leat.sessions = s.leat.sessions → a.closes = [] → ses.highSeq ≤ h.seq.toNat + 63 →
    ∃ ses', s.execute ses h command a = { a.st with
        leat := { a.st.leat with sessions := (s.execute ses h command a).leat.sessions }
        out := .leat h.port 0x04 ses.id h.seq.toNat command a.status a.payload (hmac512 ses.keyOut
          (leatHeader 0x4C54 1 0x04 ses.id h.seq.toNat command a.status a.payload.length ++ a.payload)) :: a.st.out
        cnt := (s.execute ses h command a).cnt } ∧
      (s.execute ses h command a).session ses.id = some ses' ∧ ses'.highSeq = max ses.highSeq h.seq.toNat ∧
      ses'.lastValid = s.time.ns ∧ ses'.control = ses.control ∧
      ses'.cache.head? = some (h.seq.toNat, (command, (a.status, a.payload)))) ∧
  (∀ (s : State) (h : LeatHdr) (ses : Session) (payload : List Byte) (c : Nat × (BitVec 16 × (Nat × List Byte))),
    s.hears h.port = true → h.magic = 0x4C54 → h.version = 1 → s.session h.session = some ses →
    h.tag = hostTag ses.keyIn h 0x03 0x0013 payload → ses.cache.find? (fun c => c.1 == h.seq.toNat) = some c →
    ∃ t, exec (.memWrite h payload) s = .next t ∧ t = { s with
        leat := { s.leat with sessions := t.leat.sessions }, out := t.out, cnt := t.cnt } ∧
      ∃ tag, t.out = .leat h.port 0x04 ses.id c.1 c.2.1 c.2.2.1 c.2.2.2 tag :: s.out) ∧
  (∀ (s : State) (h : LeatHdr) (ses : Session) (payload : List Byte), s.hears h.port = true → h.magic = 0x4C54 →
    h.version = 1 → s.session h.session = some ses → h.tag = hostTag ses.keyIn h 0x03 0x0013 payload →
    ses.cache.find? (fun c => c.1 == h.seq.toNat) = none → h.seq.toNat + 63 < ses.highSeq →
    exec (.memWrite h payload) s = .next ((s.rx h.port).count (cLeat 1))) ∧
  (∀ (s : State) (h : LeatHdr) (ses : Session) (payload : List Byte), s.hears h.port = true → h.magic = 0x4C54 →
    h.version = 1 → s.session h.session = some ses → h.tag ≠ hostTag ses.keyIn h 0x03 0x0013 payload →
    exec (.memWrite h payload) s = .next ((s.rx h.port).count (cLeat 0)))

/-- R328, R329, R331: a HELLO to an unclaimed module opens a session, with control if it asks and no session holds it; one
for another serial number is answered AUTH, one of another length BAD_LENGTH, a fifth SESSION_FULL; a session closes on
CLOSE and after 60 s; PING answers the serial number, the ordinal and the time.
R333: an EVENT_ACK of the control session removes the event with its SEQ; an unacknowledged event is sent again after
100 ms; raising an event that matches a queued one changes nothing; a full queue loses its oldest event and counts.
Where the rules leave a point open, what is stated is the model's choice: logs 4 and 54. -/
def Obligations.LeatSessions : Prop :=
  (∀ (s : State) (p : Fin 2) (bs : List Byte), s.hears p = true → bs.length = 316 → s.nv.owner = none →
    fieldAt bs 0xA8 8 = 0 → fieldAt bs 0xB0 8 = s.nv.serial.toNat → (ecDecode (slice bs 0 133)).isSome = true →
    s.leat.sessions.length < 4 → ∃ t ses, exec (.hello p bs) s = .next t ∧
      t.leat.sessions = s.leat.sessions ++ [ses] ∧ ses.id = BitVec.ofNat 32 s.leat.nextSession ∧ ses.port = p ∧
      ses.control = (bitOf (fieldAt bs 0x85 1) 0 && s.controlSession.isNone) ∧ ses.highSeq = 0 ∧ ses.cache = [] ∧
      ses.lastValid = s.time.ns ∧ t = { s with fresh := s.fresh + 1, leat := t.leat, out := t.out, cnt := t.cnt }) ∧
  (∀ (s : State) (p : Fin 2) (bs : List Byte), s.hears p = true → bs.length = 316 → fieldAt bs 0xB0 8 ≠ s.nv.serial.toNat →
    exec (.hello p bs) s = .next (((s.rx p).emit (.leat p 0x02 0 0 0 0x0B [] (List.replicate 64 0))).tx p)) ∧
  (∀ (s : State) (p : Fin 2) (bs : List Byte), s.hears p = true → bs.length ≠ 316 →
    exec (.hello p bs) s = .next (((s.rx p).emit (.leat p 0x02 0 0 0 0x04 [] (List.replicate 64 0))).tx p)) ∧
  (∀ (s : State) (p : Fin 2) (bs : List Byte), s.hears p = true → bs.length = 316 → s.nv.owner = none →
    fieldAt bs 0xA8 8 = 0 → fieldAt bs 0xB0 8 = s.nv.serial.toNat → (ecDecode (slice bs 0 133)).isSome = true →
    4 ≤ s.leat.sessions.length →
    exec (.hello p bs) s = .next (((s.rx p).emit (.leat p 0x02 0 0 0 0x0C [] (List.replicate 64 0))).tx p)) ∧
  (∀ (s : State) (h : LeatHdr) (ses : Session), Admitted s h ses 0x0001 [] →
    exec (.ping h []) s = .next ((s.rx h.port).execute ses h 0x0001
      ⟨s.rx h.port, 0, leBytes 8 s.nv.serial.toNat ++ leBytes 4 s.time.ordinal ++ leBytes 8 s.time.ns, []⟩)) ∧
  (∀ (s : State) (h : LeatHdr) (ses : Session), Admitted s h ses 0x0002 [] →
    exec (.close h []) s = .next ((s.rx h.port).execute ses h 0x0002 ⟨s.rx h.port, 0, [], [h.session]⟩) ∧
    ((s.rx h.port).execute ses h 0x0002 ⟨s.rx h.port, 0, [], [h.session]⟩).session h.session = none) ∧
  (∀ (s : State) (id : Word32) (ses : Session), s.session id = some ses → ses.lastValid + 60000000000 ≤ s.time.ns →
    ∃ t, exec (.leatSessionTimeout id) s = .next t ∧ t = { s with leat := { s.leat with sessions := t.leat.sessions } } ∧
      t.session id = none ∧ ∀ k, k ≠ id → t.session k = s.session k) ∧
  (∀ (s : State) (h : LeatHdr) (ses : Session), s.hears h.port = true → s.session h.session = some ses → h.magic = 0x4C54 →
    h.version = 1 → ses.control = true → h.tag = hostTag ses.keyIn h 0x06 0 [] →
    exec (.eventAck h) s = .next { s.rx h.port with leat := { s.leat with
      events := s.leat.events.filter fun e => e.seq ≠ h.seq.toNat } }) ∧
  (∀ (s : State) (seq : Word64) (e : Event) (ses : Session) (at' : Nat),
    s.leat.events.find? (fun e => e.seq == seq.toNat) = some e → s.controlSession = some ses → e.sentAt = some at' →
    at' + 100000000 ≤ s.time.ns → ∃ t, exec (.eventResend seq) s = .next t ∧
      t = { s with leat := { s.leat with events := t.leat.events }, out := t.out, cnt := t.cnt } ∧
      (∃ tag, t.out = .leat ses.port 0x05 ses.id e.seq 0 0 (eventPayload e) tag :: s.out) ∧
      t.leat.events.map (·.seq) = s.leat.events.map (·.seq)) ∧
  (∀ (s : State) (code : Nat) (hd : Word32) (d : List Nat), s.hasEvent code d → s.raise code hd d = s) ∧
  (∀ (s : State) (code : Nat) (hd : Word32) (d : List Nat), ¬ s.hasEvent code d → 256 ≤ s.leat.events.length →
    (s.raise code hd d).leat.events.map (·.seq) = (s.leat.events.drop 1).map (·.seq) ++ [s.leat.nextEvent] ∧
    (s.raise code hd d).source (cLeat 2) = s.source (cLeat 2) + 1)


/-! ### Memory through the Miller (R332, R348) -/

/-- R332: an admitted MEM_WRITE of whole words in the data region stores its data and nothing else, with valid checks; a
MEM_READ of words whose checks are valid answers them as they stand and changes nothing; misalignment is answered ALIGN, an
address outside the data region RANGE, and before ZEROED both commands are answered NOT_READY.
Where the rules leave a point open, what is stated is the model's choice: log 54. -/
def Obligations.LeatMemory : Prop :=
  (∀ (s : State) (h : LeatHdr) (ses : Session) (a : Nat) (d : List Byte), ses.control = true → a % 8 = 0 → d.length % 8 = 0 →
    a + d.length ≤ 0xA800000000 → d.length < 2 ^ 32 → s.pwr.plCur = 0 → s.pwr.plBusy = false → s.memctl.zeroed = true →
    s.writeBusy = false → Admitted s h ses 0x0013 (leBytes 8 a ++ leBytes 4 d.length ++ leBytes 4 0 ++ d) →
    ∃ X : State, exec (.memWrite h (leBytes 8 a ++ leBytes 4 d.length ++ leBytes 4 0 ++ d)) s = .next ((s.rx h.port).execute ses h 0x0013
        ⟨X, 0, [], []⟩) ∧
      X = { s.rx h.port with mem := X.mem, syn := X.syn } ∧
      (∀ x, NMap.get 0 X.mem x = if a ≤ x ∧ x < a + d.length then d.getD (x - a) 0 else NMap.get 0 s.mem x) ∧
      (∀ w, X.synOf w = if a ≤ 8 * w ∧ 8 * w < a + d.length then 0 else s.synOf w)) ∧
  (∀ (s : State) (h : LeatHdr) (ses : Session) (a n : Nat), a % 8 = 0 → n % 8 = 0 → 8 ≤ n → n ≤ 1024 →
    a + n ≤ 0xA800000000 → s.pwr.plCur = 0 → s.pwr.plBusy = false → s.memctl.zeroed = true → s.ctx.active = false →
    (∀ x, x ∈ s.syn → ¬ (a < 8 * x.1 + 8 ∧ 8 * x.1 < a + n)) →
    Admitted s h ses 0x0012 (leBytes 8 a ++ leBytes 4 n ++ leBytes 4 0) →
    exec (.memRead h (leBytes 8 a ++ leBytes 4 n ++ leBytes 4 0)) s = .next ((s.rx h.port).execute ses h 0x0012
      ⟨s.rx h.port, 0, (List.range n).map fun i => NMap.get 0 s.mem (a + i), []⟩)) ∧
  (∀ (s : State) (h : LeatHdr) (ses : Session) (a n : Nat) (rd : State × List Byte), a % 8 = 0 → n % 8 = 0 → 8 ≤ n → n ≤ 1024 →
    (a + n ≤ 0xA800000000 ∨ metaBase ≤ a ∧ a + n ≤ 0xC000000000) → s.pwr.plCur = 0 → s.pwr.plBusy = false → s.memctl.zeroed = true →
    Admitted s h ses 0x0012 (leBytes 8 a ++ leBytes 4 n ++ leBytes 4 0) → rd = (s.rx h.port).millerRead a n →
    exec (.memRead h (leBytes 8 a ++ leBytes 4 n ++ leBytes 4 0)) s = .next ((s.rx h.port).execute ses h 0x0012 ⟨rd.1, 0, rd.2, []⟩)) ∧
  (∀ (s : State) (h : LeatHdr) (ses : Session) (a n : Nat), a < 2 ^ 64 → n < 2 ^ 32 → (a % 8 ≠ 0 ∨ n % 8 ≠ 0) →
    s.pwr.plCur = 0 → s.pwr.plBusy = false → Admitted s h ses 0x0012 (leBytes 8 a ++ leBytes 4 n ++ leBytes 4 0) →
    exec (.memRead h (leBytes 8 a ++ leBytes 4 n ++ leBytes 4 0)) s = .next ((s.rx h.port).execute ses h 0x0012 ⟨s.rx h.port, 5, [], []⟩)) ∧
  (∀ (s : State) (h : LeatHdr) (ses : Session) (a : Nat) (d : List Byte), ses.control = true → a < 2 ^ 64 → a % 8 = 0 →
    d.length % 8 = 0 → 0xA800000000 < a + d.length → d.length < 2 ^ 32 → s.pwr.plCur = 0 → s.pwr.plBusy = false →
    Admitted s h ses 0x0013 (leBytes 8 a ++ leBytes 4 d.length ++ leBytes 4 0 ++ d) →
    exec (.memWrite h (leBytes 8 a ++ leBytes 4 d.length ++ leBytes 4 0 ++ d)) s = .next ((s.rx h.port).execute ses h 0x0013 ⟨s.rx h.port, 6, [], []⟩)) ∧
  (∀ (s : State) (h : LeatHdr) (ses : Session) (a n : Nat), a % 8 = 0 → n % 8 = 0 → 8 ≤ n → n ≤ 1024 →
    a + n ≤ 0xA800000000 → s.pwr.plCur = 0 → s.pwr.plBusy = false → s.memctl.zeroed = false →
    Admitted s h ses 0x0012 (leBytes 8 a ++ leBytes 4 n ++ leBytes 4 0) →
    exec (.memRead h (leBytes 8 a ++ leBytes 4 n ++ leBytes 4 0)) s = .next ((s.rx h.port).execute ses h 0x0012 ⟨s.rx h.port, 2, [], []⟩))


/-! ### Tailrace (R343, R345-R348, R358) -/

/-- R343, R345, R346: an open Tailrace answers DISCOVER, COUNTERS and EYE_MARGIN as their rows say and changes nothing but
the outputs and the frame counts; once it is closed every operation is refused and counted.
R348, R358: Tailrace MEM_WRITE and MEM_READ reach memory as MEM_WRITE and MEM_READ do; in recovery mode FW_BEGIN keeps
the length, FW_DATA stores the image at its offset, and FW_COMMIT programs an image that passes the checks.
Where the rules leave a point open, what is stated is the model's choice: log 24. -/
def Obligations.TailraceReads : Prop :=
  (∀ (s : State) (t : TrHdr), TrHeard s t → exec (.discover t) s = .next ((s.rx t.port).trReply t 0x01 0
    (leBytes 8 s.serial ++ [BitVec.ofNat 8 t.port.val, BitVec.ofNat 8 (b2n s.boot.recovery)] ++ leBytes 4 s.boot.fwVersion.toNat))) ∧
  (∀ (s : State) (t : TrHdr), TrHeard s t → bitsOf t.arg.toNat 15 8 < 2 → exec (.counters t) s = .next ((s.rx t.port).trReply t 0x02 0
    ((List.range 5).flatMap fun k => leBytes 8 ((s.rx t.port).source (cEth (bitsOf t.arg.toNat 15 8) k))))) ∧
  (∀ (s : State) (t : TrHdr) (eyes : List (BitVec 16 × BitVec 16)), TrHeard s t → laneOk (trSel t) = true →
    exec (.eyeMargin t eyes) s = .next ((s.rx t.port).trReply t 0x12 0
      ((eyes.take (s.eyes (trSel t))).flatMap fun e => leBytes 2 e.1.toNat ++ leBytes 2 e.2.toNat))) ∧
  (∀ (s : State) (t : TrHdr) (op status : Nat) (bs : List Byte), s.trReply t op status bs = { s with
    out := .tailrace t.port t.srcMac (BitVec.ofNat 8 (op + 0x80)) t.tag status t.arg bs :: s.out
    cnt := (s.trReply t op status bs).cnt }) ∧
  (∀ (s : State) (t : TrHdr), s.up = true → (s.port t.port.val).linkUp = true → t.version = 1 → s.leat.tailraceOpen = false →
    exec (.discover t) s = .next (((s.rx t.port).count (cLeat 3)).trReply t 0x01 1 []) ∧
    exec (.tailraceMemRead t) s = .next (((s.rx t.port).count (cLeat 3)).trReply t 0x20 1 [])) ∧
  (∀ (s : State) (t : TrHdr), TrHeard s t → t.arg.toNat % 8 = 0 → t.length.toNat % 8 = 0 → 8 ≤ t.length.toNat →
    t.length.toNat ≤ 1024 → t.arg.toNat + t.length.toNat ≤ 0xA800000000 → s.pwr.plCur = 0 → s.pwr.plBusy = false →
    s.memctl.zeroed = true → s.ctx.active = false →
    (∀ x, x ∈ s.syn → ¬ (t.arg.toNat < 8 * x.1 + 8 ∧ 8 * x.1 < t.arg.toNat + t.length.toNat)) →
    exec (.tailraceMemRead t) s = .next ((s.rx t.port).trReply t 0x20 0
      ((List.range t.length.toNat).map fun i => NMap.get 0 s.mem (t.arg.toNat + i)))) ∧
  (∀ (s : State) (t : TrHdr) (d : List Byte), TrHeard s t → t.arg.toNat % 8 = 0 → d.length % 8 = 0 → 8 ≤ d.length →
    d.length ≤ 1024 → t.arg.toNat + d.length ≤ 0xA800000000 → s.pwr.plCur = 0 → s.pwr.plBusy = false → s.memctl.zeroed = true →
    ∃ X : State, exec (.tailraceMemWrite t d) s = .next (X.trReply t 0x21 0 []) ∧ X = { s.rx t.port with mem := X.mem, syn := X.syn } ∧
      ∀ x, NMap.get 0 X.mem x = if t.arg.toNat ≤ x ∧ x < t.arg.toNat + d.length then d.getD (x - t.arg.toNat) 0
        else NMap.get 0 s.mem x) ∧
  (∀ (s : State) (t : TrHdr), TrHeard s t → s.boot.recovery = true → t.arg.toNat % 8 = 0 → t.arg.toNat ≤ 0x2000000 →
    exec (.fwBegin t) s = .next (State.trReply { s.rx t.port with fwLen := t.arg.toNat } t 0x30 0 [])) ∧
  (∀ (s : State) (t : TrHdr) (d : List Byte), TrHeard s t → s.boot.recovery = true → t.arg.toNat + d.length ≤ s.fwLen →
    d.length ≤ 1024 → s.memctl.zeroed = true → s.syn = [] →
    ∃ X : State, exec (.fwData t d) s = .next (X.trReply t 0x31 0 []) ∧ X = { s.rx t.port with mem := X.mem } ∧
      ∀ x, NMap.get 0 X.mem x = if t.arg.toNat ≤ x ∧ x < t.arg.toNat + d.length then d.getD (x - t.arg.toNat) 0
        else NMap.get 0 s.mem x) ∧
  (∀ (s : State) (t : TrHdr) (rd : State × List Byte), TrHeard s t → s.boot.recovery = true → s.memctl.zeroed = true →
    rd = (s.rx t.port).millerRead 0 s.fwLen → fwCheck s.nv rd.2 = 1 →
    ∃ X : State, exec (.fwCommit t true) s = .next (X.trReply t 0x32 0 []) ∧
      X = { rd.1 with nv := X.nv, sec := X.sec, leat := X.leat, out := X.out, cnt := X.cnt } ∧
      X.nv = { rd.1.nv with flash := programFw rd.1.nv.flash rd.2 } ∧ X.sec.fw.result = 1 ∧
      X.sec.fw.busy = false ∧ ∃ d, X.hasEvent 0x0060 d)

/-- R346, R347: a test of DURATION milliseconds starts, takes its port out of service and is kept until it expires, is
stopped or is read; its expiry restores the port. Ports 0 and 1 are the Ethernet ports.
Where the rules leave a point open, what is stated is the model's choice: logs 23 and 58. -/
def Obligations.TailraceTests : Prop :=
  (∀ (s : State) (t : TrHdr), TrHeard s t → bitsOf t.arg.toNat 15 8 < 2 → bitOf t.arg.toNat 0 = true → trDurationOk t = true →
    ∃ X : State, exec (.macLoopback t) s = .next X ∧ TestStarted s X t 0x03 (256 * bitsOf t.arg.toNat 15 8)
      (s.time.ns + trDuration t * 1000000)) ∧
  (∀ (s : State) (t : TrHdr), TrHeard s t → laneOk (trSel t) = true → bitsOf t.arg.toNat 19 16 ≤ 2 →
    bitOf t.arg.toNat 20 = true → trDurationOk t = true →
    ∃ X : State, exec (.prbsGen t) s = .next X ∧ TestStarted s X t 0x10 (trSel t) (s.time.ns + trDuration t * 1000000)) ∧
  (∀ (s : State) (t : TrHdr), TrHeard s t → laneOk (trSel t) = true → (bitsOf t.arg.toNat 21 20 = 1 ∨ bitsOf t.arg.toNat 21 20 = 2) →
    trDurationOk t = true →
    ∃ X : State, exec (.laneLoopback t) s = .next X ∧ TestStarted s X t 0x13 (trSel t) (s.time.ns + trDuration t * 1000000)) ∧
  (∀ (s : State) (t : TrHdr) (b e : Word64), TrHeard s t → laneOk (trSel t) = true → bitsOf t.arg.toNat 19 16 ≤ 2 →
    bitsOf t.arg.toNat 21 20 = 1 →
    ∃ X : State, exec (.prbsCheck t b e) s = .next X ∧ X.tests = dropTest s.tests 0x11 (trSel t) ++
        [⟨0x11, BitVec.ofNat 16 (trSel t), t.arg, 0⟩] ∧
      .tailrace t.port t.srcMac 0x91 t.tag 0 t.arg (List.replicate 16 0) ∈ X.out ∧ ModuleOnly s X) ∧
  (∀ (s : State) (t : TrHdr) (b e : Word64), TrHeard s t → laneOk (trSel t) = true → bitsOf t.arg.toNat 19 16 ≤ 2 →
    bitsOf t.arg.toNat 21 20 = 2 → (s.tests.any fun x => decide (x.op = 0x11) && decide (x.sel.toNat = trSel t)) = true →
    ∃ X : State, exec (.prbsCheck t b e) s = .next X ∧ X.tests = dropTest s.tests 0x11 (trSel t) ∧
      .tailrace t.port t.srcMac 0x91 t.tag 0 t.arg (leBytes 8 b.toNat ++ leBytes 8 e.toNat) ∈ X.out ∧ ModuleOnly s X) ∧
  (∀ (s : State) (sel : BitVec 16) (x : LaneTest), x ∈ s.tests → x.sel = sel → 0 < x.endAt → x.endAt ≤ s.time.ns →
    ∃ X : State, exec (.testDurationExpiry sel) s = .next X ∧
      X.tests = s.tests.filter (fun y => !y.due s.time.ns sel.toNat) ∧ ModuleOnly s X ∧
      (sel.toNat / 256 < 2 → (X.tests.any fun y => decide (y.sel.toNat / 256 = sel.toNat / 256)) = false →
        (X.port (sel.toNat / 256)).downAt = none ∧ (X.port (sel.toNat / 256)).live = (s.port (sel.toNat / 256)).cfg))


/-! ### SMBus and the test port (R363, R403-R407) -/

/-- R403, R404, R405: on the auxiliary rail the responder answers its five reads with a PEC when it is clocked, and a code it
does not know, or data written to it, with a NACK; a time-out drops the latched frame; the frame is refreshed with SEQ
one higher.
Where the rules leave a point open, what is stated is the model's choice: log 58. -/
def Obligations.Smbus : Prop :=
  (∀ (s : State) (pec : Bool), s.pwr.auxOn = true → exec (.smbusStatusRead pec) s = .next { s with
    out := .smbByte s.smbStatus (if pec then some (crc8 [0xB4, 0x00, 0xB5, s.smbStatus]) else none) :: s.out }) ∧
  (∀ (s : State) (pec : Bool), s.pwr.auxOn = true → exec (.smbusRomRead pec) s = .next { s with
    out := .smbBlock [0x4C, 0x50, 0x08, 0x00, 0, 0, 0, 0]
      (if pec then some (crc8 [0xB4, 0x01, 0xB5, 8, 0x4C, 0x50, 0x08, 0x00, 0, 0, 0, 0]) else none) :: s.out }) ∧
  (∀ (s : State) (pec : Bool), s.pwr.auxOn = true → s.pwr.pdOn.getLsbD 0 = false →
    exec (.smbusTelemetryRead pec) s = .next { s with
      smb := { s.smb with latched := List.replicate 32 0xFF }
      out := .smbBlock (List.replicate 32 0xFF)
        (if pec then some (crc8 ([0xB4, 0x10, 0xB5, 32] ++ List.replicate 32 0xFF)) else none) :: s.out }) ∧
  (∀ (s : State) (pec : Bool), s.pwr.auxOn = true → s.pwr.pdOn.getLsbD 0 = true → s.smb.frame.length = 32 →
    exec (.smbusTelemetryRead pec) s = .next { s with
      smb := { s.smb with latched := s.smb.frame }
      out := .smbBlock s.smb.frame (if pec then some (crc8 ([0xB4, 0x10, 0xB5, 32] ++ s.smb.frame)) else none) :: s.out }) ∧
  (∀ (s : State) (page : Fin 64) (pec : Bool), s.pwr.auxOn = true → s.boot.fruValid = true → s.boot.fruBuf.length = 2048 →
    exec (.smbusFruRead (BitVec.ofNat 8 (0x40 + page.val)) pec) s = .next { s with
      out := .smbBlock (slice s.boot.fruBuf (32 * page.val) 32) (if pec then
        some (crc8 ([0xB4, BitVec.ofNat 8 (0x40 + page.val), 0xB5, 32] ++ slice s.boot.fruBuf (32 * page.val) 32)) else none) :: s.out }) ∧
  (∀ (s : State) (code : Byte), s.pwr.auxOn = true → code ≠ 0 → code ≠ 1 → code ≠ 0x10 → (code.toNat < 0x40 ∨ 0x7F < code.toNat) →
    exec (.smbusNack code false) s = .next { s with out := .smbNack code :: s.out }) ∧
  (∀ (s : State) (code : Byte), s.pwr.auxOn = true → exec (.smbusNack code true) s = .next { s with out := .smbNack code :: s.out }) ∧
  (∀ s : State, exec .smbusTimeout s = .next { s with smb := { s.smb with latched := [] } }) ∧
  (∀ s : State, s.pwr.pdOn.getLsbD 0 = true → ∃ t, exec .telemetryRefresh s = .next t ∧
    t = { s with smb := { s.smb with seq := s.smb.seq + 1, frame := t.smb.frame } } ∧ t.smb.frame.length = 32 ∧
    t.smb.frame.getD 0 0 = s.smb.seq + 1 ∧ slice t.smb.frame 2 2 = leBytes 2 s.pwr.inputMv ∧
    slice t.smb.frame 4 2 = leBytes 2 s.pwr.windowW ∧ slice t.smb.frame 8 2 = leBytes 2 s.pwr.capW)

/-- R363, R406, R407: each instruction of the test port; the private ones act as BYPASS once DEBUG_CLOSE is blown. -/
def Obligations.TestPort : Prop :=
  (∀ s : State, exec .tapReset s = .next { s with tap := { s.tap with ir := 0x01, extest := false, millerDebug := false } }) ∧
  (∀ s : State, s.tapUp = true → exec .idcode s = .next { s with
    tap := { s.tap with ir := 0x01, extest := false, millerDebug := false }, out := .tdo 32 0x10008A3D :: s.out }) ∧
  (∀ (s : State) (pins pre : BitVec 205), s.tapUp = true → exec (.samplePreload pins pre) s = .next { s with
    tap := { ir := 0x02, boundary := pre, extest := false, millerDebug := false }, out := .tdo 205 pins.toNat :: s.out }) ∧
  (∀ s : State, s.tapUp = true → exec (.bypass 0xFF) s = .next { s with
    tap := { s.tap with ir := 0xFF, extest := false, millerDebug := false }, out := .tdo 1 0 :: s.out }) ∧
  (∀ s : State, s.tapUp = true → ∃ a b c, exec .extest s = .next a ∧ exec .extestPulse s = .next b ∧ exec .extestTrain s = .next c ∧
    PairsTaken s a 0x00 ∧ PairsTaken s b 0x04 ∧ PairsTaken s c 0x05) ∧
  (∀ s : State, s.tapUp = true → s.nv.debugClosed = false → exec .millerDebug s = .next { s with
    tap := { s.tap with ir := 0x10, extest := false, millerDebug := true } }) ∧
  (∀ (s : State) (a : Nat), s.tapUp = true → s.nv.debugClosed = false → 0x020000000000 ≤ a → a < 0x020013000000 → s.synOf (a / 8) = 0 →
    exec (.fabricRead (.byte a)) s = .next { s with
      tap := { s.tap with ir := 0x11, extest := false, millerDebug := false }, out := .tdo 8 (NMap.get 0 s.mem a).toNat :: s.out }) ∧
  (∀ (s : State) (sid : Sid), s.tapUp = true → s.nv.debugClosed = false → ∃ t, exec (.fabricHalt sid) s = .next t ∧
    t = { s with tap := { s.tap with ir := 0x12, extest := false, millerDebug := false }, streams := t.streams } ∧
    t.stream (sidKey sid) = { s.stream (sidKey sid) with halted := true } ∧
    ∀ k, k ≠ sidKey sid → t.stream k = s.stream k) ∧
  (∀ (s : State) (sid : Sid) (a : Nat), s.tapUp = true → s.nv.debugClosed = true →
    exec .millerDebug s = .next { s with
      tap := { s.tap with ir := 0x10, extest := false, millerDebug := false }, out := .tdo 1 0 :: s.out } ∧
    exec (.fabricRead (.byte a)) s = .next { s with
      tap := { s.tap with ir := 0x11, extest := false, millerDebug := false }, out := .tdo 1 0 :: s.out } ∧
    exec (.fabricHalt sid) s = .next { s with
      tap := { s.tap with ir := 0x12, extest := false, millerDebug := false }, out := .tdo 1 0 :: s.out })


/-! ### Ethernet (R324, R325) -/

/-- R324: a port that is enabled and clocked links in the first mode both ends share, or in the forced one, and takes its
static address where SET_NET has stored one; a loss counts and drops the mode; 100 ms later the configuration as
last written is in force and negotiation runs again.
R325: a linked port answers ARP, whole echo requests and neighbour solicitations for its own addresses and nothing else, forms
a global address from each advertised prefix, asks for an IPv4 address under its serial number while no static one is
stored, requests the one it is offered and takes that of an ACK, and honours a PFC pause of its own priority alone.
Where the rules leave a point open, what is stated is the model's choice: logs 33, 34 and 85. -/
def Obligations.EthernetLinks : Prop :=
  (∀ (s : State) (p : Fin 2) (partner : BitVec 10) (fec4 : Fin 3) (m : Nat), s.up = true → 7 ≤ s.pwr.startStep →
    s.leat.listening = true → s.boot.recovery = false → (s.port p.val).enabled = true → (s.port p.val).linkUp = false →
    (s.port p.val).downAt = none → s.canTrain (4 + p.val) = true → s.ethHeld p.val = false →
    ethMode (s.port p.val).live partner = some m → ∃ t, exec (.ethLinkUp p partner fec4) s = .next t ∧
      t = { s with eth := t.eth, leat := { s.leat with tailraceOpen := !s.leat.tailraceDone }, out := t.out, cnt := t.cnt } ∧
      t.out = (if s.netStatic p.val then s.out else .dhcp p s.nv.serial none :: s.out) ∧
      t.port p.val = { s.port p.val with
        linkUp := true, mode := BitVec.ofNat 3 m, lanes := ethLanes m, cable := (s.port p.val).live.getLsbD 29
        fec := if m = 0 then 2 else if m = 4 then BitVec.ofNat 2 fec4.val else 3
        anDone := (s.port p.val).live.getLsbD 30
        ipv4 := if s.netStatic p.val then s.staticAddr p.val else (s.port p.val).ipv4 } ∧
      ∀ k, k ≠ p.val → t.port k = s.port k) ∧
  (∀ (cfg : Word32) (partner : BitVec 10) (m : Nat), cfg.getLsbD 30 = true → ethMode cfg partner = some m →
    m ≤ 4 ∧ cfg.getLsbD (16 + m) = true ∧ partner.getLsbD (if cfg.getLsbD 29 then 5 + m else m) = true ∧
      (m ≠ 2 → (cfg.getLsbD 18 && partner.getLsbD (if cfg.getLsbD 29 then 7 else 2)) = false)) ∧
  (∀ m, ethLanes m = if m = 0 then 0xF else if m = 1 then 0x3 else if m ≤ 4 then 0x1 else 0) ∧
  (∀ (s : State) (p : Fin 2), s.up = true → 7 ≤ s.pwr.startStep → (s.port p.val).enabled = true →
    (s.port p.val).downAt = none → ∃ t, exec (.ethLinkDown p) s = .next t ∧ t = { s with eth := t.eth, cnt := t.cnt } ∧
      t.port p.val = { s.port p.val with
        linkUp := false, mode := 7, lanes := 0, cable := false, fec := 0, anDone := false, pause := [], downAt := some s.time.ns } ∧
      t.source (cEth p.val 5) = s.source (cEth p.val 5) + 1 ∧ ∀ k, k ≠ p.val → t.port k = s.port k) ∧
  (∀ (s : State) (p : Fin 2) (d : Nat), (s.port p.val).downAt = some d → d + 100000000 ≤ s.time.ns →
    ∃ t, exec (.ethRenegotiate p) s = .next t ∧ t = { s with eth := t.eth } ∧
      t.port p.val = { s.port p.val with downAt := none, live := (s.port p.val).cfg } ∧ ∀ k, k ≠ p.val → t.port k = s.port k) ∧
  (∀ (s : State) (p : Fin 2) (mac : BitVec 48) (src target : Word32), (s.port p.val).linkUp = true →
    ∃ t, exec (.arpRequest p mac src target) s = .next t ∧ t = { s with out := t.out, cnt := t.cnt } ∧
      t.out = if (s.port p.val).ipv4 ≠ 0 ∧ target = (s.port p.val).ipv4
        then .arpReply p mac src (s.mac p.val) (s.port p.val).ipv4 :: s.out else s.out) ∧
  (∀ (s : State) (p : Fin 2) (src dst : BitVec 128) (d : List Byte), (s.port p.val).linkUp = true → d.length ≤ 9150 →
    (∃ t, exec (.icmpEcho p ⟨true, false⟩ src dst d) s = .next t ∧ t = { s with out := t.out, cnt := t.cnt } ∧
      t.out = if dst = s.linkLocal p.val ∨ (∃ x ∈ (s.port p.val).prefixes, dst = s.globalAddr p.val x)
        then .icmpReply p true dst src d :: s.out else s.out) ∧
    (∃ t, exec (.icmpEcho p ⟨false, false⟩ src dst d) s = .next t ∧ t = { s with out := t.out, cnt := t.cnt } ∧
      t.out = if (s.port p.val).ipv4 ≠ 0 ∧ dst.toNat = (s.port p.val).ipv4.toNat
        then .icmpReply p false dst src d :: s.out else s.out) ∧
    ∀ v6, ∃ t, exec (.icmpEcho p ⟨v6, true⟩ src dst d) s = .next t ∧ t = { s with cnt := t.cnt }) ∧
  (∀ (s : State) (p : Fin 2) (src target : BitVec 128), (s.port p.val).linkUp = true →
    ∃ t, exec (.neighbourDiscovery p src (.solicit target)) s = .next t ∧ t = { s with out := t.out, cnt := t.cnt } ∧
      t.out = if target = s.linkLocal p.val ∨ (∃ x ∈ (s.port p.val).prefixes, target = s.globalAddr p.val x)
        then .neighbourAdvert p src target (s.mac p.val) :: s.out else s.out) ∧
  (∀ (s : State) (p : Fin 2) (src : BitVec 128) (x : BitVec 64), (s.port p.val).linkUp = true →
    ∃ t, exec (.neighbourDiscovery p src (.prefixAdvert x)) s = .next t ∧ t = { s with eth := t.eth, cnt := t.cnt } ∧
      t.ownAddress p true (s.globalAddr p.val x) = true ∧
      t.port p.val = { s.port p.val with prefixes := (t.port p.val).prefixes } ∧
      (∀ y, y ∈ (t.port p.val).prefixes ↔ y ∈ (s.port p.val).prefixes ∨ y = x) ∧ ∀ k, k ≠ p.val → t.port k = s.port k) ∧
  (∀ (s : State) (p : Fin 2) (addr : Word32), (s.port p.val).linkUp = true → s.netStatic p.val = false →
    (∃ t, exec (.dhcpMessage p .offer s.nv.serial addr) s = .next t ∧ t = { s with out := t.out, cnt := t.cnt } ∧
      t.out = if (s.port p.val).ipv4 = 0 then .dhcp p s.nv.serial (some addr) :: s.out else s.out) ∧
    (∃ t, exec (.dhcpMessage p .ack s.nv.serial addr) s = .next t ∧ t = { s with eth := t.eth, cnt := t.cnt } ∧
      t.port p.val = { s.port p.val with ipv4 := addr } ∧ ∀ k, k ≠ p.val → t.port k = s.port k) ∧
    ∃ t, exec (.dhcpMessage p .nak s.nv.serial addr) s = .next t ∧
      t = { s with eth := t.eth, cnt := t.cnt, out := .dhcp p s.nv.serial none :: s.out } ∧
      t.port p.val = { s.port p.val with ipv4 := 0 } ∧ ∀ k, k ≠ p.val → t.port k = s.port k) ∧
  (∀ (s : State) (p : Fin 2) (kind : DhcpKind) (client : Word64) (addr : Word32), (s.port p.val).linkUp = true →
    (client ≠ s.nv.serial ∨ s.netStatic p.val = true) →
    ∃ t, exec (.dhcpMessage p kind client addr) s = .next t ∧ t = { s with cnt := t.cnt }) ∧
  (∀ (s : State) (p : Fin 2) (prios : Byte) (quanta : BitVec 16), (s.port p.val).linkUp = true →
    ∃ t, exec (.pfcPause p prios quanta) s = .next t ∧ t = { s with eth := t.eth, cnt := t.cnt } ∧
      (∀ k, k ≠ p.val → t.port k = s.port k) ∧
      t.port p.val = { s.port p.val with pause := (t.port p.val).pause } ∧
      ∀ c, c < 8 → NMap.get (0, 0) (t.port p.val).pause c =
        if (s.port p.val).live.getLsbD 4 = true ∧ prios.getLsbD c = true ∧ c = (s.port p.val).live.toNat / 32 % 8
        then (if quanta = 0 then (0, 0) else (quanta.toNat, s.time.ns)) else NMap.get (0, 0) (s.port p.val).pause c)


/-! ### Limits of heat and power (R385-R389) -/

/-- R387, R388, R389: a sensor at 108 degrees alerts, the trip drops every rail and stays until PWR_EN has been low; a
Floor's failed rail stops the Floor and the device, another one begins start-up again, and at the second within 1 s the
rails stay off; a droop counts.
Where the rules leave a point open, what is stated is the model's choice: logs 7, 10 and 58. -/
def Obligations.ThermalAndRails : Prop :=
  (∀ (s : State) (sensor : Fin 36) (temp : Byte), s.up = true → 108 ≤ temp.toNat →
    ∃ t, exec (.thermalAlert sensor temp) s = .next t ∧ t = { s with
      pwr := { s.pwr with thermHot := true, alert := s.pwr.alert ||| 2 }, leat := t.leat, out := t.out, cnt := t.cnt } ∧
      t.hasEvent 0x0042 [sensor.val, temp.toNat]) ∧
  (∀ s : State, s.pwr.pdOn ≠ 0 → s.pwr.thermTrip = false → ∃ t, exec .thermalTrip s = .next t ∧
    AfterReset { s with smb := { Smb.init with latched := s.smb.latched } } t ∧ t.alertLow = true ∧
    (∀ p : Fin 12, t.flumeDrive p.val = .undriven) ∧ (∀ p : Fin 2, t.ethDrive p.val = .undriven) ∧ t.pwr.thermTrip = true ∧ t.pwr.pdOn = 0 ∧ t.pwr.pwrGood = false ∧ t.pwr.pwrEn = s.pwr.pwrEn) ∧
  (∀ s : State, s.pwr.thermTrip = true → s.pwr.pwrEn = false →
    exec .thermalTripRelease s = .next { s with pwr := { s.pwr with thermTrip := false } }) ∧
  (∀ s : State, s.pwr.thermTrip = true → s.pwr.pwrEn = true → exec .thermalTripRelease s = .next s) ∧
  (∀ (s : State) (d : Fin 20) (b : Bool), s.pwr.pdOn.getLsbD d.val = true → 2 ≤ s.pwr.startStep → 7 ≤ d.val → d.val ≤ 14 →
    ∃ t, exec (.railFault d b) s = .next t ∧ t.run.failed = true ∧
      t.pwr = { s.pwr with pdOn := t.pwr.pdOn, alert := s.pwr.alert ||| 8, floors := t.pwr.floors } ∧
      (∀ k : Fin 20, t.pwr.pdOn.getLsbD k.val = (s.pwr.pdOn.getLsbD k.val && k != d)) ∧
      (s.run.failed = false → t.run.failClass = 3 ∧ t.ctx.active = false)) ∧
  (∀ (s : State) (d : Fin 20) (b : Bool), s.pwr.pdOn.getLsbD d.val = true → 2 ≤ s.pwr.startStep → (d.val < 7 ∨ 14 < d.val) →
    ∃ t, exec (.railFault d b) s = .next t ∧
      AfterReset { s with smb := { Smb.init with latched := s.smb.latched } } t ∧ t.pwr.pwrGood = false ∧
      (s.pwr.railFaulted = true ∧ b = true → t.alertLow = true ∧ t.pwr.pdOn = 0 ∧ t.pwr.startStep = 0 ∧ t.pwr.railLock = true) ∧
      (¬ (s.pwr.railFaulted = true ∧ b = true) → t.pwr.pdOn = BitVec.allOnes 20 ∧ t.pwr.startStep = 2 ∧ t.pwr.railFaulted = true)) ∧
  (∀ (s : State) (f : Fin 8), s.up = true → s.pwr.pdOn.getLsbD (7 + f.val) = true →
    ∃ t, exec (.droop f) s = .next t ∧ t = { s with cnt := t.cnt } ∧ t.source (cPower 0) = s.source (cPower 0) + 1)

/-- R384, R385, R386: in each period every Floor's setpoint falls by 10 mV over the cap or the target temperature, rises by
10 mV 25 W under the cap, never passes its base, and never falls below VMIN while the cap holds below 105 degrees. R230:
after a lending a borrower takes back its setting from before it, and an ex-lender one period later; lending sets the modes
and the borrowers' setting.
Where the rules leave a point open, what is stated is the model's choice: logs 21 and 68. -/
def Obligations.GovernorPeriods : Prop :=
  (∀ (s : State) (p w mv : Nat) (tj : List Byte) (spine : Byte), s.up = true → s.time.running = true → s.time.ns % 10000 = 0 →
    ∃ t, exec (.governorPeriod p w mv tj spine) s = .next t ∧
      t = { s with pwr := t.pwr, cnt := t.cnt, leat := t.leat, out := t.out } ∧
      t.pwr.windowW = w ∧ t.pwr.inputMv = mv ∧ t.pwr.spineTj = spine ∧ t.pwr.capW = s.pwr.capW ∧
      (∀ f, f < 8 → (s.floorGov f).late = true → (t.floorGov f).setMv = (s.floorGov f).setMv ∧ (t.floorGov f).late = false) ∧
      ∀ f, f < 8 → (s.floorGov f).mode = 0 → (s.floorGov f).late = false →
        (t.floorGov f).tj = tj.getD f 0 ∧ (t.floorGov f).mode = 0 ∧ (t.floorGov f).back = 0 ∧
        (t.floorGov f).setMv = max (min
          (if (s.floorGov f).back ≠ 0 then (s.floorGov f).back else if s.pwr.capW * 1000 < p + 10000 ∨ s.pwr.targetC < (tj.getD f 0).toNat then (s.floorGov f).setMv - 10
           else if p + 25000 < s.pwr.capW * 1000 then (s.floorGov f).setMv + 10 else (s.floorGov f).setMv) s.pwr.baseMv)
          (if p ≤ s.pwr.capW * 1000 ∧ (tj.getD f 0).toNat < 105 then vmin (tj.getD f 0).toNat else 600)) ∧
  (∀ (s : State) (f : Fin 8) (p : Nat) (rails : List Nat) (img : Image), s.image = some img → s.mayLend img f.val = true →
    s.ctx.lending.getLsbD f.val = false → ∃ t, exec (.lendStart f p rails) s = .next t ∧
      t = { s with pwr := { s.pwr with floors := t.pwr.floors, borrowMv := t.pwr.borrowMv }, ctx := { s.ctx with lending := t.ctx.lending }, cnt := t.cnt } ∧
      (∀ k, k < 8 → t.ctx.lending.getLsbD k = (s.ctx.lending.getLsbD k || k == f.val)) ∧
      (∀ k, k < 8 → (t.floorGov k).mode = if t.ctx.lending.getLsbD k then 1 else 2) ∧
      t.source (cWeir 4) = s.source (cWeir 4) + 1 ∧ t.pwr.borrowMv = t.borrowFor p rails)

/-- R302, R303, R304: each evaluation records the five scores and the risk they give; at the threshold an armed monitor counts a
trigger and disarms: with a context running the trigger is held for a snapshot, and the Wheel is asked for a digest comparison
(R266, log 77); without one the trigger is discarded.
Where the rules leave a point open, what is stated is the model's choice: logs 68, 71 and 77. -/
def Obligations.HealthMonitor : Prop :=
  (∀ s : State, s.up = true → s.time.running = true → s.time.ns % 10000000 = 0 → ∃ t, exec .healthEvaluation s = .next t ∧
    t = { s with health := t.health, snap := t.snap, ops := t.ops, opSerial := t.opSerial, cnt := t.cnt, wheel := t.wheel } ∧
    t.health.scores = s.scores ∧ t.health.risk = risk s.health.weights s.scores ∧
    t.health.cfg = s.health.cfg ∧ t.health.weights = s.health.weights ∧
    (s.health.armed = true → bitsOf s.health.cfg.toNat 7 0 ≤ t.health.risk →
      t.health.armed = false ∧ t.health.lastTrigger = some s.time.ns ∧ t.source (cSnap 0) = s.source (cSnap 0) + 1 ∧
      (s.ctx.active = true → s.jobRuns = true → t.snap = { s.snap with held := true, heldHandle := t.snap.heldHandle } ∧
        (s.snap.held = true → t.snap = s.snap ∧ t.ops = s.ops) ∧
        t.wheel = { s.wheel with
          suspected := s.wheel.suspected || s.run.inStep, suspectNext := s.wheel.suspectNext || !s.run.inStep }) ∧
      (s.ctx.active = false ∨ s.jobRuns = false → t.snap = s.snap ∧ t.ops = s.ops ∧ t.wheel = s.wheel)) ∧
    (s.health.armed = false ∨ t.health.risk < bitsOf s.health.cfg.toNat 7 0 → t.snap = s.snap ∧ t.ops = s.ops ∧
      t.wheel = s.wheel ∧ t.cnt = s.cnt ∧ t.health.lastTrigger = s.health.lastTrigger)) ∧
  (∀ (w : BitVec 20) (ce retrain droop temp neighbour : Nat), risk w [ce, retrain, droop, temp, neighbour] =
    min 255 ((bitsOf w.toNat 3 0 * ce + bitsOf w.toNat 7 4 * retrain + bitsOf w.toNat 11 8 * droop + bitsOf w.toNat 15 12 * temp +
      bitsOf w.toNat 19 16 * neighbour) / 16)) ∧ (∀ s : State, ∀ x ∈ s.scores, x ≤ 255)

/-- R93, R215, R229: a release lets its stream run again and ends its Floor's lending; a moved pointer lets a blocked stream present
again; until then both commands change nothing.
R227, R228: a context in which nothing has moved for the image's time while a stream runs or waits is deadlocked: that
is counted and reported once, and the log takes the oldest blocked item unless it already holds one.
Where the rules leave a point open, what is stated is the model's choice: logs 7, 61 and 70. -/
def Obligations.ReleasesAndPointers : Prop :=
  (∀ (s : State) (sid : Sid) (img : Image) (w i : Nat), s.image = some img → (s.stream (sidKey sid)).stat = .atWeir w →
    img.weirIndex w sid.owner sid.kind = some i → s.weirReleased img w sid.owner sid.kind = true →
    ∃ t, exec (.weirRelease sid) s = .next t ∧ t = { s with
        streams := t.streams, weirs := t.weirs, pwr := { s.pwr with floors := t.pwr.floors }
        ctx := { s.ctx with lending := s.ctx.lending &&& ~~~(BitVec.ofNat 8 (2 ^ img.streamFloor (sidKey sid))) } } ∧
      t.stream (sidKey sid) = { s.stream (sidKey sid) with stat := .running } ∧
      (∀ k, k ≠ sidKey sid → t.stream k = s.stream k) ∧ (∀ q, q ≠ img.weirPhys w → t.weirSt q = s.weirSt q) ∧
      t.weirSt (img.weirPhys w) = { s.weirSt (img.weirPhys w) with
        releasing := (s.weirSt (img.weirPhys w)).releasing.filter fun r => r.1 != i }) ∧
  (∀ (s : State) (sid : Sid) (img : Image) (w : Nat), s.image = some img → (s.stream (sidKey sid)).stat = .atWeir w →
    s.weirReleased img w sid.owner sid.kind = false → exec (.weirRelease sid) s = .next s) ∧
  (∀ (s : State) (sid : Sid) (img : Image) (key : Nat) (prod : Bool) (d : RaceDef), s.image = some img →
    (s.stream (sidKey sid)).stat = .onRace key prod → img.race (key / 64) (key % 64) = some d →
    (if prod then (s.raceSt key).occ < d.capacity else (s.raceSt key).occ ≠ 0) →
    exec (.raceUnblock sid) s = .next (s.setStream (sidKey sid) { s.stream (sidKey sid) with stat := .running })) ∧
  (∀ (s : State) (sid : Sid) (img : Image) (key : Nat) (prod : Bool) (d : RaceDef), s.image = some img →
    (s.stream (sidKey sid)).stat = .onRace key prod → img.race (key / 64) (key % 64) = some d →
    ¬ (if prod then (s.raceSt key).occ < d.capacity else (s.raceSt key).occ ≠ 0) → exec (.raceUnblock sid) s = .next s) ∧
  (∀ (s : State) (img : Image), s.image = some img → s.ctx.active = true → s.ctx.reported = false →
    img.deadlockNs ≤ s.time.ns - s.ctx.progress → (s.streams.any fun p => p.2.live) = true →
    ∃ t, exec .deadlockDetect s = .next t ∧
      t = { s with ctx := { s.ctx with reported := true }, deadLog := t.deadLog, cnt := t.cnt, leat := t.leat, out := t.out } ∧
      t.source (cWeir 3) = s.source (cWeir 3) + 1 ∧
      t.deadLog = (if s.deadLog.valid then s.deadLog
        else ⟨true, (s.oldestBlocked img).kind, (s.oldestBlocked img).item, BitVec.ofNat 32 (s.oldestBlocked img).detail⟩) ∧
      ∃ d, t.hasEvent 0x0002 d) ∧
  (∀ (s : State) (img : Image), s.image = some img → (s.ctx.active = false ∨ s.ctx.reported = true ∨
    s.time.ns - s.ctx.progress < img.deadlockNs) → exec .deadlockDetect s = .next s)


/-! ### Flume links (R234-R246) -/

/-- R234, R235, R236: a flit that has been put together is received with every field as it was sent, and also when any one
bit of any one of its words has been flipped on the way; the correction is then counted. -/
def Obligations.FlitSurvivesOneBit : Prop :=
  ∀ (typ cls first seq ack crCls credits : Nat) (payload : List Nat), typ < 16 → cls < 4 → first < 2 ^ 32 → seq < 2 ^ 16 →
    ack < 2 ^ 16 → crCls < 4 → credits < 1024 → payload.length ≤ 62 → (∀ x ∈ payload, x < 2 ^ 64) →
    ∀ (i bit : Nat), i < 64 → bit ≤ 72 →
      let ws := flitWords typ cls first seq ack crCls credits payload
      let f := flitIn (setAt ws i (ws.getD i 0 ^^^ BitVec.ofNat 72 (2 ^ bit % 2 ^ 72)))
      f.ok = true ∧ f.headOk = true ∧ f.ce = (if bit < 72 then 1 else 0) ∧ f.typ = typ ∧ f.cls = cls ∧ f.count = payload.length ∧
        f.seq = seq ∧ f.ack = ack ∧ f.crCls = crCls ∧ f.credits = credits ∧ f.payload.take f.count = payload

/-- R240, R241, R242: a port trains from DETECT through TRAIN_2, CAPS and TRAIN_3 to ACTIVE, maps its lanes from the good
ones, and enters DOWN where a direction has fewer than two; DOWN lasts 10 ms; a RETRAIN that does not end, in its CAPS
too, and a link that goes idle, enter DOWN; a RETRAIN that ends goes back through CAPS with its replay buffer kept, and is ACTIVE again
when the same neighbour answers.
Where the rules leave a point open, what is stated is the model's choice: log 65. -/
def Obligations.FlumeTraining : Prop :=
  (∀ (s : State) (p : Fin 12) (lanes : BitVec 5), (s.fport p.val).st = .detect → s.portTrains p.val = true →
    2 ≤ (goodLanes lanes).length → ∃ t, exec (.flumeSignalDetect p lanes) s = .next t ∧
      t = { s with flume := t.flume, out := .lanes p true :: s.out } ∧ (∀ k, k ≠ p.val → t.fport k = s.fport k) ∧
      t.fport p.val = { s.fport p.val with st := .train2, live := (s.fport p.val).cfg, mode := 0 }) ∧
  (∀ (s : State) (p : Fin 12) (rx tx : BitVec 5), (s.fport p.val).st = .train2 → s.canTrain (6 + p.val) = true →
    2 ≤ (goodLanes rx).length → 2 ≤ (goodLanes tx).length → ∃ t, exec (.flumeTrainDone p rx tx) s = .next t ∧
      t = { s with flume := t.flume, out := t.out } ∧ (∀ k, k ≠ p.val → t.fport k = s.fport k) ∧
      (t.fport p.val).st = .caps ∧ (t.fport p.val).mode = 1 ∧ (t.fport p.val).good2 = (rx, tx) ∧
      (t.fport p.val).rx.map = (goodLanes rx).take (if 4 ≤ (goodLanes rx).length then 4 else 2) ∧
      (t.fport p.val).tx.map = (goodLanes tx).take (if 4 ≤ (goodLanes tx).length then 4 else 2) ∧
      (t.fport p.val).rx.retired = ~~~rx ∧ (t.fport p.val).tx.retired = ~~~tx) ∧
  (∀ (s : State) (p : Fin 12) (rx tx : BitVec 5), (s.fport p.val).st = .train2 → s.canTrain (6 + p.val) = true →
    ((goodLanes rx).length < 2 ∨ (goodLanes tx).length < 2) → ∃ t, exec (.flumeTrainDone p rx tx) s = .next t ∧ WentDown s t p) ∧
  (∀ (s : State) (p : Fin 12) (rx tx : BitVec 5), (s.fport p.val).st = .train3 → s.canTrain (6 + p.val) = true →
    4 ≤ (goodLanes rx).length → 4 ≤ (goodLanes tx).length → ∃ t, exec (.flumeTrainDone p rx tx) s = .next t ∧
      t = { s with flume := t.flume } ∧ (t.fport p.val).st = .active ∧ (t.fport p.val).mode = 2 ∧
      (t.fport p.val).rx.map = (goodLanes rx).take 4 ∧ ∀ k, k ≠ p.val → t.fport k = s.fport k) ∧
  (∀ (s : State) (p : Fin 12) (words : List (BitVec 72)), (s.fport p.val).st = .caps → (flitIn words).ok = true →
    (flitIn words).typ = 4 → (s.fport p.val).retraining = false → ∃ t, exec (.cap p words) s = .next t ∧
      t = { s with flume := t.flume, cnt := t.cnt } ∧ (∀ k, k ≠ p.val → t.fport k = s.fport k) ∧
      (t.fport p.val).st = (if bitOf ((flitIn words).payload.getD 0 0) 49 = true ∧ (s.fport p.val).live.getLsbD 30 = false ∧
        bitsOf ((flitIn words).payload.getD 0 0) 63 56 ≠ 6 then .train3 else .active) ∧
      (t.fport p.val).peerPort = bitsOf ((flitIn words).payload.getD 0 0) 47 44 ∧
      (t.fport p.val).nowSerial = BitVec.ofNat 64 ((flitIn words).payload.getD 1 0)) ∧
  (∀ (s : State) (p : Fin 12) (words : List (BitVec 72)), (s.fport p.val).st = .caps → (flitIn words).ok = true →
    (flitIn words).typ = 4 → (s.fport p.val).retraining = true →
    ((s.fport p.val).peerSerial = some (BitVec.ofNat 64 ((flitIn words).payload.getD 1 0)) →
      ∃ t, exec (.cap p words) s = .next t ∧ LinkOnly s t ∧ (t.fport p.val).st = .active ∧ (t.fport p.val).retraining = false ∧
        ∀ k, k ≠ p.val → t.fport k = s.fport k) ∧
    ((s.fport p.val).peerSerial ≠ some (BitVec.ofNat 64 ((flitIn words).payload.getD 1 0)) →
      ∃ t, exec (.cap p words) s = .next t ∧ (t.fport p.val).st = .down ∧ t.source (cFlume p.val 6) = s.source (cFlume p.val 6) + 1)) ∧
  (∀ (s : State) (p : Fin 12), ((s.fport p.val).st = .retrain ∨ (s.fport p.val).st = .caps ∧ (s.fport p.val).retraining = true) →
    ∃ t, exec (.retrainTimeout p) s = .next t ∧ WentDown s t p) ∧
  (∀ (s : State) (p : Fin 12), (s.fport p.val).st ≠ .disabled → (s.fport p.val).st ≠ .detect → (s.fport p.val).st ≠ .down →
    ∃ t, exec (.flumeRxIdle p) s = .next t ∧ WentDown s t p) ∧
  (∀ (s : State) (p : Fin 12), (s.fport p.val).st = .down → s.portRuns p.val = true →
    (s.fport p.val).downAt + 10000000 ≤ s.time.ns → ∃ t, exec (.flumeDownTimeout p) s = .next t ∧
      t = { s with flume := t.flume } ∧ t.fport p.val = { s.fport p.val with st := .detect, live := (s.fport p.val).cfg } ∧
      ∀ k, k ≠ p.val → t.fport k = s.fport k) ∧
  (∀ (s : State) (p : Fin 12) (rx tx : BitVec 5), (s.fport p.val).st = .retrain → s.canTrain (6 + p.val) = true →
    2 ≤ (goodLanes rx).length → 2 ≤ (goodLanes tx).length → ∃ t, exec (.retrainDone p rx tx) s = .next t ∧
      t = { s with flume := t.flume, out := t.out } ∧ (∀ k, k ≠ p.val → t.fport k = s.fport k) ∧
      (t.fport p.val).st = .caps ∧ (t.fport p.val).retraining = true ∧ (t.fport p.val).replay = (s.fport p.val).replay ∧
      (t.fport p.val).rx.map = (goodLanes rx).take (if 4 ≤ (goodLanes rx).length then 4 else 2))

/-- R243, R244, R245: a receive lane that is lost, or has more corrected bits in 1 ms than LANE_CE_LIMIT, goes to the spare and a
REQ SPARE follows, two lost lanes make the port retrain, a pending request is sent again, and a retired lane comes back by
way of a shadow. R234: a corrected bit is that of the lane which carries its place in the codeword.
R237, R244, R245, R246: a NAK resends and counts, and the eighth in succession makes the port retrain; REQ SPARE and REQ NARROW change the
sender's map, REQ ADMIT takes a shadow and REQ SWITCHED ends it; a MARK in order changes the receiver's map.
Where the rules leave a point open, what is stated is the model's choice: logs 7, 32 and 65. -/
def Obligations.LanesAndLinkRequests : Prop :=
  (∀ (s : State) (p : Fin 12) (a b : Fin 5), a ≠ b → (s.fport p.val).st = .active →
    (s.fport p.val).rx.map.contains a.val = true → (s.fport p.val).rx.map.contains b.val = true →
    (s.fport p.val).rx.retired = 0 → ∃ t, exec (.laneLockLoss p (BitVec.ofNat 5 (2 ^ a.val + 2 ^ b.val))) s = .next t ∧
      LinkOnly s t ∧ (t.fport p.val).st = .retrain ∧ (t.fport p.val).replay = (s.fport p.val).replay ∧
      t.source (cFlume p.val 3) = s.source (cFlume p.val 3) + 1 ∧ ∀ k, k ≠ p.val → t.fport k = s.fport k) ∧
  (∀ (s : State) (p : Fin 12) (lane : Fin 5) (l : Nat), (s.fport p.val).st = .active → (s.fport p.val).rx.map.length = 4 →
    (s.fport p.val).rx.spare < 5 → (s.fport p.val).rx.retired = 0 → findIdx (· == lane.val) (s.fport p.val).rx.map = some l →
    (s.fport p.val).rxBefore = none →
    (∃ t, exec (.laneLockLoss p (BitVec.ofNat 5 (2 ^ lane.val))) s = .next t ∧ LaneSpared s t p lane.val l) ∧
    ((s.fport p.val).ceLimit < (s.fport p.val).laneBits lane.val →
      ∃ t, exec (.laneCeLimit p lane) s = .next t ∧ LaneSpared s t p lane.val l)) ∧
  (∀ (s : State) (p : Fin 12) (lane : Fin 5), (s.fport p.val).laneBits lane.val ≤ (s.fport p.val).ceLimit →
    exec (.laneCeLimit p lane) s = .next s) ∧
  (∀ (q : FlumePort) (now lane : Nat) (bits : List Nat), bits ≠ [] → q.rx.map.length = 4 →
    (q.corrected now bits).laneBits lane = (bits.filter fun b => q.rx.map.getD (b / 18) 7 == lane).length +
      (q.ceLog.filter fun e => decide (now < e.1 + 1000000) && e.2 == lane).length) ∧
  (∀ (s : State) (p : Fin 12) (r : LaneReq), (s.fport p.val).req = some r → (s.fport p.val).st = .active →
    exec (.reqRepeat p) s = .next (s.sendFlit p.val 3 0 0 0
      [r.cmd * 2 ^ 60 + r.logical * 2 ^ 58 + r.phys * 2 ^ 55 + r.seq % 65536 * 2 ^ 32])) ∧
  (∀ (s : State) (p : Fin 12), (s.fport p.val).req = none → exec (.reqRepeat p) s = .next s) ∧
  (∀ (s : State) (p : Fin 12) (lane : Fin 5), (s.fport p.val).st = .active → (s.fport p.val).rx.retired.getLsbD lane.val = true →
    (s.fport p.val).rx.shadow = none → (s.fport p.val).req = none → ∃ t, exec (.lanePrbsPassed p lane) s = .next t ∧ LinkOnly s t ∧
      (t.fport p.val).rx = { (s.fport p.val).rx with shadow := some lane.val } ∧ (t.fport p.val).tx = (s.fport p.val).tx ∧
      (∀ k, k ≠ p.val → t.fport k = s.fport k) ∧ ∃ words, t.out = .flit p words :: s.out) ∧
  (∀ (s : State) (p : Fin 12) (lane : Fin 5) (n : BitVec 16) (h : Nat), (s.fport p.val).st = .active →
    (s.fport p.val).rx.shadow = some lane.val → (s.fport p.val).rx.map.length = 4 → findIdx (· == lane.val) (s.fport p.val).rx.home = some h →
    ∃ t, exec (.laneShadowMatch p lane n) s = .next t ∧ LinkOnly s t ∧ (t.fport p.val).rx.map = setAt (s.fport p.val).rx.map h lane.val ∧
      (t.fport p.val).rx.released = (s.fport p.val).rx.map[h]? ∧ (t.fport p.val).rx.retired.getLsbD lane.val = false ∧
      (t.fport p.val).req = some ⟨5, h, lane.val, n.toNat⟩ ∧ t.source (cFlume p.val 5) = s.source (cFlume p.val 5) + 1 ∧
      ∀ k, k ≠ p.val → t.fport k = s.fport k) ∧
  (∀ (s : State) (p : Fin 12) (words : List (BitVec 72)) (f : SentFlit) (fs : List SentFlit), FlitGood s p words 3 →
    bitsOf ((flitIn words).payload.getD 0 0) 63 60 = 1 → ackReplay (flitIn words).ack (s.fport p.val).replay = f :: fs →
    bitsOf ((flitIn words).payload.getD 0 0) 47 32 = f.seq → ∃ t, exec (.nak p words) s = .next t ∧ LinkOnly s t ∧
      t.source (cFlume p.val 2) = s.source (cFlume p.val 2) + (if f.sends < 7 then 1 else 0) ∧
      (t.fport p.val).st = (if f.sends < 7 then .active else .retrain) ∧
      (s.wheel.active = true → 1 ≤ s.role p.val → s.role p.val ≤ 6 → t.wheel.suspected = true) ∧
      ∀ k, k ≠ p.val → t.fport k = s.fport k) ∧
  (∀ (s : State) (p : Fin 12) (words : List (BitVec 72)) (l phys old : Nat), FlitGood s p words 3 →
    bitsOf ((flitIn words).payload.getD 0 0) 63 60 = 2 → bitsOf ((flitIn words).payload.getD 0 0) 59 58 = l →
    bitsOf ((flitIn words).payload.getD 0 0) 57 55 = phys → (s.fport p.val).tx.map[l]? = some old → old ≠ phys →
    (s.fport p.val).txBefore = none → ∃ t, exec (.spare p words) s = .next t ∧ LinkOnly s t ∧ (t.fport p.val).tx.map = setAt (s.fport p.val).tx.map l phys ∧
      (t.fport p.val).tx.spare = 7 ∧ (t.fport p.val).tx.retired = (s.fport p.val).tx.retired ||| BitVec.ofNat 5 (2 ^ old) ∧
      (t.fport p.val).rx = (s.fport p.val).rx) ∧
  (∀ (s : State) (p : Fin 12) (words : List (BitVec 72)) (lane : Nat), FlitGood s p words 3 →
    bitsOf ((flitIn words).payload.getD 0 0) 63 60 = 3 → bitsOf ((flitIn words).payload.getD 0 0) 57 55 = lane →
    (s.fport p.val).txBefore = none → ∃ t, exec (.narrow p words) s = .next t ∧ LinkOnly s t ∧
      (t.fport p.val).tx.map = (goodLanes (~~~((s.fport p.val).tx.retired ||| BitVec.ofNat 5 (2 ^ lane)))).take 2 ∧
      (t.fport p.val).tx.retired = (s.fport p.val).tx.retired ||| BitVec.ofNat 5 (2 ^ lane)) ∧
  (∀ (s : State) (p : Fin 12) (words : List (BitVec 72)), FlitGood s p words 3 → bitsOf ((flitIn words).payload.getD 0 0) 63 60 = 4 →
    ∃ t, exec (.admitLane p words) s = .next t ∧ LinkOnly s t ∧ (t.fport p.val).tx = { (s.fport p.val).tx with
      shadow := some (bitsOf ((flitIn words).payload.getD 0 0) 57 55) }) ∧
  (∀ (s : State) (p : Fin 12) (words : List (BitVec 72)) (lane h : Nat), FlitGood s p words 3 →
    bitsOf ((flitIn words).payload.getD 0 0) 63 60 = 5 → bitsOf ((flitIn words).payload.getD 0 0) 57 55 = lane →
    (s.fport p.val).tx.shadow = some lane → (s.fport p.val).tx.map.length = 4 → findIdx (· == lane) (s.fport p.val).tx.home = some h →
    h < 4 → ∃ t, exec (.switched p words) s = .next t ∧ LinkOnly s t ∧ (t.fport p.val).tx.map = setAt (s.fport p.val).tx.map h lane ∧
      (t.fport p.val).tx.shadow = none ∧ (t.fport p.val).tx.spare = (s.fport p.val).tx.map.getD h 7) ∧
  (∀ (s : State) (p : Fin 12) (words : List (BitVec 72)) (lane : Nat), FlitGood s p words 2 →
    (flitIn words).seq = (s.fport p.val).rxSeq → bitsOf ((flitIn words).payload.getD 0 0) 63 60 = 1 →
    bitsOf ((flitIn words).payload.getD 0 0) 57 55 = lane → ∃ t, exec (.mark p words) s = .next t ∧ LinkOnly s t ∧
      (t.fport p.val).rx = (if (s.fport p.val).cancelled then (s.fport p.val).rx
        else { (s.fport p.val).rx with spare := lane, released := none }) ∧
      (t.fport p.val).rxSeq = ((s.fport p.val).rxSeq + 1) % 65536 ∧ (t.fport p.val).tx = (s.fport p.val).tx)

/-- R235, R237, R238: an IDLE flit gives its ACK and its credits; a DATA flit in order is taken, its buffer is due back, and an
IDLE flit tells the sender so when nothing else is ready; a frame that it completes is handled; a flit that fails, or a DATA flit
out of order, is not.
Where the rules leave a point open, what is stated is the model's choice: logs 31, 59 and 65. -/
def Obligations.FlitsArrive : Prop :=
  (∀ (s : State) (p : Fin 12) (words : List (BitVec 72)), FlitGood s p words 0 → LinkQuiet s p → (s.fport p.val).untold = false →
    ∃ t, exec (.idle p words) s = .next t ∧ t = { s with flume := t.flume, cnt := t.cnt } ∧ (∀ k, k ≠ p.val → t.fport k = s.fport k) ∧
      t.fport p.val = { s.fport p.val with
        acked := (flitIn words).ack, replay := ackReplay (flitIn words).ack (s.fport p.val).replay
        ceLog := ((s.fport p.val).corrected s.time.ns (flitIn words).bits).ceLog
        credits := setAt (s.fport p.val).credits (flitIn words).crCls
          (min 128 ((s.fport p.val).credits.getD (flitIn words).crCls 0 + (flitIn words).credits)) } ∧
      t.source (cFlume p.val 0) = s.source (cFlume p.val 0) + (flitIn words).ce) ∧
  (∀ (s : State) (p : Fin 12) (words : List (BitVec 72)), FlitGood s p words 1 → LinkQuiet s p → (s.fport p.val).freed = [0, 0, 0, 0] →
    (flitIn words).seq = (s.fport p.val).rxSeq →
    takeFrame ((s.fport p.val).rxBuf.getD (flitIn words).cls [] ++
      ((flitIn words).payload.take (flitIn words).count).flatMap (leBytes 8)) = none →
    ∃ t, exec (.data p words) s = .next t ∧ t = { s with flume := t.flume, out := t.out, cnt := t.cnt } ∧
      (∀ k, k ≠ p.val → t.fport k = s.fport k) ∧
      (t.fport p.val).rxSeq = ((s.fport p.val).rxSeq + 1) % 65536 ∧ (t.fport p.val).nakSent = false ∧ (t.fport p.val).rxFails = 0 ∧
      (t.fport p.val).rxBuf = setAt (s.fport p.val).rxBuf (flitIn words).cls ((s.fport p.val).rxBuf.getD (flitIn words).cls [] ++
        ((flitIn words).payload.take (flitIn words).count).flatMap (leBytes 8)) ∧
      (t.fport p.val).freed = [0, 0, 0, 0] ∧ (t.fport p.val).told = (flitIn words).seq ∧
      t.out = .flit p (flitWords 0 0 0 0 (flitIn words).seq (flitIn words).cls 1 []) :: s.out) ∧
  (∀ (f : Frame) (more : List Byte), f.body.length < 2 ^ 24 → takeFrame (frameBytes f ++ more) = some (f, more)) ∧
  (∀ (s : State) (p : Fin 12) (words : List (BitVec 72)), (s.fport p.val).st = .active → (flitIn words).ok = false →
    (s.fport p.val).nakSent = false → (s.fport p.val).req = none → (s.fport p.val).rxFails < 7 →
    ∀ c ∈ [Instr.idle p words, .data p words, .mark p words, .nak p words, .spare p words, .narrow p words, .admitLane p words,
      .switched p words], ∃ t, exec c s = .next t ∧ t = { s with flume := t.flume, out := t.out, cnt := t.cnt } ∧
      t.source (cFlume p.val 1) = s.source (cFlume p.val 1) + 1 ∧ (t.fport p.val).rxSeq = (s.fport p.val).rxSeq ∧
      (t.fport p.val).nakSent = true ∧ (t.fport p.val).replay = (s.fport p.val).replay ∧ (t.fport p.val).credits = (s.fport p.val).credits ∧
      (∀ k, k ≠ p.val → t.fport k = s.fport k) ∧ ∃ ws, t.out = .flit p ws :: s.out) ∧
  (∀ (s : State) (p : Fin 12) (words : List (BitVec 72)), FlitGood s p words 1 → (flitIn words).seq ≠ (s.fport p.val).rxSeq →
    (s.fport p.val).nakSent = true → (s.fport p.val).rxFails < 8 → ∃ t, exec (.data p words) s = .next t ∧
      t = { s with flume := t.flume, cnt := t.cnt } ∧ (t.fport p.val).rxSeq = (s.fport p.val).rxSeq ∧
      (t.fport p.val).rxBuf = (s.fport p.val).rxBuf)


/-! ### Frames of the group (R239, R247-R266) -/

/-- R250, R251: a frame for another device is taken into the port's digest and sent on by role, whatever its KIND, and changes
nothing else; on a port of role 0 or 7, or one that faces a GM6, it changes nothing. A class 0 frame that comes before its step is
admitted is held for the admission (R266).
R255: at a hop that is not the owner's, a block of finite values keeps every element within 127 of zero, its exponent never
falls and is the smallest that covers the sums, RESCALED is set exactly when it was set or the exponent rose, and an exponent of
0xFF or a non-finite local value makes a NaN block.
Where the rules leave a point open, what is stated is the model's choice: logs 7 and 52. -/
def Obligations.FramesForwarded : Prop :=
  (∀ (s : State) (p : Fin 12) (f : Frame) (img : Image), f.dest.toNat ≠ s.wheel.device →
    (FrameIn s p f 1 img → exec (.ringChunk p f) s = .next ((s.digestFrame img (9 + 2 * p.val) f).sendTo img f)) ∧
    (FrameIn s p f 2 img → exec (.compressedContribution p f) s = .next ((s.digestFrame img (9 + 2 * p.val) f).sendTo img f)) ∧
    (FrameIn s p f 3 img → exec (.gatherChunk p f) s = .next ((s.digestFrame img (9 + 2 * p.val) f).sendTo img f)) ∧
    (FrameIn s p f 4 img → exec (.dispatchRow p f) s = .next ((s.digestFrame img (9 + 2 * p.val) f).sendTo img f)) ∧
    (FrameIn s p f 5 img → exec (.returnRow p f) s = .next ((s.digestFrame img (9 + 2 * p.val) f).sendTo img f)) ∧
    (FrameIn s p f 6 img → exec (.rowCount p f) s = .next ((s.digestFrame img (9 + 2 * p.val) f).sendTo img f)) ∧
    (FrameIn s p f 9 img → exec (.controlFrame p f) s = .next ((s.digestFrame img (9 + 2 * p.val) f).sendTo img f))) ∧
  (∀ (s : State) (p : Fin 12) (f : Frame) (img : Image), s.image = some img → img.hasBuckets = true →
    (s.role p.val = 0 ∨ s.role p.val = 7 ∨ (s.fport p.val).peerGm6 = true) →
    exec (.ringChunk p f) s = .next s ∧
    exec (.compressedContribution p f) s = .next s ∧
    exec (.gatherChunk p f) s = .next s ∧
    exec (.dispatchRow p f) s = .next s ∧
    exec (.returnRow p f) s = .next s ∧
    exec (.rowCount p f) s = .next s ∧
    exec (.controlFrame p f) s = .next s) ∧
  (∀ (s : State) (p : Fin 12) (f : Frame) (img : Image), (s.fport p.val).st = .active → s.image = some img → s.wheel.valid = true →
    (s.fport p.val).peerGm6 = false → 1 ≤ s.role p.val → s.role p.val ≤ 6 → s.wheel.active = false →
    (f.kind = 1 → exec (.ringChunk p f) s = .next { s with wheel := { s.wheel with heldFrames := s.wheel.heldFrames ++ [(p, f)] } }) ∧
    (f.kind = 2 → exec (.compressedContribution p f) s =
      .next { s with wheel := { s.wheel with heldFrames := s.wheel.heldFrames ++ [(p, f)] } }) ∧
    (f.kind = 3 → exec (.gatherChunk p f) s = .next { s with wheel := { s.wheel with heldFrames := s.wheel.heldFrames ++ [(p, f)] } })) ∧
  (∀ (e : Nat) (ns : List Byte) (resc : Bool) (xs : List Nat), e = 0xFF ∨ (xs.any fun x => !(dec32 x).isFinite) = true →
    (hopBlock false e ns resc xs).e = 0xFF ∧ (hopBlock false e ns resc xs).n = xs.map (fun _ => 0) ∧
      (hopBlock false e ns resc xs).rescaled = resc) ∧
  (∀ (e : Nat) (ns : List Byte) (resc : Bool) (xs : List Nat), e < 0xFF → (xs.any fun x => !(dec32 x).isFinite) = false →
    ns.length = 32 → xs.length = 32 →
    let h := hopBlock false e ns resc xs
    let m := maxAbs (h.vs.map dec32)
    e ≤ h.e ∧ h.e ≤ 0xFE ∧ h.n.length = 32 ∧ (∀ n ∈ h.n, n ≠ 0x80) ∧ h.rescaled = (resc || decide (h.e ≠ e)) ∧
      (h.e < 0xFE → (FV.fin false 127 1 ((h.e : Int) - 133)).magLt m = false) ∧
      (∀ k, e ≤ k → k < h.e → (FV.fin false 127 1 ((k : Int) - 133)).magLt m = true) ∧
      h.vs = (hopBlock true e ns resc xs).vs)

/-- R255, R257: the owner of a ring piece adds the chunk's blocks to its own values without raising the exponent, and its count
to the frame's; another device sends the blocks that R255 gives on to its + neighbour, with its count added.
Where the rules leave a point open, what is stated is the model's choice: log 38. -/
def Obligations.RingChunks : Prop :=
  (∀ (s : State) (p : Fin 12) (f : Frame) (img : Image) (b j stage : Nat) (st : RStage) (r : RRange), FrameHere s p f 1 img →
    b = f.id.toNat / 65536 → j = f.id.toNat % 65536 → RingPlace s img p.val b j stage st r → (img.bucket b).mode = 0 →
    (s.bucketSt b).st = .reducing → stage < (s.bucketSt b).counts.length →
    (s.bucketSt b).handled stage j < pieceFrames (r.piece j).1 (r.piece j).2 → j = st.me →
    ∃ t, exec (.ringChunk p f) s = .next t ∧
      (t.bucketSt b).total = (f.count.toNat + (s.bucketSt b).counts.getD stage 0) % 65536 ∧
      ∀ i x, x < 32 → i < min frameBlocks (((r.piece j).2 - (r.piece j).1) / 32 - frameBlocks * (s.bucketSt b).handled stage j) →
        let s' := s.digestFrame img (9 + 2 * p.val) f
        let lo := (r.piece j).1 + 32 * (frameBlocks * (s.bucketSt b).handled stage j + i)
        t.bytes (s.valAddr img (img.bucket b) (s.bucketSt b) (lo + x)) 4 = leBytes 4 ((hopBlock true ((blockIn f.body i).1 % 256) (blockIn f.body i).2
          (bitOf (blockIn f.body i).1 8) ((List.range 32).map fun y => s'.localX img (img.bucket b) (s.bucketSt b) stage (lo + y))).vs.getD x 0)) ∧
  (∀ (s : State) (p : Fin 12) (f : Frame) (img : Image) (b j stage : Nat) (st : RStage) (r : RRange), FrameHere s p f 1 img →
    b = f.id.toNat / 65536 → j = f.id.toNat % 65536 → RingPlace s img p.val b j stage st r → (img.bucket b).mode = 0 →
    (s.bucketSt b).st = .reducing → stage < (s.bucketSt b).counts.length →
    (s.bucketSt b).handled stage j < pieceFrames (r.piece j).1 (r.piece j).2 → j ≠ st.me →
    ∃ (t u : State) (hs : List Hop), exec (.ringChunk p f) s = .next t ∧ t = u.wheelSend img (1 + 2 * st.axis) (s.frameOf 1 f.id.toNat
        (img.neighbour s.wheel.device st.axis true) ((f.count.toNat + (s.bucketSt b).counts.getD stage 0) % 65536) 0 (packHops hs)) ∧
      u.flume = s.flume ∧ (u.bucketSt b).handled stage j = (s.bucketSt b).handled stage j + 1 ∧
      (u.bucketSt b).total = (s.bucketSt b).total ∧ u.mem = (s.digestFrame img (9 + 2 * p.val) f).mem ∧
      hs = (List.range (min frameBlocks (((r.piece j).2 - (r.piece j).1) / 32 - frameBlocks * (s.bucketSt b).handled stage j))).map fun i =>
        hopBlock false ((blockIn f.body i).1 % 256) (blockIn f.body i).2 (bitOf (blockIn f.body i).1 8) ((List.range 32).map fun y =>
          (s.digestFrame img (9 + 2 * p.val) f).localX img (img.bucket b) (s.bucketSt b) stage
            ((r.piece j).1 + 32 * (frameBlocks * (s.bucketSt b).handled stage j + i) + y))) ∧
  (∀ (p : Fin 12) (f : Frame) (img : Image) (s : State), FrameHere s p f 1 img → s.portStage img p.val = none →
    exec (.ringChunk p f) s = .next (s.digestFrame img (9 + 2 * p.val) f))

/-- R258, R260, R262, R263, R292: a contribution is kept once for each source; a gather chunk is written to its place in PARAM; a
routed row and a row count land at their fixed places; a commit record is kept by its device.
Where the rules leave a point open, what is stated is the model's choice: logs 36 and 38. -/
def Obligations.GroupFrames : Prop :=
  (∀ (s : State) (p : Fin 12) (f : Frame) (img : Image) (b : Nat), FrameHere s p f 2 img → b = f.id.toNat / 65536 →
    b < img.bucketCount → (img.bucket b).mode ≠ 0 → ((s.bucketSt b).st = .filling ∨ (s.bucketSt b).st = .reducing) →
    ((s.bucketSt b).contribs.any fun x => x.1 == f.src.toNat) = false → ∃ t, exec (.compressedContribution p f) s = .next t ∧
      t.bucketSt b = { s.bucketSt b with contribs := (s.bucketSt b).contribs ++
        [(f.src.toNat, f.count.toNat, min (s.contribBytes img (img.bucket b)) f.body.length)] } ∧
      (∀ k, k ≠ b → t.bucketSt k = s.bucketSt k) ∧
      (∀ x, NMap.get 0 t.mem x = (let a := s.contribAddr img (img.bucket b) (s.bucketSt b) f.src.toNat
        if a ≤ x ∧ x < a + min (s.contribBytes img (img.bucket b)) f.body.length then f.body.getD (x - a) 0
        else NMap.get 0 (s.digestFrame img (9 + 2 * p.val) f).mem x)) ∧
      t = { s.digestFrame img (9 + 2 * p.val) f with mem := t.mem, wheel := { s.wheel with buckets := t.wheel.buckets } }) ∧
  (∀ (s : State) (p : Fin 12) (f : Frame) (img : Image) (b : Nat), FrameHere s p f 2 img → b = f.id.toNat / 65536 →
    b < img.bucketCount → (img.bucket b).mode ≠ 0 → (s.bucketSt b).st = .waiting → exec (.compressedContribution p f) s =
      .next { s.digestFrame img (9 + 2 * p.val) f with wheel := { s.wheel with heldFrames := [(p, f)] } }) ∧
  (∀ (s : State) (p : Fin 12) (f : Frame) (img : Image) (b j stage : Nat) (st : RStage) (r : RRange), FrameHere s p f 3 img →
    b = f.id.toNat / 65536 → j = f.id.toNat % 65536 → RingPlace s img p.val b j stage st r → j ≠ st.me → Quiet s → s.run.set = false →
    (s.bucketSt b).st = .gathering → (s.bucketSt b).gatherStage = stage + 1 → (s.bucketSt b).gotBytes stage j = none →
    f.body.length < (img.bucket b).pbytes * ((r.piece j).2 - (r.piece j).1) →
    (img.bucket b).param + (img.bucket b).pbytes * (r.piece j).2 ≤ 0xA800000000 →
    ∃ t, exec (.gatherChunk p f) s = .next t ∧ (t.bucketSt b).gotBytes stage j = some f.body.length ∧
      ∀ i, i < f.body.length → NMap.get 0 t.mem ((img.bucket b).param + (img.bucket b).pbytes * (r.piece j).1 + i) = f.body.getD i 0) ∧
  (∀ (s : State) (p : Fin 12) (f : Frame) (img : Image) (a l row rows ex : Nat) (c : ExchCtx) (ret : Bool),
    img.laneOf f.count.toNat = some (a, l) → s.exchCtx img a = some c → c.x.ret = ret →
    s.exchClosed img a = false → c.landing s.wheel.device f.src.toNat l (bitsOf f.id.toNat 18 16) f.pos.toNat = some (row, rows, ex) →
    Quiet s → s.run.set = false → f.body.length = c.bytes → c.bytes ≤ c.stride → row < rows →
    c.x.recv + c.stride * rows + 8 * rows ≤ 0xA800000000 →
    (FrameHere s p f 4 img → ret = false → ∃ t, exec (.dispatchRow p f) s = .next t ∧ RowLanded s t f c a row rows ex) ∧
    (FrameHere s p f 5 img → ret = true → ∃ t, exec (.returnRow p f) s = .next t ∧ RowLanded s t f c a row rows ex)) ∧
  (∀ (s : State) (p : Fin 12) (f : Frame) (img : Image) (a l i : Nat) (c : ExchCtx), FrameHere s p f 6 img → a = f.id.toNat / 65536 →
    l = f.id.toNat % 65536 → s.exchCtx img a = some c → i = l * 8 * c.x.g + 8 * (f.src.toNat % c.x.g) + f.pos.toNat % 8 →
    s.exchClosed img a = false → ((s.exchSt a).counts.any fun x => x.1 == i) = false → Quiet s → s.run.set = false →
    c.x.counts + 4 * i + 4 ≤ 0xA800000000 → ∃ t, exec (.rowCount p f) s = .next t ∧
      (t.exchSt a).counts = (i, f.count.toNat) :: (s.exchSt a).counts ∧ (t.exchSt a).rows = (s.exchSt a).rows ∧
      ∀ x, NMap.get 0 t.mem x = if c.x.counts + 4 * i ≤ x ∧ x < c.x.counts + 4 * i + 4
        then (leBytes 4 f.count.toNat).getD (x - (c.x.counts + 4 * i)) 0 else NMap.get 0 s.mem x) ∧
  (∀ (s : State) (p : Fin 12) (f : Frame) (img : Image), FrameHere s p f 9 img → f.body.length ≠ 8 * img.bucketCount →
    NMap.get none s.wheel.records f.src.toNat = none → ∃ t, exec (.controlFrame p f) s = .next t ∧
      t = { s with wheel := { s.wheel with records := t.wheel.records, exps := t.wheel.exps } } ∧
      NMap.get none t.wheel.records f.src.toNat = some (BitVec.ofNat 64 (fieldAt f.body 0 8), BitVec.ofNat 64 (fieldAt f.body 8 8)) ∧
      (∀ k, k ≠ f.src.toNat → NMap.get none t.wheel.records k = NMap.get none s.wheel.records k) ∧
      ∀ k, t.wheel.exps.getD k 0 = max (s.wheel.exps.getD k 0) ((f.body.drop 16).map (·.toNat) |>.getD k 0))

/-- R247, R248, R249: a window write from a GM6 peer on a port of its window lands in the Hopper and nowhere else; one that names no
window, or comes while none is open, is counted and refused, and so is one any byte of which meets a bank that is OFF or CLOSING.
R264: a port of the group whose neighbour is lost stalls the Wheel, once a job runs, and a port that is well does not.
Where the rules leave a point open, what is stated is the model's choice: log 7. -/
def Obligations.WindowWrites : Prop :=
  (∀ (s : State) (p : Fin 12) (f : Frame) (img : Image) (w : WindowDef), (s.fport p.val).st = .active → f.kind = 7 →
    s.image = some img → img.windows = true → img.windowDefs[bitsOf f.id.toNat 31 28]? = some w → s.syn = [] →
    s.wheel.heldFrames = [] → f.body.length % 8 = 0 → f.body.length ≤ 4096 → bitsOf f.id.toNat 20 0 + f.body.length ≤ w.len →
    (∀ x ∈ s.banksIn (img.phys w.mill) (w.off + bitsOf f.id.toNat 20 0) f.body.length, x = .on) → bitOf w.ports p.val = true →
    (s.fport p.val).peerGm6 = true → w.peer = 0 → s.ctx.active = true → bitOf f.id.toNat 27 = false →
    ∃ t, exec (.windowWrite p f) s = .next t ∧ t = { s with mem := t.mem, due := t.due } ∧
      ∀ x, NMap.get 0 t.mem x = if hopperBase (img.phys w.mill) + w.off + bitsOf f.id.toNat 20 0 ≤ x ∧
          x < hopperBase (img.phys w.mill) + w.off + bitsOf f.id.toNat 20 0 + f.body.length
        then f.body.getD (x - (hopperBase (img.phys w.mill) + w.off + bitsOf f.id.toNat 20 0)) 0 else NMap.get 0 s.mem x) ∧
  (∀ (s : State) (p : Fin 12) (f : Frame), (s.fport p.val).st = .active → f.kind = 7 → s.image = none → s.wheel.heldFrames = [] →
    exec (.windowWrite p f) s = .next ((s.count (cFlume p.val 7)).queueFrame p.val ⟨0x08, f.id, f.src, f.dest, 0, 0, leBytes 8 1⟩)) ∧
  (∀ (s : State) (p : Fin 12) (f : Frame) (img : Image) (w : WindowDef), (s.fport p.val).st = .active → f.kind = 7 →
    s.image = some img → img.windows = true → img.windowDefs[bitsOf f.id.toNat 31 28]? = some w → s.wheel.heldFrames = [] →
    f.body.length % 8 = 0 → f.body.length ≤ 4096 → bitsOf f.id.toNat 20 0 + f.body.length ≤ w.len →
    (∃ x ∈ s.banksIn (img.phys w.mill) (w.off + bitsOf f.id.toNat 20 0) f.body.length, x = .off ∨ x = .closing) →
    exec (.windowWrite p f) s = .next ((s.count (cHopper (img.phys w.mill) 6)).queueFrame p.val
      ⟨0x08, f.id, f.src, f.dest, 0, 0, leBytes 8 2⟩)) ∧
  (∀ (s : State) (m off n : Nat), 0 < n → ∀ a, off ≤ a → a < off + n → s.bankAt m a ∈ s.banksIn m off n) ∧
  (∀ (s : State) (p : Fin 12), s.run.job ≠ 0 → 1 ≤ s.role p.val → s.role p.val ≤ 6 → ((s.fport p.val).st = .down ∨
    (s.fport p.val).st = .active ∧ (s.fport p.val).peerSerial ≠ some (s.fport p.val).nowSerial) →
    exec (.neighbourLoss p) s = .next { s with
      wheel := { s.wheel with stalled := true }, health := { s.health with lastNeighbour := some s.time.ns } }) ∧
  (∀ (s : State) (p : Fin 12), (s.fport p.val).st = .active → (s.fport p.val).peerSerial = some (s.fport p.val).nowSerial →
    exec (.neighbourLoss p) s = .next s)


/-! ### The RoCEv2 requester (R340, R341) -/

/-- R341: what each packet and each wait does to a queue pair's requests: an answer completes, a sequence NAK resends from where it
points, an RNR NAK waits 1 ms, a time-out of 10 ms resends and counts, a congestion notice halves the rate and 100 us without one
raise it, and a packet that answers nothing is dropped and counted. -/
def Obligations.QueuePairs : Prop :=
  (∀ (s : State) (n : Nat) (psn : BitVec 24) (d : List Byte) (q : Qp) (r : Req), s.qpLive n = some q → q.find psn = some r →
    r.read = true → d.length = r.len →
    let u := (s.rxOn q (packets q.desc.mtu r.len)).setQp n (some { q with reqs := q.reqs.filter fun x => x.psn ≠ r.psn })
    ∃ t, exec (.roceReadResponse n psn d) s = .next t ∧ (r.owner = .data → t = u.dataArrive d) ∧ (r.owner = .restTable → t = u.tableIn d) ∧
      (∀ k, r.owner = .restPage k → t = u.pageIn d) ∧
      (u = { s with qps := u.qps, cnt := u.cnt } ∧ u.qp n = some { q with reqs := q.reqs.filter fun x => x.psn ≠ r.psn } ∧
        (∀ k, k ≠ n → u.qp k = s.qp k))) ∧
  (∀ (s : State) (n : Nat) (psn : BitVec 24) (d : List Byte) (q : Qp), s.qpLive n = some q → q.find psn = none →
    ∀ c ∈ [Instr.roceReadResponse n psn d, .roceSeqNak n psn, .roceRnrNak n psn], ∃ t, exec c s = .next t ∧ t = { s with cnt := t.cnt } ∧
      t.source (cEth q.desc.port.val 7) = s.source (cEth q.desc.port.val 7) + 1) ∧
  (∀ (s : State) (n : Nat) (psn : BitVec 24) (q : Qp), s.qpLive n = some q → q.reqs.any (q.acks psn) = true →
    ∃ t, exec (.roceAck n psn) s = .next t ∧ t = { s with qps := t.qps, cnt := t.cnt } ∧
      t.qp n = some { q with reqs := q.reqs.filter fun r => !q.acks psn r } ∧ ∀ k, k ≠ n → t.qp k = s.qp k) ∧
  (∀ (s : State) (n : Nat) (psn : BitVec 24) (q : Qp) (r : Req), s.qpLive n = some q → q.find psn = some r →
    ∃ t, exec (.roceSeqNak n psn) s = .next t ∧ t = { s with qps := t.qps, cnt := t.cnt, out := t.out } ∧
      (∃ q', t.qp n = some q' ∧ q'.reqs.map (·.psn) = q.reqs.map (·.psn) ∧ q'.desc = q.desc ∧ q'.nextPsn = q.nextPsn) ∧
      t.out.length = s.out.length + (q.reqs.dropWhile fun x => x.psn ≠ r.psn).length ∧ ∀ k, k ≠ n → t.qp k = s.qp k) ∧
  (∀ (s : State) (n : Nat) (psn : BitVec 24) (q : Qp) (r : Req), s.qpLive n = some q → q.find psn = some r →
    ∃ t, exec (.roceRnrNak n psn) s = .next t ∧ t = { s with qps := t.qps, cnt := t.cnt } ∧ t.qp n = some { q with
      reqs := q.reqs.map fun x => if x.psn = r.psn then { x with rnrAt := some s.time.ns } else x } ∧ ∀ k, k ≠ n → t.qp k = s.qp k) ∧
  (∀ (s : State) (n at_ : Nat) (q : Qp) (r : Req), s.qp n = some q → q.reqs = [r] → r.rnrAt = some at_ → at_ + 1000000 ≤ s.time.ns →
    ∃ t, exec (.rnrResend n) s = .next t ∧ t = { s with qps := t.qps, cnt := t.cnt, out := if (s.port q.desc.port.val).linkUp then .roce n q.desc r.psn r.read r.addr r.rkey r.len r.payload :: s.out else s.out } ∧
      t.qp n = some { q with reqs := [{ r with sentAt := s.time.ns, rnrAt := none }] }) ∧
  (∀ (s : State) (n : Nat) (psn : BitVec 24) (q : Qp) (r : Req), s.qp n = some q → q.reqs = [r] → q.find psn = some r → r.rnrAt = none →
    r.sentAt + 10000000 ≤ s.time.ns → r.retries < 4 → (r.owner = .restTable ∨ r.owner = .snapTable) →
    ∃ t, exec (.roceTimeout n psn) s = .next t ∧ t = { s with qps := t.qps, cnt := t.cnt, out := if (s.port q.desc.port.val).linkUp then .roce n q.desc r.psn r.read r.addr r.rkey r.len r.payload :: s.out else s.out } ∧
      t.qp n = some { q with reqs := [{ r with sentAt := s.time.ns, retries := r.retries + 1 }] } ∧
      t.source (cEth q.desc.port.val 6) = s.source (cEth q.desc.port.val 6) + 1) ∧
  (∀ (s : State) (p : Fin 2) (n : Nat) (psn : BitVec 24), s.up = true → (s.port p.val).linkUp = true → s.qp n = none →
    ∃ t, exec (.roceUnexpected p n psn) s = .next t ∧ t = { s with cnt := t.cnt } ∧
      t.source (cEth p.val 7) = s.source (cEth p.val 7) + 1) ∧
  (∀ (s : State) (n : Nat) (q : Qp), s.qpLive n = some q → ∃ t, exec (.cnp n) s = .next t ∧ t = { s with qps := t.qps, cnt := t.cnt } ∧
    t.qp n = some { q with rate := max (q.rate / 2) 1000000000, lastCnp := s.time.ns } ∧
    t.source (cEth q.desc.port.val 8) = s.source (cEth q.desc.port.val 8) + 1 ∧ ∀ k, k ≠ n → t.qp k = s.qp k) ∧
  (∀ (s : State) (n : Nat) (q : Qp), s.qp n = some q → q.lastCnp + 100000 ≤ s.time.ns → ∃ t, exec (.roceRateRecovery n) s = .next t ∧
    t = { s with qps := t.qps } ∧ (∀ k, k ≠ n → t.qp k = s.qp k) ∧ t.qp n = some { q with
      rate := min (q.rate + 5000000000) (lineRate (s.port q.desc.port.val).mode), lastCnp := s.time.ns }) ∧
  (∀ (s : State) (psn : BitVec 24) (img : Image) (n : Nat) (q : Qp) (r : Req), s.image = some img → s.dataReq psn = some (n, q, r) →
    s.run.data.retries < img.rtRetryLimit → ∃ t, exec (.dataFetchRetry psn) s = .next t ∧
      t = { s with qps := t.qps, cnt := t.cnt, run := { s.run with data := { s.run.data with retries := s.run.data.retries + 1 } },
                   out := if (s.port q.desc.port.val).linkUp then .roce n q.desc r.psn r.read r.addr r.rkey r.len r.payload :: s.out else s.out } ∧
      t.source (cRun 6) = s.source (cRun 6) + 1 ∧ ∀ k, k ≠ n → t.qp k = s.qp k)


/-! ### Streams, loops, Weirs and Races (R93, R200-R205, R214-R218) -/

/-- R204: NOP and TURN_PASS move the stream on, and TURN_PASS presents its n passes at its port for its holder, or waits for ever at a
port that has no sequence or has stopped; LOOP opens a loop over the next b instructions with n - 1 repetitions left; after
an instruction that ends no loop body the next one follows, and at a body's last instruction it repeats while any are left.
R204, R205: SHAPE_SET, by a Carder or scalar stream, writes one shape register of its Mill and nothing else but its place.
R201, R202, R203: at STEP_END a stream waits for admission at the start of its body, and only its padding and the flits of its step
markers change. -/
def Obligations.StreamControl : Prop :=
  (∀ (s : State) (sid : Sid) (e : Issue), s.issue sid.owner sid.kind 0x00 = some e →
    exec (.nop sid) s = .next (s.setStream e.k (s.stream e.k).next)) ∧
  (∀ (s : State) (sid : Sid) (e : Issue) (key : Nat), s.issue sid.owner sid.kind 0x04 = some e → s.stalledTurn e.img e.k = none →
    (e.ins.op 47 16 ≠ 0 → s.portServes e.img (e.ins.op 15 0) = true) → key = dueKey (e.ins.op 15 0) (e.ins.op 51 48) false →
    ∃ t, exec (.turnPass sid) s = .next t ∧ t = { s with streams := t.streams, due := t.due } ∧
      t.stream e.k = (s.stream e.k).next ∧ (∀ k, k ≠ e.k → t.stream k = s.stream k) ∧
      t.dueOf e.k key = s.dueOf e.k key + e.ins.op 47 16 ∧ ∀ x, x ≠ key → NMap.get [] t.due x = NMap.get [] s.due x) ∧
  (∀ (s : State) (sid : Sid) (e : Issue), s.issue sid.owner sid.kind 0x04 = some e → e.ins.op 47 16 ≠ 0 →
    s.portServes e.img (e.ins.op 15 0) = false → ∃ (t : State) (p : Nat × Nat), exec (.turnPass sid) s = .next t ∧ (t.stream e.k).stat = .atPort p.1 p.2 ∧
      (t.stream e.k).pc = (s.stream e.k).pc) ∧
  (∀ (s : State) (sid : Sid) (e : Issue), s.issue sid.owner sid.kind 0x01 = some e →
    ∃ t, exec (.loop sid) s = .next t ∧ t = { s with streams := t.streams } ∧ (∀ k, k ≠ e.k → t.stream k = s.stream k) ∧
      t.stream e.k = { s.stream e.k with
        pc := (s.stream e.k).pc + 1
        loops := ⟨(s.stream e.k).pc + 1, (s.stream e.k).pc + 1 + e.ins.op 47 32, e.ins.op 31 0 - 1⟩ :: (s.stream e.k).loops }) ∧
  (∀ (u : Stream), (u.loops.all fun l => l.stop ≠ u.pc + 1) = true → u.next = { u with pc := u.pc + 1, latch := none }) ∧
  (∀ (u : Stream) (l : LoopSt) (ls : List LoopSt), u.loops = l :: ls → l.stop = u.pc + 1 → 0 < l.left →
    u.next = { u with pc := l.start, loops := { l with left := l.left - 1 } :: ls, latch := none }) ∧
  (∀ (u : Stream) (l : LoopSt) (ls : List LoopSt), u.loops = l :: ls → l.stop = u.pc + 1 → l.left = 0 →
    (ls.all fun x => x.stop ≠ u.pc + 1) = true → u.next = { u with pc := u.pc + 1, loops := ls, latch := none }) ∧
  (∀ (s : State) (sid : Sid) (e : Issue), s.issue sid.owner sid.kind 0x05 = some e → (e.kind = 2 ∨ e.kind = 4) →
     ∃ t, exec (.shapeSet sid) s = .next t ∧ t = { s with streams := t.streams, shapes := t.shapes } ∧
       t.stream e.k = (s.stream e.k).next ∧ (∀ k, k ≠ e.k → t.stream k = s.stream k) ∧
       t.shapeReg e.l (e.ins.op 7 0) = e.ins.op 39 8 ∧
       ∀ l r, r < 256 → (l ≠ e.l ∨ r ≠ e.ins.op 7 0) → t.shapeReg l r = s.shapeReg l r) ∧
  (∀ (s : State) (sid : Sid) (e : Issue), s.issue sid.owner sid.kind 0x02 = some e →
     ∃ t, exec (.stepEnd sid) s = .next t ∧ t = { s with streams := t.streams, ports := t.ports, due := t.due } ∧
       (∀ key, key / 131072 < 4 → NMap.get [] t.due key = NMap.get [] s.due key) ∧
       t.stream e.k = { s.stream e.k with stat := .stepEnd, pc := e.rc.body, loops := [], since := s.time.ns } ∧
       (∀ k, k ≠ e.k → t.stream k = s.stream k) ∧
       ∀ n, (∃ r, e.img.port n = some r ∧ t.portPos n = (s.portPos n).pad r (padCodes e.kind (n / 4096)) ∧ e.kind ≠ 5 ∧
         n % 4096 = e.owner) ∨ e.kind = 5 ∨ t.portPos n = s.portPos n)

/-- R215, R216, R217, R218: an entry is counted in the open generation; the entry that fills it closes it and releases its waiters; a second entry of a counted participant is held and counted as early; a third faults, is logged and ends the context and its job.
Where the rules leave a point open, what is stated is the model's choice: log 70. -/
def Obligations.WeirEntry : Prop :=
  ∀ (s : State) (sid : Sid) (e : Issue) (w i p : Nat), s.issue sid.owner sid.kind 0x03 = some e →
    e.img.weirOf s.ctx.table (e.ins.op 15 0) = some w → e.img.weirIndex w e.owner e.kind = some i →
    s.lossPages e.img w = [] → p = e.img.weirPhys w →
    let next := if e.ins.flag 0 then (s.stream e.k).next
      else { (s.stream e.k).next with stat := .atWeir w, since := s.time.ns }
    let wait := if e.ins.flag 0 then (s.weirSt p).waiting else i :: (s.weirSt p).waiting
    ((s.weirSt p).counted.contains i = false → (s.weirSt p).counted.length + 1 < e.img.weirN w →
      ∃ t, exec (.weir sid) s = .next t ∧ t = { s with
          streams := t.streams, weirs := t.weirs, ctx := { s.ctx with progress := s.time.ns, reported := false } } ∧
        t.stream e.k = next ∧ (∀ k, k ≠ e.k → t.stream k = s.stream k) ∧ (∀ q, q ≠ p → t.weirSt q = s.weirSt q) ∧
        t.weirSt p = { s.weirSt p with counted := i :: (s.weirSt p).counted, waiting := wait, progress := s.time.ns }) ∧
    ((s.weirSt p).counted.contains i = false → (s.weirSt p).counted.length + 1 = e.img.weirN w → (s.weirSt p).held = [] →
      (e.img.hasRt = true → e.img.weirOf s.ctx.table e.img.rtFwdWeir ≠ some w ∧
        e.img.weirOf s.ctx.table e.img.rtCommitWeir ≠ some w) →
      ∃ t, exec (.weir sid) s = .next t ∧ t = { s with
          streams := t.streams, weirs := t.weirs, ctx := { s.ctx with progress := s.time.ns, reported := false } } ∧
        t.stream e.k = next ∧ (∀ k, k ≠ e.k → t.stream k = s.stream k) ∧ (∀ q, q ≠ p → t.weirSt q = s.weirSt q) ∧
        t.weirSt p = { s.weirSt p with
          gen := (s.weirSt p).gen + 1, counted := [], waiting := [], progress := s.time.ns
          releasing := (s.weirSt p).releasing ++ wait.map fun j => (j, false) }) ∧
    ((s.weirSt p).counted.contains i = true → ((s.weirSt p).held.any fun h => h.1 == i) = false →
      ∃ t, exec (.weir sid) s = .next t ∧ t = { s with streams := t.streams, weirs := t.weirs, cnt := t.cnt } ∧
        t.source (cWeir 0) = s.source (cWeir 0) + 1 ∧ t.stream e.k = next ∧ (∀ q, q ≠ p → t.weirSt q = s.weirSt q) ∧
        t.weirSt p = { s.weirSt p with held := (s.weirSt p).held ++ [(i, !e.ins.flag 0)] }) ∧
    ((s.weirSt p).counted.contains i = true → ((s.weirSt p).held.any fun h => h.1 == i) = true → s.weirLog.valid = false →
      ∃ t, exec (.weir sid) s = .next t ∧ t.weirLog = ⟨true, p, i⟩ ∧ t.ctx.active = false ∧ t.weirs = [] ∧ t.races = [] ∧
        t.run.job = 0 ∧ t.mem = s.mem ∧ t.source (cWeir 1) = s.source (cWeir 1) + 1)


/-! ### Hoppers and ports (R81-R89, R99-R101, R200-R202) -/

/-- R99, R100: what BANK_OFF, BANK_ON, a wake and a close do to a bank in each of its four states; a bank that has woken or closed holds
zeros with valid checks, and nothing outside it changes.
Where the rules leave a point open, what is stated is the model's choice: logs 7 and 64. -/
def Obligations.BankPower : Prop :=
  (∀ (s : State) (img : Image) (l : Fin 144) (b : Fin 16) (x : Bank), s.image = some img → s.ctx.active = true →
    s.bank (img.phys l.val) b.val = x →
    (x.st = .on → exec (.bankOff l b) s = .next (s.setBank (img.phys l.val) b.val { x with st := .closing })) ∧
    (x.st = .waking → exec (.bankOff l b) s = .next (s.setBank (img.phys l.val) b.val { x with closeNext := true })) ∧
    (x.st = .closing → exec (.bankOff l b) s = .next (s.setBank (img.phys l.val) b.val { x with closeNext := x.wakeNext })) ∧
    (x.st = .off → exec (.bankOff l b) s = .next (s.setBank (img.phys l.val) b.val x)) ∧
    (x.st = .off → exec (.bankOn l b) s = .next (s.setBank (img.phys l.val) b.val { x with st := .waking })) ∧
    (x.st = .closing → exec (.bankOn l b) s = .next (s.setBank (img.phys l.val) b.val { x with wakeNext := true, closeNext := false })) ∧
    (x.st = .waking → exec (.bankOn l b) s = .next (s.setBank (img.phys l.val) b.val { x with wakeNext := x.closeNext })) ∧
    (x.st = .on → exec (.bankOn l b) s = .next (s.setBank (img.phys l.val) b.val { x with wakeNext := x.closeNext }))) ∧
  (∀ (s : State) (m : Fin 152) (b : Fin 16) (x : Bank), s.bank m.val b.val = x →
    (x.st = .waking → ∃ t, exec (.bankWakeDone m b) s = .next t ∧ BankZeroed s t m.val b.val { x with st := .on }) ∧
    ((x.st = .closing ∨ x.st = .on ∧ x.closeNext = true) → s.bankBusy m.val b.val = false → ∃ t, exec (.bankCloseDone m b) s = .next t ∧
      BankZeroed s t m.val b.val { x with
        st := if x.wakeNext then .waking else .off, wakeNext := false
        closeNext := if x.st = .on then false else x.closeNext })) ∧
  (∀ (s : State) (m : Fin 152) (b : Fin 16), (s.bank m.val b.val).st ≠ .waking → exec (.bankWakeDone m b) s = .next s) ∧
  (∀ (s : State) (m : Fin 152) (b : Fin 16), (s.bankBusy m.val b.val = true ∨ (s.bank m.val b.val).st = .off ∨
    (s.bank m.val b.val).st = .waking ∨ (s.bank m.val b.val).st = .on ∧ (s.bank m.val b.val).closeNext = false) →
    exec (.bankCloseDone m b) s = .next s) ∧
  (∀ (s : State) (img : Image) (m : Nat) (b : Nat), s.image = some img → (s.bankBusy m b = true ↔ ∃ l, img.logical m = some l ∧
    ∃ p ∈ s.due, (p.1 / 32 = 0x1000 + l ∨ p.1 / 32 = 0x2000 + l) ∧ ∃ d ∈ p.2, d.bank = b ∧ 0 < d.n))

/-- R88, R89, R101: compare-and-swap answers the old word and replaces it when it matched; count-equal answers how many elements of a
line are equal; at a bank that is OFF both answer 0 and count the access. -/
def Obligations.MemoryOperations : Prop :=
  (∀ (s : State) (img : Image) (m : Fin 152) (req : BitVec 4) (off : BitVec 21) (x y : Word64), s.image = some img → s.ctx.active = true →
    memOpCode req.toNat = true → off.toNat % 8 = 0 → Quiet s → s.run.set = false → img.uses m.val = true → s.bankAt m.val off.toNat = .on →
    ∃ t, exec (.compareAndSwap m req off x y) s = .next t ∧ t = { s with
        mem := t.mem, cnt := t.cnt, ctx := { s.ctx with progress := s.time.ns, reported := false }
        out := .returned (0x2000 + (img.logical m.val).getD 0) 4 (leBytes 8 (s.num (hopperBase m.val + off.toNat) 8)) :: s.out } ∧
      t.source (cHopper m.val 7) = s.source (cHopper m.val 7) + (if s.num (hopperBase m.val + off.toNat) 8 = x.toNat then 0 else 1) ∧
      ∀ a, NMap.get 0 t.mem a = if s.num (hopperBase m.val + off.toNat) 8 = x.toNat ∧ hopperBase m.val + off.toNat ≤ a ∧
          a < hopperBase m.val + off.toNat + 8
        then (leBytes 8 y.toNat).getD (a - (hopperBase m.val + off.toNat)) 0 else NMap.get 0 s.mem a) ∧
  (∀ (s : State) (img : Image) (m : Fin 152) (req : BitVec 4) (off : BitVec 21) (w : Fin 4) (v : Word64), s.image = some img →
    s.ctx.active = true → memOpCode req.toNat = true → off.toNat % 512 = 0 → Quiet s → s.run.set = false → img.uses m.val = true →
    s.bankAt m.val off.toNat = .on →
    exec (.countEqual m req off w v) s = .next { s with
      ctx := { s.ctx with progress := s.time.ns, reported := false }
      out := .returned (0x2000 + (img.logical m.val).getD 0) 4 (leBytes 2 (((List.range (512 / 2 ^ w.val)).filter fun i =>
        s.num (hopperBase m.val + off.toNat + 2 ^ w.val * i) (2 ^ w.val) == v.toNat % 256 ^ 2 ^ w.val).length)) :: s.out }) ∧
  (∀ (s : State) (img : Image) (m : Fin 152) (req : BitVec 4) (off : BitVec 21) (x y : Word64) (w : Fin 4), s.image = some img →
    s.ctx.active = true → memOpCode req.toNat = true → off.toNat % 512 = 0 → Quiet s → s.run.set = false → img.uses m.val = true →
    s.bankAt m.val off.toNat = .off → ∀ c n, (c = Instr.compareAndSwap m req off x y ∧ n = 8 ∨ c = .countEqual m req off w y ∧ n = 2) →
    ∃ t, exec c s = .next t ∧ t = { s with
        cnt := t.cnt, leat := t.leat, out := t.out, ctx := { s.ctx with progress := s.time.ns, reported := false } } ∧
      t.out.head? = some (.returned (0x2000 + (img.logical m.val).getD 0) 4 (leBytes n 0)) ∧
      t.source (cHopper m.val 5) = s.source (cHopper m.val 5) + 1)

/-- R84, R87, R97, R200, R201: a port waits at its entry for the first holder that has nothing to present; a router's or a spine's entry
carries the oldest flit that waits for it, or passes when its holder pads; at a narrow port the holder's aligned read answers the bytes
and its write lands; R202: a step marker pads its holder once the requests before it have gone and its sources are at their step ends.
Where the rules leave a point open, what is stated is the model's choice: logs 28, 40, 64 and 80. -/
def Obligations.PortEntries : Prop :=
  (∀ (s : State) (img : Image) (n : BitVec 16) (pres : List Pres) (r : PortRec) (lh : Nat × Nat) (rest : List (Nat × Nat)), PortRuns s img n r →
    entryHolders (r.port / 4096) (r.entries.getD (s.portPos n.toNat).entry 0) = lh :: rest → lh.1 < 5 →
    (s.portPos n.toNat).padded.contains lh.2 = false → (∀ p ∈ pres, p.lane ≠ lh.1 ∨ p.holder.toNat ≠ lh.2) →
    NMap.get [] s.due (dueKey n.toNat lh.2 false) = [] → freeHolder (r.port / 4096) lh.2 = false → s.holderBlocked img n.toNat lh.2 = none →
    exec (.portEntryExecute n pres) s = .next (s.setPortPos n.toNat { s.portPos n.toNat with waiting := lh.2, held := 0 })) ∧
  (∀ (s : State) (img : Image) (n : BitVec 16) (pres : List Pres) (r : PortRec) (lh : Nat × Nat) (d : Due) (ds : List Due), PortRuns s img n r →
    4 ≤ n.toNat / 4096 → n.toNat / 4096 ≤ 6 → entryHolders (r.port / 4096) (r.entries.getD (s.portPos n.toNat).entry 0) = [lh] →
    (s.portPos n.toNat).padded.contains lh.2 = false → (∀ p ∈ pres, p.lane ≠ lh.1 ∨ p.holder.toNat ≠ lh.2) →
    NMap.get [] s.due (dueKey n.toNat lh.2 false) = d :: ds → 0 < d.acc → ∃ t, exec (.portEntryExecute n pres) s = .next t ∧
      t = { s with due := t.due, ports := t.ports, ctx := { s.ctx with progress := s.time.ns, reported := false } } ∧
      NMap.get [] t.due (dueKey n.toNat lh.2 false) = (if d.n ≤ 1 then ds else { d with n := d.n - 1, acc := d.acc - 1 } :: ds) ∧
      (∀ k, k ≠ dueKey n.toNat lh.2 false → NMap.get [] t.due k = NMap.get [] s.due k) ∧
      t.portPos n.toNat = { PortPos.settle r 17 ((s.portPos n.toNat).step r) with progress := s.time.ns, passing := false } ∧
      ∀ k, k ≠ n.toNat → t.portPos k = s.portPos k) ∧
  (∀ (s : State) (img : Image) (n : BitVec 16) (pres : List Pres) (r : PortRec), PortRuns s img n r → 4 ≤ n.toNat / 4096 →
    (∀ lh ∈ entryHolders (r.port / 4096) (r.entries.getD (s.portPos n.toNat).entry 0), (s.portPos n.toNat).padded.contains lh.2 = true) →
    exec (.portEntryExecute n pres) s = .next (s.setPortPos n.toNat
      { PortPos.settle r 17 ((s.portPos n.toNat).step r) with passing := true })) ∧
  (∀ (s : State) (img : Image) (n : BitVec 16) (r : PortRec) (l h m a : Nat) (d : List Byte) (last : Bool) (g : Option (BitVec 6)) (rd : Bool),
    PortRuns s img n r → n.toNat / 4096 = 2 → n.toNat % 4096 = l → img.phys l = m → img.uses m = true → Quiet s →
    s.run.set = false → memOpCode h = true → entryHolders 2 (r.entries.getD (s.portPos n.toNat).entry 0) = [(4, h)] →
    (s.portPos n.toNat).padded.contains h = false → hopperBase m ≤ a → a + d.length ≤ hopperBase m + 0x200000 → m < 152 →
    (∀ b, b < 16 → (s.bank m b).st = .on) → (d.length = 1 ∨ d.length = 2 ∨ d.length = 4 ∨ d.length = 8) → a % d.length = 0 →
    ∃ t, exec (.portEntryExecute n [⟨4, BitVec.ofNat 4 h, if rd then .read a d.length else .write a d, none, last, g⟩]) s = .next t ∧
      t = { s with
        mem := t.mem, out := t.out, ports := t.ports, banks := t.banks, ctx := { s.ctx with progress := s.time.ns, reported := false } } ∧
      t.portPos n.toNat = { PortPos.settle r 17 ((s.portPos n.toNat).step r) with progress := s.time.ns, passing := false } ∧
      (∀ k, k ≠ n.toNat → t.portPos k = s.portPos k) ∧
      (∀ k b, b < 16 → t.bank k b = if k = m then (s.bank k b).beat else s.bank k b) ∧
      (rd = true → t.out = .returned n.toNat 4 (s.bytes a d.length) :: s.out ∧ t.mem = s.mem) ∧
      (rd = false → t.out = s.out ∧ ∀ x, NMap.get 0 t.mem x = if a ≤ x ∧ x < a + d.length then d.getD (x - a) 0 else NMap.get 0 s.mem x)) ∧
  (∀ x : Bank, x.beat = if x.st = .on ∧ x.closeNext = true then { x with st := .closing, closeNext := false } else x) ∧
  (∀ (s : State) (img : Image) (n : BitVec 16) (h : BitVec 4) (r : PortRec), s.image = some img → s.ctx.active = true →
    markerHolder (n.toNat / 4096) h.toNat = true → img.port n.toNat = some r → NMap.get [] s.due (dueKey n.toNat h.toNat false) = [] →
    (∀ k ∈ img.holderStreams n.toNat h.toNat, (s.stream k).stat = .stepEnd) → s.wheel.active = false →
    exec (.stepMarker n h) s = .next (s.setPortPos n.toNat ((s.portPos n.toNat).pad r [h.toNat])))


/-! ### Engine operations (R40-R42, R59, R69, R92, R93, R138-R175, R179-R191, R204, R206, R411) -/

/-- R93, R205: an engine operation whose Race is not ready does nothing but wait on the first such Race, keeping the shape registers
it was issued with, and its engine reads as busy.
Log 7 (the model's choice): a stream command whose instruction is not the next one of a running stream changes nothing.
Where the rules leave a point open, what is stated is the model's choice: logs 7 and 40. -/
def Obligations.EnginesWait : Prop :=
  (∀ (s : State) (m : Fin 144) (b : Bool) (f : Fin 8) (n : Nat) (e : Issue) (u : RaceUse) (rest : List RaceUse), ∀ x ∈ engineCmds m b f n,
     s.issue x.owner x.kind x.opc = some e → (e.races x.drain x.fields).filter s.raceBlocked = u :: rest →
     exec x.c s = .next ((s.engineBusy e (some 0)).blockOn e u) ∧
       (((s.engineBusy e (some 0)).blockOn e u).stream e.k) =
         { s.stream e.k with stat := .onRace u.key u.prod, since := s.time.ns, latch := some e.ownShapes } ∧
       ((s.engineBusy e (some 0)).blockOn e u).mem = s.mem ∧ ((s.engineBusy e (some 0)).blockOn e u).races = s.races ∧
       ((s.engineBusy e (some 0)).blockOn e u).due = s.due) ∧
  (∀ (s : State) (m : Fin 144) (b : Bool) (f : Fin 8) (n : Nat), ∀ x ∈ engineCmds m b f n, s.issue x.owner x.kind x.opc = none →
    exec x.c s = .next s) ∧
  (∀ (s : State) (sid : Sid), ∀ x ∈ [(Instr.nop sid, 0), (.loop sid, 1), (.stepEnd sid, 2), (.weir sid, 3), (.turnPass sid, 4), (.shapeSet sid, 5)],
    s.issue sid.owner sid.kind x.2 = none → exec x.1 s = .next s)

/-- R59, R69, R92, R143: the Stone operations are done whole; a pass and a mask load store nothing, a drain stores within its output, or within those of the folds that
its part completes (R144), and frees its tile, and a mask load takes 32 bytes of the Hopper as the two masks.
Where the rules leave a point open, what is stated is the model's choice: logs 29, 40 and 74. -/
def Obligations.StoneOperations : Prop :=
  (∀ (s : State) (m : Fin 144) (b : Bool) (e : Issue), Ready s e m.val (b2n b) 0x10 false [0, 1, 2, 3] →
    ∃ t, exec (.pass m b) s = .next t ∧ EngineDone s t e false [0, 1, 2, 3] ⟨[], [], []⟩ ∧ (t.stream e.k).work = some (PassOp.of e.ins).tag ∧
      (t.stream e.k).rowMask = (s.stream e.k).rowMask ∧ (t.stream e.k).colMask = (s.stream e.k).colMask) ∧
  (∀ (s : State) (m : Fin 144) (b : Bool) (e : Issue) (v : View), Ready s e m.val (b2n b) 0x11 true [0] →
    v = (if (e.view s true 0).d.partialOut then { (e.view s true 0) with w := 32 } else e.view s true 0) →
    ∃ t, exec (.drain m b) s = .next t ∧ EngineDone s t e true [0] ⟨v :: (if v.d.partialOut then
        (e.img.folds.filter fun f => f.list.contains (e.ins.dIdx 0)).map fun f => e.desc f.out else []), [], []⟩ ∧ (t.stream e.k).tile (e.ins.op 7 0) = none ∧
      (t.stream e.k).work ≠ some (e.ins.op 7 0) ∧ ∀ tag, tag ≠ e.ins.op 7 0 → (t.stream e.k).tile tag = (s.stream e.k).tile tag) ∧
  (∀ (s : State) (m : Fin 144) (b : Bool) (e : Issue) (a : Nat), Ready s e m.val (b2n b) 0x12 false [] → a = hopperBase e.m + e.ins.op 20 0 →
    ∃ t, exec (.maskLoad m b) s = .next t ∧ EngineDone s t e false [] ⟨[], [], []⟩ ∧ t.kettle = s.kettle ∧
      t.stream e.k = { (s.stream e.k).next with
        rowMask := BitVec.ofNat 128 (s.fabNum e.img (e.agent false) a 16)
        colMask := BitVec.ofNat 128 (s.fabNum e.img (e.agent false) (a + 16) 16) })

/-- R40, R41: a clearing pass over two FP32 operands leaves, at a row and a column that are on, the sum of their products over the pass's
K range, in ascending order, rounded to FP32 after each product.
Where the rules leave a point open, what is stated is the model's choice: logs 40 and 63. -/
def Obligations.PassOfFp32 : Prop :=
  ∀ (s : State) (m : Fin 144) (b : Bool) (e : Issue) (i j : Nat) (va vb : View) (p : PassOp), Ready s e m.val (b2n b) 0x10 false [0, 1, 2, 3] →
    p = PassOp.of e.ins → va = e.view s false 0 → vb = e.view s false 1 → va.d.format = 0 → vb.d.format = 0 →
    p.sparsity = 0 → p.panel < 3 → e.ins.dIdx 2 = 0xFFFF → p.clear = true →
    va.isZero = false → vb.isZero = false → i < 128 → j < 128 →
    (s.stream e.k).rowMask.getLsbD i = true → (s.stream e.k).colMask.getLsbD j = true →
    (va.d.edgeOff = true ∨ 128 * (p.rowBlk % blocksOf (va.extM false)) + i < va.extM false ∧
      ∀ x, x < p.kHi - p.kLo → va.d.kIndex (p.kLo + x) < va.extK false) →
    (vb.d.edgeOff = true ∨ 128 * (p.colBlk % blocksOf (vb.extM true)) + j < vb.extM true ∧
      ∀ x, x < p.kHi - p.kLo → vb.d.kIndex (p.kLo + x) < vb.extK true) →
    ∃ t, exec (.pass m b) s = .next t ∧ NMap.get 0 (t.stream e.k).acc (128 * i + j) =
      ((List.range (p.kHi - p.kLo)).map fun x =>
        ((termOf 0 (s.codeAt e.img (e.agent false) va (va.clamp (va.opIx false (va.outer23 (blocksOf (va.extM false)) p.rowBlk)
            (128 * (p.rowBlk % blocksOf (va.extM false)) + i) (va.d.kIndex (p.kLo + x))))) 0).1,
          (termOf 0 (s.codeAt e.img (e.agent false) vb (vb.clamp (vb.opIx true (vb.outer23 (blocksOf (vb.extM true)) p.colBlk)
            (128 * (p.colBlk % blocksOf (vb.extM true)) + j) (vb.d.kIndex (p.kLo + x))))) 0).1)).foldl
        (fun acc q => (round32 ((dec32 acc).add (q.1.mul q.2))).1) 0

/-- R152-R160: the plain Carder operations are done whole, and store within their output alone.
R161-R175, R411: the sparse operations are done whole, and store within the places that their outputs give.
R180-R190, R263: the routing operations are done whole, and store within the places that R186, R187 and R190 give.
Where the rules leave a point open, what is stated is the model's choice: logs 35, 36, 40 and 72. -/
def Obligations.MillOperations : Prop :=
  (∀ (s : State) (m : Fin 144) (e : Issue), Ready s e m.val 2 0x21 false [0, 1, 2] →
    ∃ t, exec (.gather m) s = .next t ∧ PlainEngine s t e ∧ EngineDone s t e false [0, 1, 2] ⟨[e.view s false 2], [], []⟩) ∧
  (∀ (s : State) (m : Fin 144) (e : Issue), Ready s e m.val 2 0x22 false [0, 1, 2, 3] →
    ∃ t, exec (.scatterAdd m) s = .next t ∧ PlainEngine s t e ∧ EngineDone s t e false [0, 1, 2, 3] ⟨[e.view s false 0], [], []⟩) ∧
  (∀ (s : State) (m : Fin 144) (e : Issue), Ready s e m.val 2 0x23 false [0, 1, 2, 3] →
    ∃ t, exec (.gatherAdd m) s = .next t ∧ PlainEngine s t e ∧ EngineDone s t e false [0, 1, 2, 3] ⟨[e.view s false 0], [], []⟩) ∧
  (∀ (s : State) (m : Fin 144) (e : Issue), Ready s e m.val 2 0x24 false [0, 1, 2] →
    ∃ t, exec (.merge m) s = .next t ∧ PlainEngine s t e ∧ EngineDone s t e false [0, 1, 2] ⟨[{ (e.view s false 2) with w := 64 }], [], []⟩) ∧
  (∀ (s : State) (m : Fin 144) (e : Issue), Ready s e m.val 2 0x25 false [0, 1, 2] →
    ∃ t, exec (.mergeSum m) s = .next t ∧ PlainEngine s t e ∧ EngineDone s t e false [0, 1, 2] ⟨[{ (e.view s false 2) with w := 64 }], [], []⟩) ∧
  (∀ (s : State) (m : Fin 144) (e : Issue), Ready s e m.val 2 0x26 false [0, 1] →
    ∃ t, exec (.compressBmv m) s = .next t ∧ PlainEngine s t e ∧ EngineDone s t e false [0, 1] ⟨[], [e.view s false 1], []⟩) ∧
  (∀ (s : State) (m : Fin 144) (e : Issue), Ready s e m.val 2 0x27 false [0, 1, 2] →
    ∃ t, exec (.compressIxvPbm m) s = .next t ∧ PlainEngine s t e ∧ EngineDone s t e false [0, 1, 2]
      ⟨if e.ins.flag 0 then [e.view s false 2] else [], [e.view s false 1], []⟩) ∧
  (∀ (s : State) (m : Fin 144) (e : Issue), Ready s e m.val 2 0x28 false [0, 1, 2] →
    ∃ t, exec (.intersection m) s = .next t ∧ PlainEngine s t e ∧
      EngineDone s t e false [0, 1, 2] ⟨[{ (e.view s false 2) with w := 32 }], [], []⟩) ∧
  (∀ (s : State) (m : Fin 144) (e : Issue), Ready s e m.val 2 0x29 false [0, 1, 2] →
    ∃ t, exec (.sparseFeed m) s = .next t ∧ PlainEngine s t e ∧ EngineDone s t e false [0, 1, 2] ⟨[e.view s false 2], [], []⟩) ∧
  (∀ (s : State) (m : Fin 144) (e : Issue), Ready s e m.val 2 0x2A false [0, 1, 2, 3] →
    ∃ t, exec (.structuredPack m) s = .next t ∧ PlainEngine s t e ∧ EngineDone s t e false [0, 1, 2, 3]
      ⟨[e.view s false 2, { (e.view s false 3) with w := 2 }] ++ (if e.ins.flag 1 then
        [e.desc (e.ins.op 15 0), { (e.desc (e.ins.op 31 16)) with w := 2 }] else []), [], []⟩) ∧
  (∀ (s : State) (m : Fin 144) (e : Issue), Ready s e m.val 2 0x2B false [0, 1, 2] →
    ∃ t, exec (.predictorUnion m) s = .next t ∧ PlainEngine s t e ∧ EngineDone s t e false [0, 1, 2]
      (if e.ins.flag 0 then ⟨[e.view s false 2], [], []⟩ else ⟨[], [e.view s false 1], []⟩)) ∧
  (∀ (s : State) (m : Fin 144) (e : Issue), Ready s e m.val 2 0x2C false [0, 1] →
    ∃ t, exec (.auditCompare m) s = .next t ∧ PlainEngine s t e ∧ EngineDone s t e false [0, 1] ⟨[], [], []⟩) ∧
  (∀ (s : State) (m : Fin 144) (e : Issue), Ready s e m.val 2 0x30 false [0, 1] →
    ∃ t, exec (.rank m) s = .next t ∧ PlainEngine s t e ∧ EngineDone s t e false [0, 1] ⟨[], [e.view s false 1], []⟩) ∧
  (∀ (s : State) (m : Fin 144) (e : Issue), Ready s e m.val 2 0x31 false [0, 1] →
    ∃ t, exec (.place m) s = .next t ∧ PlainEngine s t e ∧ EngineDone s t e false [0, 1] ⟨[], [e.view s false 1],
      match e.img.router (e.ins.op 5 0) with
      | none => []
      | some r => (List.range r.e).flatMap fun x => (List.range 8).map fun j => r.stats + 64 * x + 8 * s.routeMb + j⟩) ∧
  (∀ (s : State) (m : Fin 144) (e : Issue), Ready s e m.val 2 0x32 false [0, 1, 2] →
    ∃ t, exec (.dispatchPack m) s = .next t ∧ PlainEngine s t e ∧
      EngineDone s t e false [0, 1, 2] ⟨[e.view s false 2], [e.view s false 2], []⟩) ∧
  (∀ (s : State) (m : Fin 144) (e : Issue), Ready s e m.val 2 0x33 false [0, 1] →
    ∃ t, exec (.receiveCompact m) s = .next t ∧ PlainEngine s t e ∧
      EngineDone s t e false [0, 1] ⟨[(e.view s false 1).receives], [], []⟩) ∧
  (∀ (s : State) (m : Fin 144) (e : Issue), Ready s e m.val 2 0x34 false [0, 1, 2, 3] →
    ∃ t, exec (.combine m) s = .next t ∧ PlainEngine s t e ∧ EngineDone s t e false [0, 1, 2, 3]
      ⟨[if e.ins.flag 0 then { (e.view s false 3) with w := 32 } else e.view s false 0], [], []⟩)

/-- R153, R154: a gather of one UINT32 index over a table of whole-byte elements copies the row that the index names, 0 for a negative
index and the last row for one too high.
Where the rules leave a point open, what is stated is the model's choice: log 40. -/
def Obligations.GatherOneRow : Prop :=
  ∀ (s : State) (m : Fin 144) (e : Issue) (tab idx out : View) (n c rows k r : Nat), Ready s e m.val 2 0x21 false [0, 1, 2] →
    tab = e.view s false 0 → idx = e.view s false 1 → out = e.view s false 2 → PlainRow out n c → tab.slot = none →
    tab.ext = ⟨n, rows, 1, 1⟩ → tab.w = 8 * c → 0 < rows → tab.base + tab.d.stride.getD 1 0 * (rows - 1) + n * c ≤ 0xA800000000 →
    idx.ext = ⟨1, 1, 1, 1⟩ → idx.d.format = 0x0D → tab.d.format = out.d.format → fmtBlock tab.d.format = 0 → s.run.set = false →
    r = s.codeAt e.img (e.agent false) idx ⟨0, 0, 0, 0⟩ → k < n * c →
    ∃ t, exec (.gather m) s = .next t ∧ NMap.get 0 t.mem (out.base + k) =
      NMap.get 0 s.mem (tab.base + tab.d.stride.getD 1 0 * (if 2 ^ 31 ≤ r then 0 else min r (rows - 1)) + k)

/-- R159, R160: a merge of two runs of records writes their merge, every record kept, a record of run 0 before one of run 1 with the
same key, in ascending order when both runs are; R260: equal neighbours of an owner's sum become one record with the FP32 sum, and
the keys of its result rise strictly.
Where the rules leave a point open, what is stated is the model's choice: log 40. -/
def Obligations.MergedRuns : Prop :=
  (∀ (s : State) (m : Fin 144) (e : Issue) (v0 v1 out : View) (n0 n1 p : Nat), Ready s e m.val 2 0x24 false [0, 1, 2] →
    v0 = { (e.view s false 0) with w := 64 } → v1 = { (e.view s false 1) with w := 64 } → out = { (e.view s false 2) with w := 64 } →
    PlainRow v0 n0 8 → PlainRow v1 n1 8 → PlainRow out (n0 + n1) 8 → s.run.set = false → p < n0 + n1 →
    (out.base + 8 * (n0 + n1) ≤ v0.base ∨ v0.base + 8 * n0 ≤ out.base) → (out.base + 8 * (n0 + n1) ≤ v1.base ∨ v1.base + 8 * n1 ≤ out.base) →
    ∃ t, exec (.merge m) s = .next t ∧ t.recordAt e out p = (mergeTwo (n0 + n1 + 1) ((List.range n0).map (s.recordAt e v0))
      ((List.range n1).map (s.recordAt e v1))).getD p (0, 0)) ∧
  (∀ (xs ys : List MRec), (mergeTwo (xs.length + ys.length + 1) xs ys).Perm (xs ++ ys)) ∧
  (∀ (xs ys : List MRec), xs.Pairwise (fun x y => x.1 ≤ y.1) → ys.Pairwise (fun x y => x.1 ≤ y.1) →
    (mergeTwo (xs.length + ys.length + 1) xs ys).Pairwise (fun x y => x.1 ≤ y.1)) ∧
  (∀ (xs : List MRec), xs.Pairwise (fun x y => x.1 ≤ y.1) → (sumEqual xs).1.Pairwise (fun x y => x.1 < y.1) ∧
    ∀ k, k ∈ (sumEqual xs).1.map (·.1) ↔ k ∈ xs.map (·.1))

/-- R181, R182: of a token's candidates the best D are kept, in descending order of key, and of equal keys the lower expert first;
whatever is left out has no greater key.
R183: a token's slots take the candidates in their order, each at the expert's next position, and never beyond its quota; a
slot stays unplaced when no candidate is left. -/
def Obligations.RankedAndPlaced : Prop :=
  (∀ (d : Nat) (cs : List Cand), (cs.all fun c => (dec32 c.key).isFinite) = true → cs.Pairwise (fun x y => x.ex < y.ex) →
     (rankCands d cs).length = min d cs.length ∧ (∀ c ∈ rankCands d cs, c ∈ cs) ∧
     (rankCands d cs).Pairwise (fun x y => (dec32 x.key).lt (dec32 y.key) = false ∧
       ((dec32 y.key).lt (dec32 x.key) = false → x.ex < y.ex)) ∧
     ∀ c ∈ cs, c ∉ rankCands d cs → ∀ x ∈ rankCands d cs, (dec32 x.key).lt (dec32 c.key) = false) ∧
  (∀ (quota : List Nat) (k : Nat) (cs : List (Nat × Nat)) (used : NMap Nat) (r : List (Option Placed) × NMap Nat × Nat),
     r = placeSlots quota k cs used → cs.Pairwise (fun x y => x.1 ≠ y.1) →
     r.1.length = k ∧ ((r.1.filterMap id).map fun x => (x.ex, x.raw)).Sublist cs ∧
     (∀ x ∈ r.1.filterMap id, x.pos = NMap.get 0 used x.ex ∧ x.pos < quota.getD x.ex 0) ∧
     (∀ x, NMap.get 0 r.2.1 x = NMap.get 0 used x + ((r.1.filterMap id).filter fun y => y.ex == x).length) ∧
     ((∃ o ∈ r.1, o = none) → ∀ c ∈ cs, (∀ x ∈ r.1.filterMap id, x.ex ≠ c.1) → quota.getD c.1 0 ≤ NMap.get 0 used c.1))

/-- R145, R204, R206: COPY and TCOPY are done whole, and store within their destination alone; a copy between two rows of one format with
whole-byte elements moves the bytes, every one read before any is written.
R81, R204 and log 20: a kernel that only returns is done at once; a kernel that stores its argument at an offset of its Mill's Hopper
and returns has stored it there and nowhere else; a kernel that has not returned within the steps given waits.
Where the rules leave a point open, what is stated is the model's choice: logs 20 and 40. -/
def Obligations.CopiesAndKernels : Prop :=
  (∀ (s : State) (m : Fin 144) (e : Issue), Ready s e m.val 3 0x40 false [0, 1] →
    ∃ t, exec (.copy m) s = .next t ∧ PlainEngine s t e ∧ EngineDone s t e false [0, 1] ⟨[e.view s false 1], [], []⟩) ∧
  (∀ (s : State) (f : Fin 8) (e : Issue), Ready s e f.val 5 0x50 false [0, 1] →
    ∃ t, exec (.tcopy f) s = .next t ∧ PlainEngine s t e ∧ EngineDone s t e false [0, 1] ⟨[e.view s false 1], [], []⟩) ∧
  (∀ (s : State) (m : Fin 144) (e : Issue) (vs vd : View) (n c k : Nat), Ready s e m.val 3 0x40 false [0, 1] → vs = e.view s false 0 →
    vd = e.view s false 1 → PlainRow vs n c → PlainRow vd n c → vs.d.format = vd.d.format → vs.d.blockAxis = vd.d.blockAxis →
    fmtBlock vs.d.format = 0 → s.run.set = false → k < n * c →
    ∃ t, exec (.copy m) s = .next t ∧ NMap.get 0 t.mem (vd.base + k) = NMap.get 0 s.mem (vs.base + k)) ∧
  (∀ (s : State) (m : Fin 144) (n : Nat) (e : Issue), Ready s e m.val 4 0x60 false [0, 1, 2, 3] →
    fieldAt e.rc.kernel (e.ins.op 31 0) 4 % 128 = 0x73 →
    ∃ t, exec (.run m (n + 1)) s = .next t ∧ PlainEngine s t e ∧ EngineDone s t e false [0, 1, 2, 3] ⟨[], [], []⟩) ∧
  (∀ (s : State) (m : Fin 144) (n imm : Nat) (e : Issue), Ready s e m.val 4 0x60 false [0, 1, 2, 3] → imm < 2048 → e.m < 152 →
    fieldAt e.rc.kernel (e.ins.op 31 0) 4 = encS 2 0 10 imm → fieldAt e.rc.kernel (e.ins.op 31 0 + 4) 4 % 128 = 0x73 →
    e.img.uses e.m = true → s.bankAt e.m imm = .on → s.run.set = false →
    ∃ t, exec (.run m (n + 2)) s = .next t ∧ PlainEngine s t e ∧
      ∀ x, NMap.get 0 t.mem x = if hopperBase e.m + imm ≤ x ∧ x < hopperBase e.m + imm + 4
        then (leBytes 4 (e.ins.op 63 32)).getD (x - (hopperBase e.m + imm)) 0 else NMap.get 0 s.mem x) ∧
  (∀ (s : State) (m : Fin 144) (e : Issue), Ready s e m.val 4 0x60 false [0, 1, 2, 3] → exec (.run m 0) s = .next (s.keepShapes e))


/-! ### Images, jobs and long operations (R208-R210, R224, R305, R331, R334-R338) -/

/-- R208, R209: an IMAGE_LOAD checks the staged image and leaves it waiting for its commit point, or fails its operation with the
status and the place of the first failure; nothing else changes.
R208, R209: the first failure wins: BUSY, NOT_READY, the header, the signature over everything before the trailer.
Where the rules leave a point open, what is stated is the model's choice: log 47. -/
def Obligations.ImageChecked : Prop :=
  (∀ (s : State) (h : LeatHdr) (ses : Session) (a n : Nat) (rd : State × List Byte) (r : State × Word32), ses.control = true →
    a % 8 = 0 → a + n ≤ 0xA800000000 → s.pwr.plCur = 0 → s.pwr.plBusy = false → s.memctl.zeroed = true →
    rd = (s.rx h.port).millerRead a (min n 0x10000008) → r = rd.1.newOp .image →
    Admitted s h ses 0x0020 (leBytes 8 a ++ leBytes 8 n) →
    exec (.imageLoad h (leBytes 8 a ++ leBytes 8 n)) s = .next ((s.rx h.port).execute ses h 0x0020
      ⟨r.1.loadVerdict r.2 rd.2 (rd.1.loadBad rd.2), 0, leBytes 4 r.2.toNat, []⟩)) ∧
  (∀ (s X : State) (bs : List Byte) (hd : Word32), hd = BitVec.ofNat 32 (0x20000000 + (s.opSerial + 1) % 2 ^ 28) →
    X = (s.newOp .image).1.loadVerdict (s.newOp .image).2 bs none → (s.newOp .image).2 = hd ∧
      X = { s with ops := X.ops, opSerial := s.opSerial + 1, loading := some (Image.parse bs) } ∧
      X.op hd = some ⟨hd, .image, .running, 0, bs.length, s.time.ns, s.time.ordinal⟩) ∧
  (∀ (s X : State) (bs : List Byte) (b : Bad) (hd : Word32), hd = BitVec.ofNat 32 (0x20000000 + (s.opSerial + 1) % 2 ^ 28) →
    X = (s.newOp .image).1.loadVerdict (s.newOp .image).2 bs (some b) →
      X = { s with
        ops := X.ops, opSerial := s.opSerial + 1, img := ⟨b.status, b.sec, b.off⟩, leat := X.leat, out := X.out, cnt := X.cnt } ∧
      X.op hd = some ⟨hd, .image, .failed, b.status, 0, s.time.ns, s.time.ordinal⟩) ∧
  (∀ (s : State) (bs : List Byte), s.loadBusy = true → s.loadBad bs = some ⟨1, 0, 0⟩) ∧
  (∀ (s : State) (bs : List Byte), s.loadBusy = false → s.loadNotReady = true → s.loadBad bs = some ⟨2, 0, 0⟩) ∧
  (∀ (s : State) (bs : List Byte) (b : Bad), s.loadBusy = false → s.loadNotReady = false → headerBad bs = some b → s.loadBad bs = some b) ∧
  (∀ (s : State) (bs : List Byte), s.loadBusy = false → s.loadNotReady = false → headerBad bs = none → s.signed bs = false →
    s.loadBad bs = some ⟨3, 0xFFFF, bs.length - 144⟩) ∧
  (∀ (s : State) (bs e : List Byte), enrolFind s.nv.enrolment 2 ((bs.drop (bs.length - 144)).take 8) = some e →
    s.signed bs = ecdsaVerify (slice e 8 133) (sha512 (bs.take (bs.length - 144))) (slice (bs.drop (bs.length - 144)) 8 132)) ∧
  (∀ (s : State) (bs : List Byte), s.nv.owner = none → s.signed bs = false)

/-- R99, R109, R210, R319: at its commit point an image is installed: the suspended job and the old image are gone, the Hoppers are zero
with the banks that the image powers ON, the Kettles are empty, the shape registers hold their initial values, every Mill that is
retired or suspect and not permanent takes the verdict of its load test, Tailrace closes, and no byte below the fabric changes.
Where the rules leave a point open, what is stated is the model's choice: logs 7, 25, 49 and 67. -/
def Obligations.ImageInstalled : Prop :=
  (∀ (s : State) (bits : BitVec 152) (img : Image) (o : Op), s.loading = some img → s.opOf .image = some o → s.up = true → s.pwr.plCur = 0 →
    ∃ t, exec (.imageInstall bits) s = .next t ∧ t.image = some img ∧ t.loading = none ∧ t.img.last = 0 ∧ t.ctx.active = false ∧
      t.run.job = 0 ∧ t.run.failed = false ∧ t.streams = [] ∧ t.races = [] ∧ t.weirs = [] ∧ t.kettle = [] ∧ t.banks = img.banks ∧
      t.shapes = img.shapesMap ∧ t.leat.tailraceOpen = s.boot.recovery ∧ t.leat.tailraceDone = true ∧
      (∀ a, 0x020000000000 ≤ a → a < 0x020013000000 → NMap.get 0 t.mem a = 0) ∧
      (∀ a, a < 0x010000000000 → NMap.get 0 t.mem a = NMap.get 0 s.mem a) ∧
      (∀ m, m < 152 → t.mill m = if ((s.mill m).retired || (s.mill m).suspect) && !(s.mill m).permanent
        then (s.mill m).tested (bits.getLsbD m) else s.mill m) ∧
      ∀ o', t.op o.handle = some o' → o'.state = .done) ∧
  (∀ (s : State) (bits : BitVec 152), s.loading = none → exec (.imageInstall bits) s = .next s) ∧
  (∀ (r : MillRec), r.tested true = { r with retired := false, suspect := false, count := 0 } ∧ (r.tested false).retired = true ∧
    (r.tested false).count = r.count + 1 ∧ ((r.tested false).permanent = true ↔ 3 ≤ r.count + 1))

/-- R331, R337, R338: a JOB_START that nothing refuses starts its context and its job: a fresh start at step 0 with the image's loss
scale and parameter set 0, one with CONTINUE where the state block stands; refusals answer their DETAIL and start nothing.
Where the rules leave a point open, what is stated is the model's choice: logs 45, 50 and 51. -/
def Obligations.JobStarts : Prop :=
  ∀ (s : State) (h : LeatHdr) (ses : Session) (a n : Nat) (rd : State × List Byte) (b : JobBlock), ses.control = true → a % 8 = 0 →
    a + 0x30 ≤ 0xA800000000 → s.pwr.plCur = 0 → s.pwr.plBusy = false → s.memctl.zeroed = true → Admitted s h ses 0x0021 (leBytes 8 a) →
    (s.startBusy = true → exec (.jobStart h (leBytes 8 a)) s = .next ((s.rx h.port).execute ses h 0x0021 ⟨s.rx h.port, 1, [], []⟩)) ∧
    (s.startBusy = false → n = jobBlockBytes ((s.rx h.port).millerBytes a 0x30) → a + n ≤ 0xA800000000 →
      rd = (s.rx h.port).millerRead a n → b = JobBlock.parse rd.2 →
      (rd.1.image = none → exec (.jobStart h (leBytes 8 a)) s =
        .next ((s.rx h.port).execute ses h 0x0021 ⟨rd.1, 0xA, leBytes 4 0 ++ leBytes 4 0x10, []⟩)) ∧
      (∀ img d, rd.1.image = some img → rd.1.jobRefusal img b = some d → exec (.jobStart h (leBytes 8 a)) s =
        .next ((s.rx h.port).execute ses h 0x0021 ⟨rd.1, 0xA, leBytes 4 0 ++ leBytes 4 d, []⟩)) ∧
      (∀ img hd, rd.1.image = some img → rd.1.jobRefusal img b = none → rd.1.startPages img b.cont = [] →
        hd = BitVec.ofNat 32 (0x10000000 + (rd.1.opSerial + 1) % 2 ^ 28) →
        ∃ X : State, exec (.jobStart h (leBytes 8 a)) s =
            .next ((s.rx h.port).execute ses h 0x0021 ⟨X, 0, leBytes 4 hd.toNat ++ leBytes 4 0, []⟩) ∧
          X.image = some img ∧ X.ctx = ⟨true, b.context, 0, rd.1.time.ns, false⟩ ∧ X.run.job = hd ∧ X.run.stepLimit = b.stepLimit ∧
          X.run.capture = b.capture ∧ X.run.failed = false ∧ X.run.snapSeq = 0 ∧ X.wheel.valid = true ∧ X.wheel.p = b.p ∧
          X.wheel.device = b.device ∧ X.wheel.roles = (List.range 12).map img.role ∧ X.races = [] ∧ X.weirs = [] ∧
          (∀ r ∈ img.streams, (X.stream (8 * r.owner + r.kind)).pc = 0 ∧
            ((X.stream (8 * r.owner + r.kind)).stat = .running ∨ (X.stream (8 * r.owner + r.kind)).stat = .stepEnd)) ∧
          (∃ o, X.op hd = some o ∧ o.kind = .job ∧ o.state = .running ∧ o.progress = X.run.step) ∧
          (b.cont = false → X.run.step = 0 ∧ X.run.scale = img.lossScale.1 ∧ X.run.set = false ∧ X.run.skips = 0 ∧ X.run.seed = b.seed ∧
            X.run.committedTag = some img.jobTag) ∧
          (b.cont = true → img.hasRt = true → X.run.step = rd.1.num (img.rtState + 0x60) 8 ∧
            X.run.set = decide (rd.1.num (img.rtState + 0x6C) 4 % 2 = 1))))

/-- R334-R337: suspending a job at a boundary waits for it, suspending it at once resets its owner state; resuming goes on; cancelling
ends it; a query answers its record; a terminal operation answers BAD_STATE, an unknown handle NO_HANDLE.
R334: an operation that changes state takes the state, the status and the time, raises OP_STATE with both, and changes nothing else.
Where the rules leave a point open, what is stated is the model's choice: logs 10 and 53. -/
def Obligations.OperationCommands : Prop :=
  (∀ (s : State) (h : LeatHdr) (ses : Session) (hd : Word32) (o : Op) (at_ : Nat), ses.control = true → s.op hd = some o → o.kind = .job →
    o.state = .running → at_ < 2 ^ 64 →
    (Admitted s h ses 0x0030 (leBytes 4 hd.toNat ++ leBytes 4 0 ++ leBytes 8 at_) →
      exec (.opSuspend h (leBytes 4 hd.toNat ++ leBytes 4 0 ++ leBytes 8 at_)) s = .next ((s.rx h.port).execute ses h 0x0030
        ⟨State.opMove { s.rx h.port with run := { s.run with suspendAt := some at_ } } hd .suspending 0, 0, [], []⟩)) ∧
    (Admitted s h ses 0x0030 (leBytes 4 hd.toNat ++ leBytes 4 1 ++ leBytes 8 at_) →
      exec (.opSuspend h (leBytes 4 hd.toNat ++ leBytes 4 1 ++ leBytes 8 at_)) s = .next ((s.rx h.port).execute ses h 0x0030
        ⟨State.opMove ({ s.rx h.port with run := { s.run with suspendAt := none } }).ownerReset hd .suspended 6, 0, [], []⟩)) ∧
    (Admitted s h ses 0x0032 (leBytes 4 hd.toNat) → ∃ X : State, exec (.opCancel h (leBytes 4 hd.toNat)) s =
        .next ((s.rx h.port).execute ses h 0x0032 ⟨X, 0, [], []⟩) ∧ X.run.job = 0 ∧ X.ctx.active = false ∧ X.weirs = [] ∧ X.races = [] ∧
        X.mem = s.mem ∧ X.image = s.image)) ∧
  (∀ (s : State) (h : LeatHdr) (ses : Session) (hd : Word32) (o : Op), ses.control = true → s.op hd = some o → o.kind = .job →
    o.state = .suspending → Admitted s h ses 0x0031 (leBytes 4 hd.toNat) → exec (.opResume h (leBytes 4 hd.toNat)) s =
      .next ((s.rx h.port).execute ses h 0x0031
        ⟨State.opMove { s.rx h.port with run := { s.run with suspendAt := none } } hd .running 0, 0, [], []⟩)) ∧
  (∀ (s : State) (h : LeatHdr) (ses : Session) (hd : Word32) (o : Op) (img : Image), ses.control = true → s.op hd = some o → o.kind = .job →
    o.state = .suspended → o.status = 5 → s.image = some img → s.busyOp .image = false → Admitted s h ses 0x0031 (leBytes 4 hd.toNat) →
    exec (.opResume h (leBytes 4 hd.toNat)) s = .next ((s.rx h.port).execute ses h 0x0031
      ⟨State.opMove { s.rx h.port with ctx := { s.ctx with progress := s.time.ns, reported := false } } hd .running 0, 0, [], []⟩)) ∧
  (∀ (s : State) (h : LeatHdr) (ses : Session) (hd : Word32) (o : Op), s.op hd = some o → Admitted s h ses 0x0033 (leBytes 4 hd.toNat) →
    exec (.opQuery h (leBytes 4 hd.toNat)) s = .next ((s.rx h.port).execute ses h 0x0033 ⟨s.rx h.port, 0, opRecord o, []⟩)) ∧
  (∀ (s : State) (h : LeatHdr) (ses : Session) (hd : Word32) (status : Nat), ses.control = true →
    (s.op hd = none ∧ status = 8 ∨ (∃ o, s.op hd = some o ∧ o.state.terminal = true) ∧ status = 9) →
    (Admitted s h ses 0x0030 (leBytes 4 hd.toNat ++ leBytes 4 0 ++ leBytes 8 0) →
      exec (.opSuspend h (leBytes 4 hd.toNat ++ leBytes 4 0 ++ leBytes 8 0)) s =
        .next ((s.rx h.port).execute ses h 0x0030 ⟨s.rx h.port, status, [], []⟩)) ∧
    (Admitted s h ses 0x0031 (leBytes 4 hd.toNat) →
      exec (.opResume h (leBytes 4 hd.toNat)) s = .next ((s.rx h.port).execute ses h 0x0031 ⟨s.rx h.port, status, [], []⟩)) ∧
    (Admitted s h ses 0x0032 (leBytes 4 hd.toNat) →
      exec (.opCancel h (leBytes 4 hd.toNat)) s = .next ((s.rx h.port).execute ses h 0x0032 ⟨s.rx h.port, status, [], []⟩))) ∧
  (∀ (s : State) (hd : Word32) (o : Op) (st : OpState) (status : Nat), s.op hd = some o → o.state ≠ st →
     (s.opMove hd st status).hasEvent 0x0001 [st.code, status] ∧
     s.opMove hd st status = { s with
       ops := (s.opMove hd st status).ops, leat := (s.opMove hd st status).leat, out := (s.opMove hd st status).out
       cnt := (s.opMove hd st status).cnt } ∧
     (∀ o', (s.opMove hd st status).op hd = some o' → o'.state = st ∧ o'.status = status ∧ o'.kind = o.kind ∧
       o'.timeNs = s.time.ns ∧ o'.ordinal = s.time.ordinal) ∧
     (((s.opMove hd st status).ops.filter fun x => x.state.terminal).length ≤ 64) ∧
     ∀ k o', k ≠ hd → (s.opMove hd st status).op k = some o' → o' ∈ s.ops)


/-! ### Scrubs, the self-test and the (72,64) code (R121-R129, R318, R319, R335) -/

/-- R125, R126: a word and its check byte survive any one flipped bit, of the 72, and two flipped bits are reported as uncorrectable. The
syndrome of a bit is the set of R125, or one check bit.
R127, R129: verifying a correctable word repairs it and counts it; an uncorrectable word is counted and logged and stands as it is;
the scrub does the same, and in a Hopper an uncorrectable word makes its Mill suspect. -/
def Obligations.WordsVerified : Prop :=
  (∀ d, d < 2 ^ 64 → ∀ i, i < 64 → eccOf (d ^^^ 2 ^ i) (checkOf (d ^^^ 2 ^ i) ^^^ checkOf d) = .ce d) ∧
  (∀ d, d < 2 ^ 64 → ∀ c, c < 8 → eccOf d (checkOf d ^^^ checkOf d ^^^ 2 ^ c) = .ce d) ∧
  (∀ d, d < 2 ^ 64 → ∀ i j, i < 64 → j < 64 → i ≠ j →
    eccOf (d ^^^ 2 ^ i ^^^ 2 ^ j) (checkOf (d ^^^ 2 ^ i ^^^ 2 ^ j) ^^^ checkOf d) = .ue) ∧
  (∀ d, d < 2 ^ 64 → ∀ i c, i < 64 → c < 8 → eccOf (d ^^^ 2 ^ i) (checkOf (d ^^^ 2 ^ i) ^^^ checkOf d ^^^ 2 ^ c) = .ue) ∧
  (∀ d, d < 2 ^ 64 → ∀ c c', c < 8 → c' < 8 → c ≠ c' → eccOf d (2 ^ c ^^^ 2 ^ c') = .ue) ∧
  (∀ d, eccOf d 0 = .ok) ∧ (∀ d c, c < 8 → eccOf d (2 ^ c) = .ce d) ∧ (∀ d i, i < 64 → eccOf d (hSets.getD i 0) = .ce (d ^^^ 2 ^ i)) ∧
  (∀ d y, y ≠ 0 → (∀ c, c < 8 → y ≠ 2 ^ c) → (∀ i, i < 64 → y ≠ hSets.getD i 0) → eccOf d y = .ue) ∧
  (∀ (s : State) (w d : Nat), eccOf (s.rawWord w) (s.synOf w) = .ce d → ∃ t, s.verifyWord w = (t, false) ∧
    t = { s with mem := t.mem, syn := t.syn, cnt := t.cnt } ∧ t.rawWord w = d % 2 ^ 64 ∧ t.synOf w = 0 ∧
    (∀ v, v ≠ w → t.rawWord v = s.rawWord v ∧ t.synOf v = s.synOf v) ∧
    t.source (eccStore (8 * w)).2 = s.source (eccStore (8 * w)).2 + 1) ∧
  (∀ (s : State) (w : Nat), eccOf (s.rawWord w) (s.synOf w) = .ue → s.memctl.ueValid = false → ∃ t, s.verifyWord w = (t, true) ∧
    t = { s with cnt := t.cnt, memctl := { s.memctl with ueValid := true, ueStore := (eccStore (8 * w)).1, ueAddr := 8 * w } } ∧
    t.source ((eccStore (8 * w)).2 + 4) = s.source ((eccStore (8 * w)).2 + 4) + 1) ∧
  (∀ (s : State) (w d : Nat) (patrol : Bool), eccOf (s.rawWord w) (s.synOf w) = .ce d → ∃ t, s.scrubWord patrol w = t ∧
    t = { s with mem := t.mem, syn := t.syn, cnt := t.cnt } ∧ t.rawWord w = d % 2 ^ 64 ∧ t.synOf w = 0) ∧
  (∀ (s : State) (w m : Nat) (patrol : Bool), eccOf (s.rawWord w) (s.synOf w) = .ue → hopperMill (8 * w) = some m →
    ((s.scrubWord patrol w).mill m).suspect = true ∧ (s.scrubWord patrol w).mem = s.mem ∧ (s.scrubWord patrol w).run = s.run)

/-- R128, R129, R335: a scrub names its stores and goes on line by line, and ends after its last line or after the line in which it is
cancelled or suspended; the patrol reads one line of a package after another, and none while the packages are in self-refresh.
R318, R319, R335: a self-test uninstalls the image as it starts and then tests Mill after Mill: a pass clears SUSPECT, a failure
retires the Mill and adds one to the STATUS; the tested Mill's Hopper is zero with its banks OFF; after Mill 151 the test is done.
Where the rules leave a point open, what is stated is the model's choice: logs 25, 57 and 84. -/
def Obligations.ScrubsAndSelfTests : Prop :=
  (∀ (s : State) (h : LeatHdr) (ses : Session) (v : Nat) (hd : Word32), ses.control = true → v < 8 → 0 < v → s.pwr.plCur = 0 → s.pwr.plBusy = false →
    s.busyOp .scrub = false → s.busyOp .selfTest = false → (2 ≤ v → s.jobOpen = false ∧ s.snap.st = .idle) →
    hd = BitVec.ofNat 32 (0x50000000 + (s.opSerial + 1) % 2 ^ 28) → Admitted s h ses 0x0024 (leBytes 4 v) →
    ∃ X : State, exec (.scrub h (leBytes 4 v)) s = .next ((s.rx h.port).execute ses h 0x0024 ⟨X, 0, leBytes 4 hd.toNat, []⟩) ∧
      X = { s.rx h.port with
        ops := ⟨hd, .scrub, .running, 0, 0, s.time.ns, s.time.ordinal⟩ :: s.ops, opSerial := s.opSerial + 1
        work := { s.work with scrubStores := BitVec.ofNat 3 v, scrubLine := 0 } }) ∧
  (∀ (s : State) (h : LeatHdr) (ses : Session) (v : Nat), ses.control = true → v < 2 ^ 32 → s.pwr.plCur = 0 → s.pwr.plBusy = false →
    (s.busyOp .scrub = true ∨ s.busyOp .selfTest = true ∨ 2 ≤ v % 8 ∧ (s.jobOpen = true ∨ s.snap.st ≠ .idle)) →
    Admitted s h ses 0x0024 (leBytes 4 v) →
    exec (.scrub h (leBytes 4 v)) s = .next ((s.rx h.port).execute ses h 0x0024 ⟨s.rx h.port, 1, [], []⟩)) ∧
  (∀ (s : State) (o : Op) (st : OpState) (status : Nat), s.opOf .scrub = some o → s.pwr.plCur = 0 → s.up = true →
    (o.state = .running ∧ s.work.scrubLine + 1 = scrubTotal s.work.scrubStores ∧ st = .done ∧ status = 0 ∨
      o.state = .cancelling ∧ st = .cancelled ∧ status = 1 ∨ o.state = .suspending ∧ st = .suspended ∧ status = 0) →
    exec .scrubLine s = .next ((State.opProgress { (s.scrubRange false (scrubAddr s.work.scrubStores s.work.scrubLine).1
      (scrubAddr s.work.scrubStores s.work.scrubLine).2) with work := { s.work with scrubLine := s.work.scrubLine + 1 } } o.handle
      (s.work.scrubLine + 1)).opMove o.handle st status)) ∧
  (∀ (s : State) (o : Op), s.opOf .scrub = some o → s.pwr.plCur = 0 → s.up = true → o.state = .running →
    s.work.scrubLine + 1 ≠ scrubTotal s.work.scrubStores →
    exec .scrubLine s = .next (State.opProgress { (s.scrubRange false (scrubAddr s.work.scrubStores s.work.scrubLine).1
      (scrubAddr s.work.scrubStores s.work.scrubLine).2) with work := { s.work with scrubLine := s.work.scrubLine + 1 } } o.handle
      (s.work.scrubLine + 1))) ∧
  (∀ (s : State) (p : Fin 12), s.selfRefresh = true → exec (.patrolScrubRead p) s = .next s) ∧
  (∀ (s : State) (p : Fin 12) (a : Nat), s.up = true → s.memctl.patrolOn.getLsbD p.val = true → s.selfRefresh = false →
    pkgLine p.val (NMap.get 0 s.memctl.patrol p.val) = some a → exec (.patrolScrubRead p) s = .next (State.scrubRange { s with
      memctl := { s.memctl with
        patrol := NMap.set 0 s.memctl.patrol p.val ((NMap.get 0 s.memctl.patrol p.val + 1) % 0x10000000) } } true a 256)) ∧
  (∀ v : BitVec 3, 0 < scrubTotal v ↔ v ≠ 0) ∧
  (∀ (s : State) (h : LeatHdr) (ses : Session) (hd : Word32), ses.control = true → s.pwr.plCur = 0 → s.pwr.plBusy = false → s.jobOpen = false →
    s.snap.st = .idle → (∀ k, k ∈ [OpKind.snapshot, .restore, .image, .scrub, .selfTest] → s.busyOp k = false) →
    hd = BitVec.ofNat 32 (0x60000000 + (s.opSerial + 1) % 2 ^ 28) → Admitted s h ses 0x0025 [] →
    ∃ X : State, exec (.selfTest h []) s = .next ((s.rx h.port).execute ses h 0x0025 ⟨X, 0, leBytes 4 hd.toNat, []⟩) ∧
      X.image = none ∧ X.loading = none ∧ X.streams = [] ∧ X.ctx.active = false ∧ X.work.testMill = 0 ∧ X.mem = s.mem ∧ X.mills = s.mills ∧
      X.op hd = some ⟨hd, .selfTest, .running, 0, 0, s.time.ns, s.time.ordinal⟩) ∧
  (∀ (s : State) (h : LeatHdr) (ses : Session), ses.control = true → s.pwr.plCur = 0 → s.pwr.plBusy = false → s.jobOpen = true →
    Admitted s h ses 0x0025 [] →
    exec (.selfTest h []) s = .next ((s.rx h.port).execute ses h 0x0025 ⟨s.rx h.port, 1, [], []⟩)) ∧
  (∀ (s : State) (pass : Bool) (o : Op) (m : Nat), s.opOf .selfTest = some o → s.op o.handle = some o → s.pwr.plCur = 0 → s.up = true →
    s.image = none → m = s.work.testMill → m < 152 → ∃ t, exec (.selfTestMill pass) s = .next t ∧ t.work.testMill = m + 1 ∧
      (t.mill m).suspect = (if pass then false else (s.mill m).suspect) ∧ (t.mill m).retired = (!pass || (s.mill m).retired) ∧
      (∀ k, k ≠ m → t.mill k = s.mill k) ∧
      (∀ a, NMap.get 0 t.mem a = if hopperBase m ≤ a ∧ a < hopperBase m + 0x200000 then 0 else NMap.get 0 s.mem a) ∧
      (∀ b, b < 16 → (t.bank m b).st = .off) ∧
      ∀ o', t.op o.handle = some o' → o'.status = o.status + b2n (!pass && !(s.mill m).retired) ∧ o'.progress = m + 1 ∧
        o'.state = if o.state = .cancelling then .cancelled else if m = 151 then .done else o.state)


/-! ### Attestation, the group's commands and firmware updates (R266, R298, R304, R316, R331, R339, R357, R362) -/

/-- R362: ATTEST answers the length and up to 1024 bytes of the report for its nonce and keeps that report; the report of a nonce already
kept is answered again. R331: SET_NET stores the setting in flash and applies it.
Where the rules leave a point open, what is stated is the model's choice: logs 34 and 55. -/
def Obligations.AttestAndSetNet : Prop :=
  (∀ (s : State) (h : LeatHdr) (ses : Session) (nonce : List Byte) (off : Nat), nonce.length = 64 → off < 2 ^ 32 →
    Admitted s h ses 0x0040 (nonce ++ leBytes 4 off) → exec (.attest h (nonce ++ leBytes 4 off)) s = .next ((s.rx h.port).execute ses h
      0x0040 ⟨{ s.rx h.port with sec := { s.sec with report := some (nonce, s.reportFor nonce) } }, 0,
        leBytes 4 (s.reportFor nonce).length ++ slice (s.reportFor nonce) off 1024, []⟩)) ∧
  (∀ (s : State) (nonce r : List Byte), s.sec.report = some (nonce, r) → s.reportFor nonce = r) ∧
  (∀ (s : State) (nonce : List Byte), nonce.length = 64 →
    (s.reportBody nonce).take 4 = leBytes 4 0xA7700008 ∧ slice (s.reportBody nonce) 16 64 = nonce ∧
      slice (s.reportBody nonce) 80 8 = leBytes 8 s.nv.serial.toNat ∧ slice (s.reportBody nonce) 96 8 = leBytes 8 s.time.ns) ∧
  (∀ (s : State) (h : LeatHdr) (ses : Session) (p m : Nat) (pre : Byte) (ip rest : List Byte), ses.control = true → p < 2 → m < 2 →
    ip.length = 4 → rest.length = 4 → Admitted s h ses 0x0043 ([BitVec.ofNat 8 p, BitVec.ofNat 8 m, pre, 0] ++ ip ++ rest) →
    ∃ X : State, exec (.setNet h ([BitVec.ofNat 8 p, BitVec.ofNat 8 m, pre, 0] ++ ip ++ rest)) s = .next ((s.rx h.port).execute ses h
        0x0043 ⟨X, 0, [], []⟩) ∧
      X = { s.rx h.port with eth := X.eth, nv := { s.nv with flash := X.nv.flash }, out := X.out, cnt := X.cnt } ∧
      X.out = (if m = 0 ∧ s.netStatic p = true ∧ (s.port p).linkUp = true
        then .dhcp (if p = 1 then 1 else 0) s.nv.serial none :: s.out else s.out) ∧
      X.port p = { s.port p with
        ipv4 := if m = 1 then BitVec.ofNat 32 (leNat ip) else if s.netStatic p = true then 0 else (s.port p).ipv4 } ∧ (∀ k, k ≠ p → X.port k = s.port k) ∧
      ∀ i, i < 4 → NMap.get 0xFF X.nv.flash (netOff p + 4 + i) = ip.getD i 0)

/-- R266, R304, R298, R316, R339: DIGEST_CHECK marks the step in progress, or the next; SNAPSHOT holds one trigger for the job and answers
its handle again while it is held, and with no context running its operation fails; TAKEOVER answers BAD_STATE unless the group's state allows it, and then readmits.
Where the rules leave a point open, what is stated is the model's choice: logs 53, 66 and 77. -/
def Obligations.GroupCommands : Prop :=
  (∀ (s : State) (h : LeatHdr) (ses : Session), ses.control = true → Admitted s h ses 0x0041 [] →
    exec (.digestCheck h []) s = .next ((s.rx h.port).execute ses h 0x0041
      (if s.run.job = 0 then ⟨s.rx h.port, 9, [], []⟩
       else if s.run.inStep then ⟨{ s.rx h.port with wheel := { s.wheel with suspected := true } }, 0, [], []⟩
       else ⟨{ s.rx h.port with wheel := { s.wheel with suspectNext := true } }, 0, [], []⟩))) ∧
  (∀ (s : State) (h : LeatHdr) (ses : Session), ses.control = true → s.pwr.plCur = 0 → s.pwr.plBusy = false → Admitted s h ses 0x0022 [] →
    (s.run.job = 0 → exec (.snapshot h []) s = .next ((s.rx h.port).execute ses h 0x0022 ⟨s.rx h.port, 9, [], []⟩)) ∧
    (s.run.job ≠ 0 → s.ctx.active = true → s.snap.held = true → exec (.snapshot h []) s =
      .next ((s.rx h.port).execute ses h 0x0022 ⟨s.rx h.port, 0, leBytes 4 s.snap.heldHandle.toNat, []⟩)) ∧
    (s.run.job ≠ 0 → s.ctx.active = false → ∀ hd, hd = BitVec.ofNat 32 (0x30000000 + (s.opSerial + 1) % 2 ^ 28) →
      exec (.snapshot h []) s = .next ((s.rx h.port).execute ses h 0x0022 ⟨State.opMove { s.rx h.port with
        ops := ⟨hd, .snapshot, .running, 0, 0, s.time.ns, s.time.ordinal⟩ :: s.ops, opSerial := s.opSerial + 1 } hd .failed s.snap.last, 0,
        leBytes 4 hd.toNat, []⟩)) ∧
    (s.run.job ≠ 0 → s.ctx.active = true → s.snap.held = false → ∀ hd, hd = BitVec.ofNat 32 (0x30000000 + (s.opSerial + 1) % 2 ^ 28) →
      exec (.snapshot h []) s = .next ((s.rx h.port).execute ses h 0x0022 ⟨{ s.rx h.port with
        ops := ⟨hd, .snapshot, .running, 0, 0, s.time.ns, s.time.ordinal⟩ :: s.ops, opSerial := s.opSerial + 1
        snap := { s.snap with held := true, heldHandle := hd } }, 0, leBytes 4 hd.toNat, []⟩))) ∧
  (∀ (s : State) (h : LeatHdr) (ses : Session) (img : Image) (f sp : Nat), ses.control = true → f < 256 → sp < 256 → s.image = some img →
    Admitted s h ses 0x0042 ([BitVec.ofNat 8 f, BitVec.ofNat 8 sp, 0, 0]) →
    exec (.takeover h [BitVec.ofNat 8 f, BitVec.ofNat 8 sp, 0, 0]) s = .next ((s.rx h.port).execute ses h 0x0042
      (if s.takeoverOk f sp then ⟨(s.rx h.port).readmit img f sp, 0, [], []⟩ else ⟨s.rx h.port, 9, [], []⟩))) ∧
  (∀ (s : State) (img : Image) (f sp : Nat), s.takeoverOk f sp = true → s.wheel.heldFrames = [] → s.run.inStep = false →
    (s.wheel.records.all fun r => r.2.isNone) = true →
    (s.readmit img f sp).wheel.stalled = false ∧ (f ≠ sp → (s.readmit img f sp).wheel.roles = (s.wheel.roles.set sp (s.role f)).set f 0) ∧
      (f = sp → (s.readmit img f sp).wheel.roles = s.wheel.roles))

/-- R357, R358: FW_UPDATE takes a copy of the staged image; each phase ends in the next or in its failure; a flash that fails leaves the
region erased; the last phase reports success, and the region then holds the image and nothing else.
Where the rules leave a point open, what is stated is the model's choice: logs 10 and 55. -/
def Obligations.FirmwareUpdates : Prop :=
  (∀ (s : State) (h : LeatHdr) (ses : Session) (a n : Nat), ses.control = true → a < 2 ^ 64 → n < 2 ^ 64 → Admitted s h ses 0x0050 (leBytes 8 a ++ leBytes 8 n) →
    exec (.fwUpdate h (leBytes 8 a ++ leBytes 8 n)) s = .next ((s.rx h.port).execute ses h 0x0050
      (if a % 8 ≠ 0 ∨ n % 8 ≠ 0 then ⟨s.rx h.port, 5, [], []⟩
       else if 0xA800000000 < a + n ∨ 0x2000000 < n then ⟨s.rx h.port, 6, [], []⟩
       else if s.sec.fw.busy then ⟨s.rx h.port, 1, [], []⟩
       else if s.memctl.zeroed = false then ⟨s.rx h.port, 2, [], []⟩
       else ⟨{ ((s.rx h.port).millerRead a n).1 with sec := { ((s.rx h.port).millerRead a n).1.sec with
         fw := ⟨true, 1, 0, 0, a, n, ((s.rx h.port).millerRead a n).2⟩ } }, 0, [], []⟩))) ∧
  (∀ (s : State) (ok : Bool), s.up = true → s.sec.fw.busy = true → s.sec.fw.phase = 1 → fwCheck s.nv s.sec.fw.image = 1 →
    exec (.fwUpdatePhaseDone ok) s = .next { s with sec := { s.sec with fw := { s.sec.fw with phase := 2, progress := 0 } } }) ∧
  (∀ (s : State) (ok : Bool), s.up = true → s.sec.fw.busy = true → s.sec.fw.phase = 1 → fwCheck s.nv s.sec.fw.image ≠ 1 →
    ∃ t, exec (.fwUpdatePhaseDone ok) s = .next t ∧ t.sec.fw.busy = false ∧ t.sec.fw.result = fwCheck s.nv s.sec.fw.image ∧
      t.nv = s.nv ∧ t.hasEvent 0x0061 [fwCheck s.nv s.sec.fw.image]) ∧
  (∀ (s : State), s.up = true → s.sec.fw.busy = true → s.sec.fw.phase = 2 → ∃ t, exec (.fwUpdatePhaseDone true) s = .next t ∧
    t = { s with nv := { s.nv with flash := t.nv.flash }, sec := { s.sec with fw := { s.sec.fw with phase := 3, progress := 0 } } } ∧
    ∀ i, NMap.get 0xFF t.nv.flash i = if i < 0x2000000 then 0xFF else NMap.get 0xFF s.nv.flash i) ∧
  (∀ (s : State), s.up = true → s.sec.fw.busy = true → s.sec.fw.phase ≠ 1 →
    ∃ t, exec (.fwUpdatePhaseDone false) s = .next t ∧ t.sec.fw.busy = false ∧ t.sec.fw.result = 6 ∧ t.hasEvent 0x0061 [6] ∧
      ∀ i, NMap.get 0xFF t.nv.flash i = if i < 0x2000000 then 0xFF else NMap.get 0xFF s.nv.flash i) ∧
  (∀ (s : State), s.up = true → s.sec.fw.busy = true → s.sec.fw.phase = 3 → s.sec.fw.image.length ≤ 0x2000000 →
    ∃ t, exec (.fwUpdatePhaseDone true) s = .next t ∧ t.sec.fw.phase = 4 ∧ t.sec.fw.busy = true ∧
      ∀ i, NMap.get 0xFF t.nv.flash i = if i < 0x2000000 then s.sec.fw.image.getD i 0xFF else NMap.get 0xFF s.nv.flash i) ∧
  (∀ (s : State), s.up = true → s.sec.fw.busy = true → s.sec.fw.phase = 4 →
    ∃ t, exec (.fwUpdatePhaseDone true) s = .next t ∧ t.sec.fw.busy = false ∧ t.sec.fw.result = 1 ∧ t.sec.fw.phase = 0 ∧ t.nv = s.nv ∧
      t.hasEvent 0x0060 [fieldAt s.sec.fw.image 4 4, fieldAt s.sec.fw.image 8 4])


/-! ### The training runtime (R52-R54, R270-R273, R286-R297) -/

/-- R271: at a boundary of a running job with no suspend requested and the skip count below SKIP_LIMIT, the next step is admitted, in one act:
the runtime's registers, the Wheel's buckets and digests, the working cursor, the lending, the shape registers of SHAPE_MB and every
stream start afresh, and nothing else changes. R295, R336: a boundary that ends or suspends the job admits nothing.
Where the rules leave a point open, what is stated is the model's choice: log 43. -/
def Obligations.StepAdmission : Prop :=
  (∀ (s : State) (img : Image), s.image = some img → s.atBoundary img = true → s.jobRuns = true → s.clk.lost = false →
    s.snapFirst = false → (s.run.stepLimit = 0 ∨ s.run.step < s.run.stepLimit) → (img.hasRt = true → s.run.skips < img.rtSkipLimit) →
    (∀ k, s.run.suspendAt = some k → s.run.step < k) → (img.hasRt = true → s.protectedIn img.rtState 256 = []) →
    img.exchangeCount = 0 → s.wheel.heldFrames = [] → img.rtState + 256 ≤ 0xA800000000 → s.syn = [] →
    (∀ e, img.weirOf s.ctx.table img.rtFwdWeir = some e → img.weirN e = 0 ∨
      ((s.wheelCounted img e).weirSt (img.weirPhys e)).counted.length ≠ img.weirN e) →
    ∃ t, exec .stepAdmit s = .next t ∧
      t = { s with
        mem := t.mem, syn := t.syn, run := t.run, wheel := t.wheel, ctx := ⟨s.ctx.active, s.ctx.table, 0, s.time.ns, false⟩
        pwr := { s.pwr with floors := t.pwr.floors }, streams := t.streams, ports := t.ports, weirs := t.weirs, shapes := t.shapes
        qps := t.qps, races := t.races, cnt := t.cnt, out := t.out, memctl := { s.memctl with cache := t.memctl.cache } } ∧
      t.run = { s.run with
        inStep := true, phase := 1, mask := 0, gated := 0, gateTotal := t.run.gateTotal, mbUe := false, replicaUe := false
        fetchFail := t.run.fetchFail, backward := false, gradTotal := t.run.gradTotal, gradNan := t.run.gradNan
        late := false, amax := [], ordinals := [], data := t.run.data } ∧
      t.wheel = { s.wheel with
        active := true, nextLaunch := 0, nextGather := 0, buckets := [], exchanges := [], suspected := s.wheel.suspectNext
        suspectNext := false, digestsSent := false, digestVote := false, atCommit := false, exchanging := false, records := [], exps := [] } ∧
      (∀ r ∈ img.streams, ∃ r' ∈ img.streams, 8 * r'.owner + r'.kind = 8 * r.owner + r.kind ∧ t.stream (8 * r.owner + r.kind) =
        { s.stream (8 * r.owner + r.kind) with stat := .running, pc := r'.body, loops := [], since := s.time.ns }) ∧
      (∀ k, (∀ r ∈ img.streams, k ≠ 8 * r.owner + r.kind) → t.stream k = s.stream k) ∧
      (∀ k, (img.hasRt = true → ∀ b, b < img.rtM → k % 256 ≠ (img.rtShapeMb + b) % 256) →
        NMap.get 0xFFFFFFFF t.shapes k = NMap.get 0xFFFFFFFF s.shapes k) ∧
      (∀ b i, b < img.bucketCount → i < 192 → t.byte (indexAddr b + 64 + i) = 0) ∧
      ∀ a, (img.hasRt = true → a < img.rtState + 0x30 ∨ img.rtState + 0x60 ≤ a) →
        (∀ b, b < img.bucketCount → a < indexAddr b + 64 ∨ indexAddr b + 256 ≤ a) → t.byte a = s.byte a) ∧
  (∀ (s : State) (img : Image), s.image = some img → s.atBoundary img = true → s.jobRuns = true → s.clk.lost = false →
    s.snapFirst = false → 0 < s.run.stepLimit → s.run.stepLimit ≤ s.run.step →
    ∃ t, exec .stepAdmit s = .next t ∧ t.run.job = 0 ∧ t.ctx.active = false ∧ t.run.step = s.run.step ∧ t.mem = s.mem ∧ t.wheel.active = false) ∧
  (∀ (s : State) (img : Image), s.image = some img → s.atBoundary img = true → s.jobRuns = true → s.clk.lost = false →
    s.snapFirst = false → (s.run.stepLimit = 0 ∨ s.run.step < s.run.stepLimit) →
    (img.hasRt = true → img.rtSkipLimit ≤ s.run.skips → exec .stepAdmit s =
      .next (State.opMove { s with run := { s.run with suspendAt := none } } s.run.job .suspended 7)) ∧
    (∀ k, (img.hasRt = true → s.run.skips < img.rtSkipLimit) → s.run.suspendAt = some k → k ≤ s.run.step → exec .stepAdmit s =
      .next (State.opMove { s with run := { s.run with suspendAt := none } } s.run.job .suspended 5)))

/-- R293, R294, R273, R54, R296: the decision. The step commits when no record votes LATE or DIGEST, C_min is not 0, and at most SKIP_FRACTION of
the group's micro-batches are missing; else it is skipped. The loss scale follows R54 both ways; a commit advances the step number, flips the
parameter set, moves the cursor, the epochs, the residual index and the statistics; a skip leaves all of these as they were.
R292, R286, R287: the own commit record holds the OVERFLOW, LATE and DIGEST bits, the withdrawn micro-batches, the smallest C and the loss
sum; the exchange keeps it beside the records of the other devices and takes the own exponent reports into the maximum.
Where the rules leave a point open, what is stated is the model's choice: logs 42, 43 and 44. -/
def Obligations.StepDecision : Prop :=
  (∀ (s : State) (img : Image) (rs : List (Word64 × Word64)) (v : Votes), UnderDecision s img → img.hasRt = true → s.wheel.exchanging = true →
    s.allRecords = some rs → v = votesOf rs → s.decisionPages img = [] → v.late = false → v.digest = false → v.cMin ≠ 0 →
    256 * (s.wheel.p * img.rtM - v.cMin) ≤ img.rtSkipFraction * (s.wheel.p * img.rtM) →
    ∃ t, exec .commitDecision s = .next t ∧ StepEnded s t ∧ ScaleStep s t img v.ovf ∧ t.run.step = s.run.step + 1 ∧ t.run.set = !s.run.set ∧
      t.run.skips = 0 ∧ t.run.outcome = 1 ∧ t.run.cMin = v.cMin % 2 ^ 16 ∧ t.run.withdrawAll = false ∧ t.run.committedTag = some img.jobTag ∧
      t.bytes (img.rtState + 0x60) 32 = t.run.block ∧ (v.n = 0 → t.run.mu = s.run.mu ∧ t.run.nu = s.run.nu) ∧
      (AreasApart img → t.bytes img.rtState 48 = s.bytes (img.rtState + 0x30) 48 ∧
        (∀ n, n < img.rtStreams → t.num (img.rtPhilox + 32 * n + 8) 8 = if s.num (img.rtPhilox + 32 * n + 16) 8 % 2 = 1
          then (s.num (img.rtPhilox + 32 * n + 8) 8 + 1) % 2 ^ 64 else s.num (img.rtPhilox + 32 * n + 8) 8) ∧
        ∀ b, b < img.bucketCount → t.num (indexAddr b) 8 = (if (img.bucket b).mode = 1 ∨ (img.bucket b).mode = 2
            then 1 - s.num (indexAddr b) 8 % 2 else s.num (indexAddr b) 8 % 2) + 2 + s.run.step % 2 ^ 32 * 2 ^ 32 ∧
          t.num (indexAddr b + 8) 4 = (s.num (indexAddr b + 8) 4 * 256 + s.wheel.exps.getD b 0 % 256) % 2 ^ 32)) ∧
  (∀ (s : State) (img : Image) (rs : List (Word64 × Word64)) (v : Votes), UnderDecision s img → img.hasRt = true → s.wheel.exchanging = true →
    s.allRecords = some rs → v = votesOf rs → s.decisionPages img = [] → (v.late = true ∨ v.digest = true ∨ v.cMin = 0 ∨
      img.rtSkipFraction * (s.wheel.p * img.rtM) < 256 * (s.wheel.p * img.rtM - v.cMin)) →
    ∃ t, exec .commitDecision s = .next t ∧ StepEnded s t ∧ ScaleStep s t img v.ovf ∧ t.run.step = s.run.step ∧ t.run.set = s.run.set ∧
      t.run.skips = s.run.skips + 1 ∧ t.run.outcome = 2 ∧ t.run.mu = s.run.mu ∧ t.run.nu = s.run.nu ∧
      t.run.causes.getLsbD 1 = v.late ∧ t.run.causes.getLsbD 2 = v.digest ∧ t.source (cRun 1) = s.source (cRun 1) + 1 ∧
      ∀ a, a < img.rtState + 0x60 ∨ img.rtState + 0x80 ≤ a → t.byte a = s.byte a) ∧
  (∀ (s : State) (img : Image), UnderDecision s img → img.hasRt = false →
    ∃ t, exec .commitDecision s = .next t ∧ StepEnded s t ∧
      ScaleStep s t img (decide (s.run.gradTotal < s.groupTotal img.gradGroup true)) ∧ t.run.step = s.run.step + 1 ∧
      t.run.set = s.run.set ∧ t.run.skips = 0 ∧ t.run.outcome = 1 ∧ t.mem = s.mem ∧ t.syn = s.syn) ∧
  (∀ rs : List (Word64 × Word64), ((∀ r ∈ rs, bitsOf r.1.toNat 31 16 = 0xFFFF) → (votesOf rs).cMin = (rs.map fun r => bitsOf r.2.toNat 15 0).sum) ∧
    ((∃ r ∈ rs, bitsOf r.1.toNat 31 16 ≠ 0xFFFF) → (∃ r ∈ rs, (votesOf rs).cMin = bitsOf r.1.toNat 31 16) ∧
      ∀ r ∈ rs, (votesOf rs).cMin ≤ bitsOf r.1.toNat 31 16) ∧
    ((votesOf rs).late = true ↔ ∃ r ∈ rs, r.1.getLsbD 1 = true) ∧ ((votesOf rs).digest = true ↔ ∃ r ∈ rs, r.1.getLsbD 2 = true)) ∧
  (∀ (s : State) (img : Image), s.image = some img → img.hasRt = true → s.wheel.exchanging = true → s.run.inStep = true →
    s.wheel.stalled = false → NMap.get none s.wheel.records s.wheel.device = none → s.wheel.suspected = false → s.wheel.heldFrames = [] →
    ∃ t, exec .commitExchange s = .next t ∧ t.wheel = { s.wheel with
        records := NMap.set none s.wheel.records s.wheel.device (some (s.commitRecord img)), exps := maxLists s.wheel.exps (s.reports img)
        alt := t.wheel.alt } ∧
      t = { s with wheel := t.wheel, flume := t.flume, cnt := t.cnt, out := t.out }) ∧
  (∀ (s : State), (∀ d, d < s.wheel.p → NMap.get none s.wheel.records d ≠ none) → ∃ rs, s.allRecords = some rs ∧ rs.length = s.wheel.p ∧
    ∀ d, d < s.wheel.p → rs[d]? = NMap.get none s.wheel.records d) ∧
  (∀ (s : State) (img : Image), (s.commitRecord img).1.getLsbD 0 = decide (s.run.gradTotal < s.groupTotal img.gradGroup true) ∧
    (s.commitRecord img).1.getLsbD 1 = s.run.late ∧ (s.commitRecord img).1.getLsbD 2 = s.wheel.digestVote ∧
    bitsOf (s.commitRecord img).1.toNat 15 8 = s.gateCount ∧ bitsOf (s.commitRecord img).1.toNat 31 16 = s.minCount img % 2 ^ 16 ∧
    bitsOf (s.commitRecord img).1.toNat 63 32 = s.lossSum img % 2 ^ 32 ∧ (s.commitRecord img).2.toNat = img.rtM - s.gateCount) ∧
  (∀ (s : State) (img : Image), s.run.backward = true → s.contribution img = 0) ∧
  ∀ (s : State) (img : Image), s.run.backward = false → s.groupTotal img.gradGroup false ≤ s.run.gradNan →
    s.contribution img = img.rtM - s.gateCount


/-! ### The Wheel's step (R252-R263, R286, R287) -/

/-- R254, R257, R286: a bucket heads the launch queue, fills, is reduced into its shard with its count, and is gathered, entering the Weirs
that its entry names; a bucket that passes one of these places again after a restart enters no Weir twice.
R263, R254: an exchange sends its rows once its SEND Weir has released, and the next exchange enters its own; once every count and row has
arrived the Wheel enters RECV; once every bucket is GATHERED and every exchange through, it enters the commit Weir, once.
Where the rules leave a point open, what is stated is the model's choice: logs 7, 36, 37 and 66. -/
def Obligations.BucketsAndExchanges : Prop :=
  (∀ (s u : State) (img : Image) (b : Nat), s.image = some img → s.wheel.active = true → s.wheel.stalled = false → b = s.wheel.nextLaunch →
    b < img.bucketCount → s.inFlight < 4 → s.syn = [] → u = { s with
      wheel := { s.wheel with nextLaunch := b + 1, buckets := (NMap.set Bucket.init s.wheel.buckets b
        { s.bucketSt b with st := .filling, passed := max 1 (s.bucketSt b).passed, part := s.freePart }) } } →
    exec .bucketLaunch s = .next (State.wheelDrain
      (if (s.bucketSt b).passed = 0 then u.wheelEnter img (img.bucket b).fill true else u))) ∧
  (∀ (s : State), s.inFlight < 4 → s.freePart < 4 ∧
    ∀ p ∈ s.wheel.buckets, p.2.st = .filling ∨ p.2.st = .reducing → p.2.part ≠ s.freePart) ∧
  (∀ (s : State) (img : Image) (b c : Nat), s.image = some img → Quiet s → (s.bucketSt b).st = .filling → s.wheel.stalled = false →
    s.wheel.heldFrames = [] → (2 ≤ (s.bucketSt b).passed ∨ s.wheelReleased img (img.bucket b).fill = true) →
    c = (if 2 ≤ (s.bucketSt b).passed then (s.bucketSt b).count else s.contribution img) →
    ∃ t, exec (.bucketFillRelease b) s = .next t ∧ (t.bucketSt b).st = .reducing ∧ (t.bucketSt b).passed = max 2 (s.bucketSt b).passed ∧
      (t.bucketSt b).count = c ∧ (t.bucketSt b).counts = [c] ∧ (t.bucketSt b).total = c ∧ (t.bucketSt b).stage = 0 ∧
      (∀ k, k ≠ b → t.bucketSt k = s.bucketSt k) ∧ t.run = { s.run with phase := if s.run.phase = 2 then 3 else s.run.phase } ∧
      t = { s with
        run := t.run, wheel := { s.wheel with buckets := t.wheel.buckets, alt := t.wheel.alt }, weirs := t.weirs, cnt := t.cnt, mem := t.mem
        memctl := { s.memctl with cache := t.memctl.cache }, flume := t.flume, out := t.out, leat := t.leat, due := t.due }) ∧
  (∀ (s : State) (img : Image) (b c : Nat) (v : List Nat), s.image = some img → Quiet s → s.shardReady img b = true →
    v = (s.shardVals img b).1 → c = s.shardCount img b →
    ∃ u : State, exec (.bucketReduced b) s = .next (if (s.bucketSt b).passed < 3
        then (u.wheelEnter img (img.bucket b).donev false).wheelEnter img (img.bucket b).updated true else u) ∧
      u.bucketSt b = { s.bucketSt b with st := .reduced, passed := max 3 (s.bucketSt b).passed, total := c, report := expReport v } ∧
      (∀ k, k ≠ b → u.bucketSt k = s.bucketSt k) ∧
      u = { s with mem := u.mem, cnt := u.cnt, wheel := { s.wheel with buckets := u.wheel.buckets }, leat := u.leat, out := u.out, due := u.due } ∧
      (s.run.set = false → (img.bucket b).shard + 4 * v.length + 4 ≤ 0xA800000000 →
        (∀ i, i < v.length → u.num ((img.bucket b).shard + 4 * i) 4 = v.getD i 0 % 2 ^ 32) ∧
        u.num ((img.bucket b).shard + 4 * v.length) 4 = c % 2 ^ 32)) ∧
  (∀ (s : State) (img : Image) (b : Nat), s.image = some img → Quiet s → (s.bucketSt b).st = .reduced → b = s.wheel.nextGather →
    s.wheel.stalled = false → s.wheel.heldFrames = [] →
    (4 ≤ (s.bucketSt b).passed ∨ s.wheelReleased img (img.bucket b).updated = true) →
    (img.ringStages s.wheel.device ≠ [] → ∃ t, exec (.bucketGatherStart b) s = .next t ∧ t.wheel.nextGather = b + 1 ∧
      t.bucketSt b = { s.bucketSt b with
        st := .gathering, passed := max 4 (s.bucketSt b).passed, gatherStage := (img.ringStages s.wheel.device).length, gathered := [] } ∧
      ∀ k, k ≠ b → t.bucketSt k = s.bucketSt k) ∧
    (img.ringStages s.wheel.device = [] → ∃ u : State, exec (.bucketGatherStart b) s = .next (State.wheelDrain
        (if (s.bucketSt b).passed < 5 then u.wheelEnter img (img.bucket b).gathered false else u)) ∧ u.wheel.nextGather = b + 1 ∧
      u.bucketSt b = { s.bucketSt b with st := .gathered, passed := 5, gatherStage := 0, gathered := [] } ∧
      (∀ k, k ≠ b → u.bucketSt k = s.bucketSt k) ∧ u.mem = s.mem ∧ u.run = s.run)) ∧
  (∀ (s u : State) (img : Image) (a : Nat) (c : ExchCtx), s.image = some img → Quiet s → s.wheel.active = true → s.wheel.stalled = false →
    a < img.exchangeCount → (s.exchSt a).sent = false →
    (2 ≤ (s.exchSt a).passed ∨ (s.exchSt a).passed = 1 ∧ s.wheelReleased img (img.exch a).sendWeir = true) →
    u = State.setExch (if 2 ≤ (s.exchSt a).passed then s else s.wheelTake img (img.exch a).sendWeir) a
      { s.exchSt a with passed := max 2 (s.exchSt a).passed, sent := true } → u.exchCtx img a = some c →
    ∃ v : State, v = { u with
        due := v.due, cnt := v.cnt, memctl := { u.memctl with cache := v.memctl.cache }, leat := v.leat, out := v.out } ∧
      (c.x.ret = false → exec (.exchangeSend a) s = .next ((v.sendRows img (u.dispatchFrames img a c)).enterSend img (a + 1))) ∧
      (∀ y, c.x.ret = true → img.dispatchExch c.x.router a = some y →
        exec (.exchangeSend a) s = .next ((v.sendRows img (u.returnFrames img a c y)).enterSend img (a + 1)))) ∧
  (∀ (s : State) (img : Image) (a : Nat) (c : ExchCtx) (f : Frame), f ∈ s.dispatchFrames img a c →
    f.src = BitVec.ofNat 13 s.wheel.device ∧ (f.kind = 4 ∨ f.kind = 6) ∧
    ∃ ex, ex < c.r.e ∧ f.dest = BitVec.ofNat 13 (s.wheel.device / c.x.g * c.x.g + ex % c.x.g)) ∧
  (∀ (s : State) (img : Image) (a : Nat), s.image = some img → s.wheel.active = true → (s.exchSt a).passed < 3 → (s.exchSt a).sent = true →
    s.exchComplete img a = true → exec (.exchangeReceived a) s = .next (State.wheelEnter { s with
      wheel := { s.wheel with exchanges := NMap.set Exchange.init s.wheel.exchanges a { s.exchSt a with passed := 3 } } } img
      (img.exch a).recvWeir false)) ∧
  (∀ (s : State) (img : Image), s.image = some img → s.wheel.active = true → img.hasRt = true → s.wheel.atCommit = false →
    (∀ b, b < img.bucketCount → (s.bucketSt b).st = .gathered) → (∀ a, a < img.exchangeCount → (s.exchSt a).passed = 3) →
    exec .wheelCommitEntry s = .next (State.wheelEnter { s with wheel := { s.wheel with atCommit := true } } img img.rtCommitWeir true)) ∧
  (∀ (s : State), s.wheel.atCommit = true → exec .wheelCommitEntry s = .next s)


/-! ### Snapshots and restores (R23, R299, R305-R315, R342) -/

/-- R23, R305, R307, R311: a held trigger opens its snapshot at the boundary: the header's values are taken, every page outside the data region is
in a slot with its bytes, every captured data-region page is protected, no first-touch bit is set, and the stream runs.
R308, R309: a first touch copies the page to the lowest free slot, sets its first-touch bit, ends its protection and counts once; with no
slot free the write goes on waiting.
Where the rules leave a point open, what is stated is the model's choice: logs 7, 30, 39 and 69. -/
def Obligations.SnapshotOpens : Prop :=
  (∀ (s : State) (img : Image) (o : Op), s.image = some img → s.atBoundary img = true → s.snap.held = true → Quiet s →
     s.op s.snap.heldHandle = some o → o.state = .running → s.run.snapBase + s.run.snapLen ≤ 0xA800000000 → s.run.millFound = [] →
     (s.capturePond img).length + (s.captureHop img).length + 1 ≤ s.run.snapLen / pageBytes →
     ∃ t, exec .snapshotOpen s = .next t ∧ t.snap.st = .streaming ∧ t.snap.held = false ∧ t.snap.final = false ∧ t.snap.seq = s.run.snapSeq ∧
       t.snap.step = s.run.step ∧ t.snap.set = s.run.set ∧ t.snap.timeNs = s.time.ns ∧ t.snap.ordinal = s.time.ordinal ∧
       t.snap.device = s.wheel.device ∧ t.snap.p = s.wheel.p ∧ t.snap.handle = s.snap.heldHandle ∧ t.snap.boundary = s.run.boundary ∧
       t.run = { s.run with snapSeq := (s.run.snapSeq + 1) % 2 ^ 32 } ∧ t.source (cSnap 1) = s.source (cSnap 1) + 1 ∧
       (t.snap.pages.map fun p => (p.store, p.addr)) =
         (s.captureData img).map (fun p => (0, p * pageBytes)) ++ (s.capturePond img).map (fun q => (1, q.1 * 2 ^ 40 + q.2)) ++
           (s.captureHop img).map (fun l => (2, l * 2 ^ 40)) ++ [(3, indexBase)] ∧
       (∀ p ∈ t.snap.pages, p.store ≠ 0 → ∃ k, p.slot = some k ∧ k < s.run.snapLen / pageBytes ∧
         ∀ j, j < pageBytes → NMap.get 0 t.mem (s.run.snapBase + k * pageBytes + j) = NMap.get 0 s.mem (p.phys + j)) ∧
       (∀ p ∈ s.captureData img, t.bitmap protBase p = true) ∧ (∀ p, p < 344064 → t.bitmap touchBase p = false) ∧
       t = { s with
         mem := t.mem, cnt := t.cnt, snap := t.snap, run := t.run, qps := t.qps, out := t.out, ops := t.ops
         memctl := { s.memctl with cache := t.memctl.cache } }) ∧
  (∀ (s : State) (page i k : Nat) (p : SnapPage), s.syn = [] → page < 344064 → s.protectedPage page = true →
    s.run.millFound = [] → s.snap.touched.any (fun x => x.wait.page == page) = true → s.freeSlot = some k → s.snap.pageAt page = some i → s.snap.pages[i]? = some p →
    s.wheel.heldFrames = [] → s.snap.base + s.snap.slotCount * pageBytes ≤ 0xA800000000 →
    (p.phys + pageBytes ≤ s.snap.base ∨ s.snap.base + s.snap.slotCount * pageBytes ≤ p.phys) →
    ∃ t, exec (.firstTouchCopy page) s = .next t ∧ (∃ q, t.snap.pages[i]? = some q ∧ q.slot = some k ∧ q.phys = p.phys ∧ q.sent = p.sent) ∧
      (∀ j, j ≠ i → t.snap.pages[j]? = s.snap.pages[j]?) ∧ t.snap.slots = k :: s.snap.slots ∧
      (∀ j, j < pageBytes → NMap.get 0 t.mem (s.snap.base + k * pageBytes + j) = NMap.get 0 s.mem (p.phys + j)) ∧
      t.bitmap protBase page = false ∧ t.bitmap touchBase page = true ∧
      (∀ x, x < 344064 → x ≠ page → t.bitmap protBase x = s.bitmap protBase x ∧ t.bitmap touchBase x = s.bitmap touchBase x) ∧
      (∀ x ∈ t.snap.touched, x.wait.page ≠ page) ∧ t.source (cSnap 4) = s.source (cSnap 4) + 1 ∧
      (∀ w since, s.snap.touched.find? (fun x => x.wait.page == page) = some w → w.slotSince = some since →
        t.source (cSnap 5) = s.source (cSnap 5) + (s.time.ns - since) / 1000) ∧
      t = { s with mem := t.mem, cnt := t.cnt, snap := t.snap, memctl := { s.memctl with cache := t.memctl.cache } }) ∧
  (∀ (s : State) (page : Nat), s.freeSlot = none → exec (.firstTouchCopy page) s = .next s) ∧
  (∀ (s : State) (k : Nat), s.freeSlot = some k → k < s.snap.slotCount ∧ k ∉ s.snap.slots ∧ ∀ j, j < k → j ∈ s.snap.slots)

/-- R310, R311: the stream sends pages in slots first, in slot order, then the others as they are listed, one at a time, each with its digest and its
place; an acknowledged page frees its slot, or ends the protection of the page where it lay, and the next page follows.
R312, R313: the sealed table stands in its slot of the digest-table area and is sent; when it is acknowledged the snapshot closes and counts once; a
snapshot that fails marks its table void; both ways no bit is set and every slot is free.
Where the rules leave a point open, what is stated is the model's choice: logs 7, 10, 30 and 69. -/
def Obligations.SnapshotStream : Prop :=
  (∀ (s u : State) (i k : Nat) (p : SnapPage), s.snap.st = .streaming → s.answeredPage = some i → s.snap.pages[i]? = some p → p.slot = some k →
    u = { s with snap := { s.snap with
      pages := setAt s.snap.pages i { p with acked := true }, slots := s.snap.slots.filter (· != k) } } →
    exec .snapshotPageAcked s = .next (State.snapPump (u.opProgress s.snap.handle u.snap.pagesLeft)).millsFound) ∧
  (∀ (s u : State) (i : Nat) (p : SnapPage), s.snap.st = .streaming → s.answeredPage = some i → s.snap.pages[i]? = some p → p.slot = none →
    p.store = 0 → s.snap.final = false →
    u = State.unprotect { s with snap := { s.snap with pages := setAt s.snap.pages i { p with acked := true } } } (p.addr / pageBytes) →
    exec .snapshotPageAcked s = .next (State.snapPump (u.opProgress s.snap.handle u.snap.pagesLeft)).millsFound) ∧
  (∀ (s : State), s.snap.st = .streaming → s.answeredPage = none → exec .snapshotPageAcked s = .next s) ∧
  (∀ (s : State) (i : Nat) (p : SnapPage), s.snap.st = .streaming → s.snap.inFlight = false → s.snap.nextPage = some i →
    s.snap.pages[i]? = some p → s.syn = [] → ∃ q, (s.snapPump).snap.pages[i]? = some q ∧ q.sent = true ∧ q.order = s.snap.sendOrder ∧
      q.store = p.store ∧ q.addr = p.addr ∧ q.slot = p.slot ∧
      q.digest = sha512 (s.bytes (match p.slot with | some k => s.snap.base + k * pageBytes | none => p.phys) pageBytes) ∧
      (s.snapPump).snap.sendOrder = s.snap.sendOrder + 1) ∧
  (∀ (sn : Snap) (i j : Nat) (p q : SnapPage), sn.nextPage = some i → sn.pages[i]? = some p → sn.pages[j]? = some q → q.sent = false →
    p.sent = false ∧ (p.slot = none → (∀ k, q.slot = some k → sn.slotCount ≤ k) ∧ (q.slot = none → i ≤ j)) ∧
      ∀ a b, p.slot = some a → q.slot = some b → b < sn.slotCount → a ≤ b) ∧
  (∀ (s : State), s.snap.st = .streaming → s.snap.pagesLeft = 0 →
    exec .snapshotSeal s = .next (State.roceIssue { s.pokes s.tableAddr s.table with snap := { s.snap with st := .sealing } } s.snap.qpn .snapTable false 0 0
      s.table.length s.table 0)) ∧
  (∀ (s : State), s.tableAddr = 0xBD00000000 + s.snap.seq % 128 * 0x2000000 ∧ s.table.length = 0x1000 + 96 * s.snap.pages.length ∧
    fieldAt s.table 0 4 = 0x5A0A0008 ∧ fieldAt s.table 8 4 = s.snap.seq % 2 ^ 32 ∧ fieldAt s.table 0x10 8 = s.snap.step % 2 ^ 64 ∧
    fieldAt s.table 0x70 4 = s.snap.pages.length % 2 ^ 32 ∧ fieldAt s.table 0x80 8 = s.nv.serial.toNat ∧
    (∀ img, s.image = some img → fieldAt s.table 0x88 8 = img.rtSetA ∧ fieldAt s.table 0x90 8 = img.rtSetB ∧
      fieldAt s.table 0x98 8 = img.rtWin) ∧
    slice s.table 0xF00 64 = (sha512 (s.table.take 0xF00 ++ s.table.drop 0x1000)).take 64) ∧
  (∀ (s : State) (o : Op), s.snap.st = .sealing → s.snapReq (fun x => x == .snapTable) = false → s.op s.snap.handle = some o →
    o.state = .running → s.run.failed = false → ∃ t, exec .snapshotClose s = .next t ∧ t.snap.st = .idle ∧ t.snap.pages = [] ∧ t.snap.slots = [] ∧
      t.snap.touched = [] ∧ (∀ p, p < 344064 → t.bitmap protBase p = false ∧ t.bitmap touchBase p = false) ∧
      t.source (cSnap 2) = s.source (cSnap 2) + 1 ∧ t.hasEvent 0x0001 [OpState.done.code, 1] ∧ t.snap.held = s.snap.held ∧
      t = { s with
        mem := t.mem, syn := t.syn, snap := t.snap, qps := t.qps, cnt := t.cnt, ops := t.ops, leat := t.leat, out := t.out }) ∧
  (∀ (s : State) (o : Op), s.snap.st ≠ .idle → s.snapLost = true → s.op s.snap.handle = some o → o.state = .running →
    s.wheel.heldFrames = [] → s.run.failed = false → ∃ t, exec .snapshotFail s = .next t ∧ t.snap.st = .idle ∧ t.snap.slots = [] ∧
      (∀ p, p < 344064 → t.bitmap protBase p = false ∧ t.bitmap touchBase p = false) ∧ t.num s.tableAddr 4 = 0 ∧
      t.source (cSnap 3) = s.source (cSnap 3) + 1 ∧ t.hasEvent 0x0001 [OpState.failed.code, 2] ∧ t.snap.held = s.snap.held ∧ t.run = s.run)

/-- R314, R342, R337: RESTORE answers its statuses and starts by reading the table; a verified page is written to its address and the next one read; a
page that differs is read once more and then fails the restore; the end sets ACTIVE_SET and the step number.
Where the rules leave a point open, what is stated is the model's choice: logs 7 and 46. -/
def Obligations.Restores : Prop :=
  (∀ (s : State) (h : LeatHdr) (ses : Session) (a : Nat), ses.control = true → a < 2 ^ 64 → s.pwr.plCur = 0 → s.pwr.plBusy = false →
    Admitted s h ses 0x0023 (leBytes 8 a) →
    (s.busyOp .restore = true → exec (.restore h (leBytes 8 a)) s = .next ((s.rx h.port).execute ses h 0x0023 ⟨s.rx h.port, 1, [], []⟩)) ∧
    (s.busyOp .restore = false → a % 8 ≠ 0 → exec (.restore h (leBytes 8 a)) s =
      .next ((s.rx h.port).execute ses h 0x0023 ⟨s.rx h.port, 5, [], []⟩)) ∧
    (s.busyOp .restore = false → a % 8 = 0 → 0xA800000000 < a + 224 → exec (.restore h (leBytes 8 a)) s =
      .next ((s.rx h.port).execute ses h 0x0023 ⟨s.rx h.port, 6, [], []⟩)) ∧
    (s.busyOp .restore = false → a % 8 = 0 → a + 224 ≤ 0xA800000000 → s.memctl.zeroed = true →
      ∀ (rd : State × List Byte) (hd : Word32), rd = (s.rx h.port).millerRead a 224 →
      hd = BitVec.ofNat 32 (0x40000000 + (rd.1.opSerial + 1) % 2 ^ 28) →
      ∃ X : State, exec (.restore h (leBytes 8 a)) s = .next ((s.rx h.port).execute ses h 0x0023 ⟨X, 0, leBytes 4 hd.toNat, []⟩) ∧
        (rd.1.jobRuns = true ∨ rd.1.run.job ≠ 0 ∨ rd.1.snap.st ≠ .idle → X.restore.busy = false ∧ X.restore.code = 1) ∧
        (rd.1.jobRuns = false → rd.1.run.job = 0 → rd.1.snap.st = .idle → rd.1.image = none → X.restore.busy = false ∧ X.restore.code = 2) ∧
        (∀ img, rd.1.jobRuns = false → rd.1.run.job = 0 → rd.1.snap.st = .idle → rd.1.image = some img → qpDescValid (rd.2.take 64) = true →
          X.restore = { rd.1.restore with
            busy := true, block := rd.2, table := [], paging := false, next := 0, retried := false, pagesLeft := 0 } ∧
          X.op hd = some ⟨hd, .restore, .running, 0, 0, rd.1.time.ns, rd.1.time.ordinal⟩ ∧ X.mem = rd.1.mem ∧
          ∃ q r, X.qp 0x180 = some q ∧ q.reqs = [r] ∧ r.read = true ∧ r.addr = fieldAt rd.2 0x40 8 ∧ r.len = 0x1000))) ∧
  (∀ (s : State) (img : Image) (data : List Byte) (q : Qp) (r : Req) (o : Op) (a : Nat), s.image = some img → s.pageReq = some r →
    s.qp 0x180 = some q → s.restore.busy = true → s.restore.paging = true → data.length = pageBytes →
    s.opOf .restore = some o → o.state = .running →
    (sha512 data = slice (s.restore.entry s.restore.next) 16 64 → entryAddr img (s.restore.entry s.restore.next) = some a →
      a + pageBytes ≤ 0xA800000000 → ∃ t, exec (.restorePage data) s = .next t ∧
        t.restore = { s.restore with next := s.restore.next + 1, retried := false, pagesLeft := s.restore.pagesLeft - 1 } ∧
        (∀ i, i < pageBytes → t.byte (a + i) = data.getD i 0) ∧ ∀ x, x < a ∨ a + pageBytes ≤ x → t.byte x = s.byte x) ∧
    (sha512 data ≠ slice (s.restore.entry s.restore.next) 16 64 → s.restore.retried = false → ∃ t, exec (.restorePage data) s = .next t ∧
      t.restore = { s.restore with retried := true } ∧ t.mem = s.mem) ∧
    (sha512 data ≠ slice (s.restore.entry s.restore.next) 16 64 → s.restore.retried = true → ∃ t, exec (.restorePage data) s = .next t ∧
      t.restore.busy = false ∧ t.restore.code = 9 ∧ t.restore.failPage = s.restore.next ∧ t.restore.partly = true ∧ t.mem = s.mem ∧
      t.source (cSnap 7) = s.source (cSnap 7) + 1)) ∧
  (∀ (s : State) (img : Image), s.image = some img → s.restore.busy = true → s.restore.paging = true → s.restore.next = s.restore.count →
    s.pageReq = none → s.restHeld = false → ∃ t, exec .restoreDone s = .next t ∧ t.restore.busy = false ∧ t.restore.code = 0 ∧
      t.restore.partly = false ∧ t.run.set = bitOf (fieldAt s.restore.table 0x6C 4) 0 ∧ t.run.step = fieldAt s.restore.table 0x10 8 ∧
      t.run.committedTag = some img.jobTag ∧ t.qp 0x180 = none ∧
      (img.hasRt = true → t.bytes (img.rtState + 0x30) 48 = s.bytes img.rtState 48) ∧
      ∀ a, a < img.rtState + 0x30 ∨ img.rtState + 0x60 ≤ a → t.byte a = s.byte a) ∧
  (∀ (s : State), s.restore.busy = false → exec .restoreDone s = .next s)


/-! ### The block itself: the queue, reset, and an invariant -/

/-- A step takes the command at the front of the queue and runs it with the rest of the queue; on an empty queue the block idles, which is
the model's choice of log 8: a nanosecond passes if the timebase runs, and nothing of the queue changes.
Where the rules leave a point open, what is stated is the model's choice: log 8. -/
def Obligations.StepRunsCommand : Prop :=
  (∀ (s : State) (c : Instr) (cs : List Instr), s.pending = c :: cs → step s = exec c { s with pending := cs }) ∧
  (∀ (s : State), s.pending = [] → step s = .next (State.wheelDrain (State.dataPump
    (if s.time.running = true then { s with time := { s.time with ns := s.time.ns + 1 } } else s)))) ∧
  (∀ (s : State), s.pending = [] → s.image = none → s.wheel.heldFrames = [] → s.time.running = true →
    step s = .next { s with time := { s.time with ns := s.time.ns + 1 } })

/-- The registers of the spec's register maps whose reset value is not 0, with their values (R20, R212, R267, R321, R349, R369, R393, R394), and
some whose value is 0; the other stores and queues are empty, and the canonical form of the stores holds.
Where the rules leave a point open, what is stated is the model's choice: logs 2 and 3. -/
def Obligations.ResetState : Prop :=
  (∀ p ∈ [(0x000, 0x504C0008), (0x004, 0x01000102), (0x008, 0x02BB8F03), (0x200, 0x00FF0000), (0x300, 0), (0x308, 0), (0x400, 0),
      (0x10000, 0x640AF2BC), (0x10004, 0), (0x10008, 0), (0x1000C, 0x00FF0000), (0x10010, 1), (0x20000, 0), (0x30000, 0), (0x3000C, 0),
      (0x40000, 0x80000000), (0x40010, 0x025820C0), (0x40014, 0x000F6446), (0x40100, 0), (0x40120, 0x0FF00000), (0x50000, 0xFF),
      (0x50004, 0), (0x60000, 0xC01F2070), (0x60004, 0x70000000), (0x70000, 0xC01F2070), (0x70004, 0x70000000), (0x90000, 0),
      (0xA0000, 0), (0xA0004, 0), (0x200000, 0)], State.reset.reg p.1 = p.2) ∧
  (∀ n, n < 8 → State.reset.reg (0x100 + 4 * n) = 0x1F ∧ State.reset.reg (0x10100 + 4 * n) = 0x2BC) ∧
  (∀ n, n < 12 → State.reset.reg (0x80000 + 0x1000 * n) = 0 ∧ State.reset.reg (0x80004 + 0x1000 * n) = 0x80001000 ∧
    State.reset.reg (0x80008 + 0x1000 * n) = 0x4688 ∧ State.reset.reg (0x8000C + 0x1000 * n) = 0x4688) ∧
  (∀ n, n < 18 → State.reset.reg (0x20100 + 4 * n) = 0x80000000) ∧
  State.reset.pending = [] ∧ State.reset.out = [] ∧ State.reset.image = none ∧ State.reset.run.job = 0 ∧ State.reset.ops = [] ∧
  State.reset.leat.sessions = [] ∧ (∀ m b, (State.reset.bank m b).st = .off) ∧ (∀ a, State.reset.byte a = 0) ∧ State.reset.Canonical

/-- Every step keeps the canonical form of every store of the block: the data address space, its syndromes, the Kettles and the flash.
Where the rules leave a point open, what is stated is the model's choice: logs 1, 5 and 6. -/
def Obligations.CanonicalKept : Prop :=
  ∀ (s t : State), s.Canonical → step s = .next t → t.Canonical
end

