-- ==== Sys2Proof/Laws/Map.lean ====
section
/-! SUPPORT. The sparse map: what a lookup gives after each operation, and that each operation keeps the canonical form. -/
namespace Sys2Proof

variable {α : Type}

@[simp] theorem NMap.get_nil (d : α) (k : Nat) : NMap.get d [] k = d := rfl

theorem NMap.get_cons (d : α) (k' : Nat) (v : α) (m : NMap α) (k : Nat) :
    NMap.get d ((k', v) :: m) k = if k = k' then v else NMap.get d m k := rfl

theorem NMap.get_erase (d : α) (m : NMap α) (k j : Nat) :
    NMap.get d (NMap.erase m k) j = if j = k then d else NMap.get d m j := by
  induction m with
  | nil => simp [NMap.erase]
  | cons e m ih =>
    obtain ⟨k', v⟩ := e
    simp only [NMap.erase]
    by_cases h : k = k'
    · subst h; simp only [if_true, ih, NMap.get_cons]; split <;> simp_all
    · simp only [h, if_false, NMap.get_cons, ih]; split <;> simp_all; intro hj; omega

@[simp] theorem NMap.get_erase_self (d : α) (m : NMap α) (k : Nat) : NMap.get d (NMap.erase m k) k = d := by
  simp [NMap.get_erase]

theorem NMap.get_insert_erased (d : α) (m : NMap α) (k : Nat) (v : α) (h : ∀ x ∈ m, x.1 ≠ k) (j : Nat) :
    NMap.get d (NMap.insert m k v) j = if j = k then v else NMap.get d m j := by
  induction m with
  | nil => simp [NMap.insert, NMap.get_cons]
  | cons e m ih =>
    obtain ⟨k', v'⟩ := e
    have hk : k' ≠ k := h (k', v') (by simp)
    have ih' := ih (fun x hx => h x (by simp [hx]))
    simp only [NMap.insert]
    split
    · simp [NMap.get_cons]
    · simp only [NMap.get_cons, ih']
      by_cases hj : j = k'
      · subst hj; simp [hk]
      · simp [hj]

theorem NMap.mem_erase (m : NMap α) (k : Nat) (x : Nat × α) : x ∈ NMap.erase m k ↔ x ∈ m ∧ x.1 ≠ k := by
  induction m with
  | nil => simp [NMap.erase]
  | cons e m ih =>
    obtain ⟨k', v⟩ := e
    simp only [NMap.erase]
    split
    · rename_i h; subst h
      simp only [ih, List.mem_cons]
      constructor
      · rintro ⟨a, b⟩; exact ⟨.inr a, b⟩
      · rintro ⟨rfl | a, b⟩
        · exact absurd rfl b
        · exact ⟨a, b⟩
    · rename_i h
      simp only [List.mem_cons, ih]
      constructor
      · rintro (rfl | ⟨a, b⟩)
        · exact ⟨.inl rfl, fun hk => h hk.symm⟩
        · exact ⟨.inr a, b⟩
      · rintro ⟨rfl | a, b⟩
        · exact .inl rfl
        · exact .inr ⟨a, b⟩

/-- A lookup after a write: the written value at its key, and every other key as before. -/
theorem NMap.get_set [DecidableEq α] (d : α) (m : NMap α) (k : Nat) (v : α) (j : Nat) :
    NMap.get d (NMap.set d m k v) j = if j = k then v else NMap.get d m j := by
  unfold NMap.set
  split
  · rename_i h; rw [NMap.get_erase, h]
  · rw [NMap.get_insert_erased _ _ _ _ (fun x hx => ((NMap.mem_erase m k x).1 hx).2), NMap.get_erase]
    split <;> simp_all

@[simp] theorem NMap.get_set_self [DecidableEq α] (d : α) (m : NMap α) (k : Nat) (v : α) :
    NMap.get d (NMap.set d m k v) k = v := by simp [NMap.get_set]

theorem NMap.get_set_ne [DecidableEq α] (d : α) (m : NMap α) (k : Nat) (v : α) (j : Nat) (h : j ≠ k) :
    NMap.get d (NMap.set d m k v) j = NMap.get d m j := by simp [NMap.get_set, h]

/-- A lookup after a range has been cleared. -/
theorem NMap.get_clearRange (d : α) (m : NMap α) (lo n j : Nat) :
    NMap.get d (NMap.clearRange m lo n) j = if lo ≤ j ∧ j < lo + n then d else NMap.get d m j := by
  induction m with
  | nil => simp [NMap.clearRange]
  | cons e m ih =>
    obtain ⟨k', v⟩ := e
    simp only [NMap.clearRange]
    by_cases hk : lo ≤ k' ∧ k' < lo + n
    · rw [if_pos hk, ih, NMap.get_cons]
      by_cases hj : j = k'
      · subst hj; rw [if_pos hk, if_pos hk]
      · rw [if_neg hj]
    · rw [if_neg hk, NMap.get_cons, NMap.get_cons, ih]
      by_cases hj : j = k'
      · subst hj; rw [if_pos rfl, if_neg hk, if_pos rfl]
      · rw [if_neg hj, if_neg hj]

/-! ### Canonical form -/

theorem NMap.wfFrom_mono [DecidableEq α] (d : α) (m : NMap α) (a b : Nat) (hab : a ≤ b)
    (h : NMap.wfFrom d b m = true) : NMap.wfFrom d a m = true := by
  cases m with
  | nil => rfl
  | cons e m =>
    obtain ⟨k, v⟩ := e
    simp only [NMap.wfFrom, Bool.and_eq_true, decide_eq_true_eq] at h ⊢
    exact ⟨⟨by omega, h.1.2⟩, h.2⟩

theorem NMap.wfFrom_erase [DecidableEq α] (d : α) (m : NMap α) (lo k : Nat) (h : NMap.wfFrom d lo m = true) :
    NMap.wfFrom d lo (NMap.erase m k) = true := by
  induction m generalizing lo with
  | nil => rfl
  | cons e m ih =>
    obtain ⟨k', v⟩ := e
    simp only [NMap.wfFrom, Bool.and_eq_true, decide_eq_true_eq] at h
    simp only [NMap.erase]
    split
    · exact NMap.wfFrom_mono d _ lo (k' + 1) (by omega) (ih _ h.2)
    · simp only [NMap.wfFrom, Bool.and_eq_true, decide_eq_true_eq]; exact ⟨h.1, ih _ h.2⟩

theorem NMap.wfFrom_insert [DecidableEq α] (d : α) (m : NMap α) (lo k : Nat) (v : α) (hv : v ≠ d) (hk : lo ≤ k)
    (hm : ∀ x ∈ m, x.1 ≠ k) (h : NMap.wfFrom d lo m = true) : NMap.wfFrom d lo (NMap.insert m k v) = true := by
  induction m generalizing lo with
  | nil => simp [NMap.insert, NMap.wfFrom, hv, hk]
  | cons e m ih =>
    obtain ⟨k', v'⟩ := e
    have hne : k' ≠ k := hm (k', v') (by simp)
    simp only [NMap.wfFrom, Bool.and_eq_true, decide_eq_true_eq] at h
    simp only [NMap.insert]
    split
    · rename_i hlt
      simp only [NMap.wfFrom, Bool.and_eq_true, decide_eq_true_eq]
      exact ⟨⟨hk, hv⟩, ⟨by omega, h.1.2⟩, h.2⟩
    · simp only [NMap.wfFrom, Bool.and_eq_true, decide_eq_true_eq]
      exact ⟨h.1, ih _ (by omega) (fun x hx => hm x (by simp [hx])) h.2⟩

/-- A write keeps the canonical form. -/
theorem NMap.wf_set [DecidableEq α] (d : α) (m : NMap α) (k : Nat) (v : α) (h : NMap.wf d m = true) :
    NMap.wf d (NMap.set d m k v) = true := by
  unfold NMap.set NMap.wf at *
  split
  · exact NMap.wfFrom_erase d m 0 k h
  · rename_i hv
    exact NMap.wfFrom_insert d _ 0 k v hv (Nat.zero_le _) (fun x hx => ((NMap.mem_erase m k x).1 hx).2)
      (NMap.wfFrom_erase d m 0 k h)

/-- Dropping a key keeps the canonical form. -/
theorem NMap.wf_erase [DecidableEq α] (d : α) (m : NMap α) (k : Nat) (h : NMap.wf d m = true) :
    NMap.wf d (NMap.erase m k) = true := NMap.wfFrom_erase d m 0 k h

theorem NMap.wfFrom_clearRange [DecidableEq α] (d : α) (m : NMap α) (lo a n : Nat) (h : NMap.wfFrom d lo m = true) :
    NMap.wfFrom d lo (NMap.clearRange m a n) = true := by
  induction m generalizing lo with
  | nil => rfl
  | cons e m ih =>
    obtain ⟨k', v⟩ := e
    simp only [NMap.wfFrom, Bool.and_eq_true, decide_eq_true_eq] at h
    simp only [NMap.clearRange]
    split
    · exact NMap.wfFrom_mono d _ lo (k' + 1) (by omega) (ih _ h.2)
    · simp only [NMap.wfFrom, Bool.and_eq_true, decide_eq_true_eq]; exact ⟨h.1, ih _ h.2⟩

/-- Clearing a range keeps the canonical form. -/
theorem NMap.wf_clearRange [DecidableEq α] (d : α) (m : NMap α) (a n : Nat) (h : NMap.wf d m = true) :
    NMap.wf d (NMap.clearRange m a n) = true := NMap.wfFrom_clearRange d m 0 a n h

@[simp] theorem NMap.wf_nil [DecidableEq α] (d : α) : NMap.wf d ([] : NMap α) = true := rfl

end Sys2Proof
end

