-- ==== Sys2Proof/Laws/CanonBase.lean ====
section
/-! SUPPORT. Canonical maps: what keeps the canonical form of the maps with addresses, in general: conditionals, folds, outcomes of parts of an operation. -/
namespace Sys2Proof.Machine
set_option linter.unusedVariables false
set_option linter.unusedSimpArgs false

theorem State.canon_mk {t : State} {f_pending : List Instr} {f_fresh : Nat} {f_out : List Output} {f_pwr : Pwr} {f_clk : Clk} {f_time : Time} {f_nv : Nv} {f_boot : Boot} {f_eth : NMap Eth} {f_leat : Leat} {f_ops : List Op} {f_opSerial : Nat} {f_work : Work} {f_qps : NMap (Option Qp)} {f_sec : Sec} {f_smb : Smb} {f_tap : Tap} {f_tests : List LaneTest} {f_fwLen : Nat} {f_cnt : NMap Nat} {f_base : NMap Nat} {f_mirror : NMap Word32} {f_ctrClear : Word32} {f_mills : NMap MillRec} {f_kettleSyn : NMap Byte} {f_memctl : MemCtl} {f_banks : NMap Bank} {f_races : NMap RaceSt} {f_feeds : NMap (List (List (Nat × Nat)))} {f_folds : NMap (List (Nat × Nat × Nat))} {f_ports : NMap PortPos} {f_due : NMap (List Due)} {f_noc : NMap Nat} {f_streams : NMap Stream} {f_shapes : NMap Nat} {f_tenters : NMap Tenter} {f_carders : NMap Nat} {f_image : Option Image} {f_loading : Option Image} {f_img : ImgStatus} {f_shapeLog : ShapeLog} {f_weirs : NMap WeirSt} {f_weirLog : WeirLog} {f_deadLog : DeadLog} {f_ctx : Ctx} {f_flume : NMap FlumePort} {f_wheel : Wheel} {f_run : Run} {f_snap : Snap} {f_restore : Restore} {f_health : Health} (hf : f_nv.flash = t.nv.flash) :
    State.Canonical ⟨f_pending, f_fresh, f_out, f_pwr, f_clk, f_time, f_nv, f_boot, f_eth, f_leat, f_ops, f_opSerial, f_work, f_qps, f_sec, f_smb, f_tap, f_tests, f_fwLen, f_cnt, f_base, f_mirror, f_ctrClear, f_mills, t.mem, t.syn, t.kettle, f_kettleSyn, f_memctl, f_banks, f_races, f_feeds, f_folds, f_ports, f_due, f_noc, f_streams, f_shapes, f_tenters, f_carders, f_image, f_loading, f_img, f_shapeLog, f_weirs, f_weirLog, f_deadLog, f_ctx, f_flume, f_wheel, f_run, f_snap, f_restore, f_health⟩ = t.Canonical :=
  propext ⟨fun h => ⟨h.mem, h.syn, h.kettle, hf ▸ h.flash⟩, fun h => ⟨h.mem, h.syn, h.kettle, hf.symm ▸ h.flash⟩⟩
theorem State.canon_iff {f_pending : List Instr} {f_fresh : Nat} {f_out : List Output} {f_pwr : Pwr} {f_clk : Clk} {f_time : Time} {f_nv : Nv} {f_boot : Boot} {f_eth : NMap Eth} {f_leat : Leat} {f_ops : List Op} {f_opSerial : Nat} {f_work : Work} {f_qps : NMap (Option Qp)} {f_sec : Sec} {f_smb : Smb} {f_tap : Tap} {f_tests : List LaneTest} {f_fwLen : Nat} {f_cnt : NMap Nat} {f_base : NMap Nat} {f_mirror : NMap Word32} {f_ctrClear : Word32} {f_mills : NMap MillRec} {f_kettleSyn : NMap Byte} {f_memctl : MemCtl} {f_banks : NMap Bank} {f_races : NMap RaceSt} {f_feeds : NMap (List (List (Nat × Nat)))} {f_folds : NMap (List (Nat × Nat × Nat))} {f_ports : NMap PortPos} {f_due : NMap (List Due)} {f_noc : NMap Nat} {f_streams : NMap Stream} {f_shapes : NMap Nat} {f_tenters : NMap Tenter} {f_carders : NMap Nat} {f_image : Option Image} {f_loading : Option Image} {f_img : ImgStatus} {f_shapeLog : ShapeLog} {f_weirs : NMap WeirSt} {f_weirLog : WeirLog} {f_deadLog : DeadLog} {f_ctx : Ctx} {f_flume : NMap FlumePort} {f_wheel : Wheel} {f_run : Run} {f_snap : Snap} {f_restore : Restore} {f_health : Health} {f_mem : NMap Byte} {f_syn : NMap Byte} {f_kettle : NMap Nat} :
    State.Canonical ⟨f_pending, f_fresh, f_out, f_pwr, f_clk, f_time, f_nv, f_boot, f_eth, f_leat, f_ops, f_opSerial, f_work, f_qps, f_sec, f_smb, f_tap, f_tests, f_fwLen, f_cnt, f_base, f_mirror, f_ctrClear, f_mills, f_mem, f_syn, f_kettle, f_kettleSyn, f_memctl, f_banks, f_races, f_feeds, f_folds, f_ports, f_due, f_noc, f_streams, f_shapes, f_tenters, f_carders, f_image, f_loading, f_img, f_shapeLog, f_weirs, f_weirLog, f_deadLog, f_ctx, f_flume, f_wheel, f_run, f_snap, f_restore, f_health⟩ =
      (Memory.wf f_mem = true ∧ NMap.wf 0 f_syn = true ∧ NMap.wf 0 f_kettle = true ∧ NMap.wf 0xFF f_nv.flash = true) :=
  propext ⟨fun h => ⟨h.mem, h.syn, h.kettle, h.flash⟩, fun h => ⟨h.1, h.2.1, h.2.2.1, h.2.2.2⟩⟩
theorem canon_ite {c : Prop} [Decidable c] {s t : State} (hs : s.Canonical) (ht : t.Canonical) : (if c then s else t).Canonical := by
  split <;> assumption
theorem fst_canon_ite {α : Type} {c : Prop} [Decidable c] {s t : State × α} (hs : s.1.Canonical) (ht : t.1.Canonical) :
    (if c then s else t).1.Canonical := by split <;> assumption
theorem flashWrite_wf (bs : List Byte) : ∀ (f : NMap Byte) (off : Nat), NMap.wf 0xFF f = true → NMap.wf 0xFF (flashWrite f off bs) = true := by
  induction bs with
  | nil => exact fun f off h => h
  | cons b bs ih => exact fun f off h => ih _ _ (NMap.wf_set _ _ _ _ h)
theorem eraseFw_wf (f : NMap Byte) (h : NMap.wf 0xFF f = true) : NMap.wf 0xFF (eraseFw f) = true := by
  unfold eraseFw
  exact NMap.wf_clearRange _ _ _ _ h
theorem programFw_wf (f : NMap Byte) (bs : List Byte) (h : NMap.wf 0xFF f = true) : NMap.wf 0xFF (programFw f bs) = true := by
  unfold programFw eraseFw
  exact flashWrite_wf _ _ _ (NMap.wf_clearRange _ _ _ _ h)
theorem ordAppend_wf (f : NMap Byte) (o : Nat) (h : NMap.wf 0xFF f = true) : NMap.wf 0xFF (ordAppend f o) = true := by
  unfold ordAppend
  dsimp only
  split
  · exact flashWrite_wf _ _ _ h
  · exact flashWrite_wf _ _ _ (NMap.wf_clearRange _ _ _ _ h)
structure Out.Canon (o : Out) : Prop where
  go : ∀ t : State, o = .go t → t.Canonical
  stop : ∀ t : State, o = .stop t → t.Canonical
theorem Out.canon_go {o : Out} {t : State} (e : o = .go t) (h : o.Canon) : t.Canonical := h.go t e
theorem Out.canon_stop {o : Out} {t : State} (e : o = .stop t) (h : o.Canon) : t.Canonical := h.stop t e
theorem Out.canon_mk_go {t : State} (h : t.Canonical) : (Out.go t).Canon := ⟨fun _ e => Out.go.inj e ▸ h, fun _ e => Out.noConfusion e⟩
theorem Out.canon_mk_stop {t : State} (h : t.Canonical) : (Out.stop t).Canon := ⟨fun _ e => Out.noConfusion e, fun _ e => Out.stop.inj e ▸ h⟩
theorem Out.canon_mk_wait (ps : List PageWait) (n : Nat) : (Out.wait ps n).Canon := ⟨fun _ e => Out.noConfusion e, fun _ e => Out.noConfusion e⟩
theorem Out.canon_andThen {o : Out} {f : State → Out} (h : o.Canon) (hf : ∀ t, t.Canonical → (f t).Canon) : (o.andThen f).Canon := by
  cases o with
  | go s => exact hf s (h.go s rfl)
  | wait ps n => exact Out.canon_mk_wait ps n
  | stop s => exact h
theorem Out.canon_ite {c : Prop} [Decidable c] {s t : Out} (hs : s.Canon) (ht : t.Canon) : (if c then s else t).Canon := by
  split <;> assumption
theorem Out.fst_pair {α : Type} {o : Out} (x : α) (h : o.Canon) : (o, x).1.Canon := h
theorem fst_pair_canon {α : Type} {o : State} (x : α) (h : o.Canonical) : (o, x).1.Canonical := h
theorem Out.fst_canon_ite {α : Type} {c : Prop} [Decidable c] {s t : Out × α} (hs : s.1.Canon) (ht : t.1.Canon) :
    (if c then s else t).1.Canon := by split <;> assumption
structure exceptCanon {ε : Type} (o : Except ε State) : Prop where
  ok : ∀ t : State, o = .ok t → t.Canonical
theorem Except.canon_ok {ε : Type} {o : Except ε State} {t : State} (e : o = .ok t) (h : exceptCanon o) : t.Canonical := h.ok t e
theorem exceptCanon_ok {ε : Type} {t : State} (h : t.Canonical) : exceptCanon (.ok t : Except ε State) :=
  ⟨fun _ e => Except.ok.inj e ▸ h⟩
theorem exceptCanon_error {ε : Type} (e : ε) : exceptCanon (.error e : Except ε State) := ⟨fun _ h => by cases h⟩
structure optCanon (o : Option State) : Prop where
  some : ∀ t : State, o = .some t → t.Canonical
theorem opt_canon_some {o : Option State} {t : State} (e : o = some t) (h : optCanon o) : t.Canonical := h.some t e
theorem optCanon_some {t : State} (h : t.Canonical) : optCanon (some t) := ⟨fun _ e => Option.some.inj e ▸ h⟩
theorem optCanon_none : optCanon none := ⟨fun _ e => by cases e⟩
structure KStep.Canon (k : KStep) : Prop where
  next : ∀ (s : State) (c : Core64), k = .next s c → s.Canonical
  stop : ∀ s : State, k = .stop s → s.Canonical
theorem KStep.canon_next {s : State} {c : Core64} (h : s.Canonical) : (KStep.next s c).Canon :=
  ⟨fun _ _ e => (KStep.next.inj e).1 ▸ h, fun _ e => KStep.noConfusion e⟩
theorem KStep.canon_wait (ps : List PageWait) : (KStep.wait ps).Canon := ⟨fun _ _ e => KStep.noConfusion e, fun _ e => KStep.noConfusion e⟩
theorem KStep.canon_stop {s : State} (h : s.Canonical) : (KStep.stop s).Canon :=
  ⟨fun _ _ e => KStep.noConfusion e, fun _ e => KStep.stop.inj e ▸ h⟩
theorem canon_foldl {α : Type} {f : State → α → State} (hf : ∀ t x, t.Canonical → (f t x).Canonical) (l : List α) :
    ∀ s : State, s.Canonical → (l.foldl f s).Canonical := by
  induction l with
  | nil => exact fun s h => h
  | cons x xs ih => exact fun s h => ih _ (hf s x h)
theorem canon_foldl_fst {α β : Type} {f : State × β → α → State × β} (l : List α) (hf : ∀ t x, t.1.Canonical → (f t x).1.Canonical) :
    ∀ s : State × β, s.1.Canonical → (l.foldl f s).1.Canonical := by
  induction l with
  | nil => exact fun s h => h
  | cons x xs ih => exact fun s h => ih _ (hf s x h)
theorem Out.canon_foldl {α : Type} {f : Out → α → Out} (l : List α) (hf : ∀ t x, t.Canon → (f t x).Canon) :
    ∀ s : Out, s.Canon → (l.foldl f s).Canon := by
  induction l with
  | nil => exact fun s h => h
  | cons x xs ih => exact fun s h => ih _ (hf s x h)
theorem NMap.wf_foldl {α β : Type} [DecidableEq β] {d : β} {f : NMap β → α → NMap β} (l : List α)
    (hf : ∀ t x, NMap.wf d t = true → NMap.wf d (f t x) = true) :
    ∀ s : NMap β, NMap.wf d s = true → NMap.wf d (l.foldl f s) = true := by
  induction l with
  | nil => exact fun s h => h
  | cons x xs ih => exact fun s h => ih _ (hf s x h)

end Sys2Proof.Machine
end

