-- ==== Sys2Proof/Laws/CanonMemory.lean ====
section
/-! SUPPORT. Canonical maps: every memory operation and shared operation keeps the canonical form. -/
namespace Sys2Proof.Machine
set_option linter.unusedVariables false
set_option linter.unusedSimpArgs false

/-! ### Flags -/

theorem State.countN_canon (s : State) (off : Nat) (n : Nat) (h_s : s.Canonical) :
    (State.countN s off n).Canonical :=
  ⟨h_s.mem, h_s.syn, h_s.kettle, h_s.flash⟩

theorem State.count_canon (s : State) (off : Nat) (h_s : s.Canonical) :
    (State.count s off).Canonical := by
  unfold State.count
  repeat' (with_reducible first | assumption | apply State.countN_canon | apply canon_ite | simp only [State.canon_mk] | split)

theorem State.setAlert_canon (s : State) (b : Nat) (h_s : s.Canonical) :
    (State.setAlert s b).Canonical :=
  ⟨h_s.mem, h_s.syn, h_s.kettle, h_s.flash⟩

/-! ### Ops -/

theorem State.emit_canon (s : State) (o : Output) (h_s : s.Canonical) :
    (State.emit s o).Canonical :=
  ⟨h_s.mem, h_s.syn, h_s.kettle, h_s.flash⟩

theorem State.rx_canon (s : State) (p : Fin 2) (h_s : s.Canonical) :
    (State.rx s p).Canonical := by
  unfold State.rx
  repeat' (with_reducible first | assumption | apply State.count_canon | apply canon_ite | simp only [State.canon_mk] | split)

theorem State.tx_canon (s : State) (p : Fin 2) (h_s : s.Canonical) :
    (State.tx s p).Canonical := by
  unfold State.tx
  repeat' (with_reducible first | assumption | apply State.count_canon | apply canon_ite | simp only [State.canon_mk] | split)

theorem State.sendLeat_canon (s : State) (ses : Session) (typ : Byte) (seq : Nat) (command : BitVec 16) (status : Nat) (payload : List Byte) (h_s : s.Canonical) :
    (State.sendLeat s ses typ seq command status payload).Canonical := by
  unfold State.sendLeat
  repeat' (with_reducible first | assumption | apply State.emit_canon | apply State.tx_canon | apply canon_ite | simp only [State.canon_mk] | split)

theorem State.sendEvent_canon (s : State) (ses : Session) (e : Event) (h_s : s.Canonical) :
    (State.sendEvent s ses e).Canonical := by
  unfold State.sendEvent
  repeat' (with_reducible first | assumption | apply State.sendLeat_canon | apply canon_ite | simp only [State.canon_mk] | split)

theorem State.markSent_canon (s : State) (seq : Nat) (h_s : s.Canonical) :
    (State.markSent s seq).Canonical :=
  ⟨h_s.mem, h_s.syn, h_s.kettle, h_s.flash⟩

theorem State.raise_canon (s : State) (code : Nat) (handle : Word32) (detail : List Nat) (h_s : s.Canonical) :
    (State.raise s code handle detail).Canonical := by
  unfold State.raise
  repeat' (with_reducible first | assumption | (intro _) | apply State.count_canon | apply State.sendEvent_canon | apply State.markSent_canon | apply canon_ite | simp only [State.canon_mk] | dsimp only | split)

theorem State.accessFault_canon (s : State) (off : Nat) (h_s : s.Canonical) :
    (State.accessFault s off).Canonical := by
  unfold State.accessFault
  repeat' (with_reducible first | assumption | apply State.count_canon | apply State.raise_canon | apply canon_ite | simp only [State.canon_mk] | split)

theorem State.sampleOne_canon (s : State) (off : Nat) (h_s : s.Canonical) :
    (State.sampleOne s off).Canonical :=
  ⟨h_s.mem, h_s.syn, h_s.kettle, h_s.flash⟩

theorem State.refreshAll_canon (s : State) (h_s : s.Canonical) :
    (State.refreshAll s).Canonical := by
  unfold State.refreshAll
  repeat' (with_reducible first | assumption | (intro _) | apply State.raise_canon | apply State.sampleOne_canon | apply canon_ite | apply canon_foldl | simp only [State.canon_mk] | dsimp only | split)

theorem State.clearOne_canon (s : State) (off : Nat) (h_s : s.Canonical) :
    (State.clearOne s off).Canonical :=
  ⟨h_s.mem, h_s.syn, h_s.kettle, h_s.flash⟩

theorem State.counterClear_canon (s : State) (v : Nat) (h_s : s.Canonical) :
    (State.counterClear s v).Canonical := by
  unfold State.counterClear
  repeat' (with_reducible first | assumption | (intro _) | apply State.clearOne_canon | apply canon_ite | apply canon_foldl | simp only [State.canon_mk] | dsimp only | split)

theorem State.newOp_canon (s : State) (k : OpKind) (h_s : s.Canonical) :
    (State.newOp s k).1.Canonical := by
  unfold State.newOp
  repeat' (with_reducible first | assumption | apply canon_ite | apply fst_canon_ite | apply canon_foldl_fst | simp only [State.canon_mk] | split)

theorem State.opMove_canon (s : State) (h : Word32) (st : OpState) (status : Nat) (h_s : s.Canonical) :
    (State.opMove s h st status).Canonical := by
  unfold State.opMove
  repeat' (with_reducible first | assumption | (intro _) | apply State.raise_canon | apply canon_ite | simp only [State.canon_mk] | dsimp only | split)

theorem State.opProgress_canon (s : State) (h : Word32) (p : Nat) (h_s : s.Canonical) :
    (State.opProgress s h p).Canonical :=
  ⟨h_s.mem, h_s.syn, h_s.kettle, h_s.flash⟩

/-! ### Memory -/

theorem State.setByte_canon (s : State) (a : Nat) (b : Byte) (h_s : s.Canonical) :
    (State.setByte s a b).Canonical := by
  unfold State.setByte
  repeat' (with_reducible first | assumption | (intro _) | apply canon_ite | apply canon_foldl | apply Out.canon_ite | apply Out.canon_andThen | apply Out.canon_mk_go | apply Out.canon_mk_stop | apply Out.canon_mk_wait | apply fst_canon_ite | apply canon_foldl_fst | apply Out.fst_canon_ite | apply Out.canon_foldl | apply KStep.canon_next | apply KStep.canon_wait | apply KStep.canon_stop | apply optCanon_some | apply optCanon_none | apply exceptCanon_ok | apply exceptCanon_error | simp only [State.canon_mk] | (apply Out.canon_go; assumption) | (apply Out.canon_stop; assumption) | (apply Except.canon_ok; assumption) | (apply opt_canon_some; assumption) | dsimp only | simp only [State.canon_iff] | apply And.intro | apply State.Canonical.mem | apply State.Canonical.syn | apply State.Canonical.kettle | apply State.Canonical.flash | apply NMap.wf_nil | apply NMap.wf_set | apply NMap.wf_clearRange | apply NMap.wf_foldl | apply flashWrite_wf | apply eraseFw_wf | apply programFw_wf | apply ordAppend_wf | split)

theorem State.setBytes_canon (s : State) (a : Nat) (x3 : List Byte) (h_s : s.Canonical) :
    (State.setBytes s a x3).Canonical := by
  fun_induction State.setBytes s a x3
  all_goals repeat' (with_reducible first | assumption | (intro _) | (apply_assumption) | apply State.setByte_canon | apply canon_ite | simp only [State.canon_mk] | split)

theorem State.settle_canon (s : State) (w : Nat) (h_s : s.Canonical) :
    (State.settle s w).Canonical := by
  unfold State.settle
  repeat' (with_reducible first | assumption | (intro _) | apply State.setBytes_canon | apply canon_ite | apply canon_foldl | apply Out.canon_ite | apply Out.canon_andThen | apply Out.canon_mk_go | apply Out.canon_mk_stop | apply Out.canon_mk_wait | apply fst_canon_ite | apply canon_foldl_fst | apply Out.fst_canon_ite | apply Out.canon_foldl | apply KStep.canon_next | apply KStep.canon_wait | apply KStep.canon_stop | apply optCanon_some | apply optCanon_none | apply exceptCanon_ok | apply exceptCanon_error | simp only [State.canon_mk] | (apply Out.canon_go; assumption) | (apply Out.canon_stop; assumption) | (apply Except.canon_ok; assumption) | (apply opt_canon_some; assumption) | dsimp only | simp only [State.canon_iff] | apply And.intro | apply State.Canonical.mem | apply State.Canonical.syn | apply State.Canonical.kettle | apply State.Canonical.flash | apply NMap.wf_nil | apply NMap.wf_set | apply NMap.wf_clearRange | apply NMap.wf_foldl | apply flashWrite_wf | apply eraseFw_wf | apply programFw_wf | apply ordAppend_wf | split)

theorem State.poke_canon (s : State) (a : Nat) (b : Byte) (h_s : s.Canonical) :
    (State.poke s a b).Canonical := by
  unfold State.poke
  repeat' (with_reducible first | assumption | apply State.settle_canon | apply State.setByte_canon | apply canon_ite | simp only [State.canon_mk] | split)

theorem State.pokes_canon (s : State) (a : Nat) (x3 : List Byte) (h_s : s.Canonical) :
    (State.pokes s a x3).Canonical := by
  fun_induction State.pokes s a x3
  all_goals repeat' (with_reducible first | assumption | (intro _) | (apply_assumption) | apply State.poke_canon | apply canon_ite | simp only [State.canon_mk] | split)

theorem State.zeroRange_canon (s : State) (a : Nat) (n : Nat) (h_s : s.Canonical) :
    (State.zeroRange s a n).Canonical := by
  unfold State.zeroRange
  repeat' (with_reducible first | assumption | (intro _) | apply canon_ite | apply canon_foldl | apply Out.canon_ite | apply Out.canon_andThen | apply Out.canon_mk_go | apply Out.canon_mk_stop | apply Out.canon_mk_wait | apply fst_canon_ite | apply canon_foldl_fst | apply Out.fst_canon_ite | apply Out.canon_foldl | apply KStep.canon_next | apply KStep.canon_wait | apply KStep.canon_stop | apply optCanon_some | apply optCanon_none | apply exceptCanon_ok | apply exceptCanon_error | simp only [State.canon_mk] | (apply Out.canon_go; assumption) | (apply Out.canon_stop; assumption) | (apply Except.canon_ok; assumption) | (apply opt_canon_some; assumption) | dsimp only | simp only [State.canon_iff] | apply And.intro | apply State.Canonical.mem | apply State.Canonical.syn | apply State.Canonical.kettle | apply State.Canonical.flash | apply NMap.wf_nil | apply NMap.wf_set | apply NMap.wf_clearRange | apply NMap.wf_foldl | apply flashWrite_wf | apply eraseFw_wf | apply programFw_wf | apply ordAppend_wf | split)

theorem State.logUe_canon (s : State) (store : Nat) (a : Nat) (h_s : s.Canonical) :
    (State.logUe s store a).Canonical := by
  unfold State.logUe
  repeat' (with_reducible first | assumption | apply canon_ite | simp only [State.canon_mk] | split)

theorem State.verifyWord_canon (s : State) (w : Nat) (h_s : s.Canonical) :
    (State.verifyWord s w).1.Canonical := by
  unfold State.verifyWord
  repeat' (with_reducible first | assumption | apply State.settle_canon | apply State.count_canon | apply State.logUe_canon | apply canon_ite | apply fst_canon_ite | apply canon_foldl_fst | simp only [State.canon_mk] | split)

theorem State.verifyWords_canon (s : State) (x2 : List Nat) (h_s : s.Canonical) :
    (State.verifyWords s x2).1.Canonical := by
  fun_induction State.verifyWords s x2
  all_goals repeat' (with_reducible first | assumption | (intro _) | (apply_assumption) | apply State.verifyWord_canon | apply canon_ite | apply fst_canon_ite | apply canon_foldl_fst | simp only [State.canon_mk] | split)

theorem State.verify_canon (s : State) (a : Nat) (n : Nat) (h_s : s.Canonical) :
    (State.verify s a n).1.Canonical := by
  unfold State.verify
  repeat' (with_reducible first | assumption | apply State.verifyWords_canon | apply canon_ite | apply fst_canon_ite | apply canon_foldl_fst | simp only [State.canon_mk] | split)

theorem State.cacheUse_canon (s : State) (a : Nat) (alloc : Bool) (h_s : s.Canonical) :
    (State.cacheUse s a alloc).Canonical := by
  unfold State.cacheUse
  repeat' (with_reducible first | assumption | apply State.count_canon | apply canon_ite | simp only [State.canon_mk] | split)

theorem State.cacheRange_canon (s : State) (a : Nat) (n : Nat) (alloc : Bool) (h_s : s.Canonical) :
    (State.cacheRange s a n alloc).Canonical := by
  unfold State.cacheRange
  repeat' (with_reducible first | assumption | (intro _) | apply State.cacheUse_canon | apply canon_ite | apply canon_foldl | simp only [State.canon_mk] | dsimp only | split)

/-! ### RoceOps -/

theorem State.setQp_canon (s : State) (n : Nat) (q : Option Qp) (h_s : s.Canonical) :
    (State.setQp s n q).Canonical :=
  ⟨h_s.mem, h_s.syn, h_s.kettle, h_s.flash⟩

theorem State.openQp_canon (s : State) (n : Nat) (bs : List Byte) (h_s : s.Canonical) :
    (State.openQp s n bs).Canonical := by
  unfold State.openQp
  repeat' (with_reducible first | assumption | apply State.setQp_canon | apply canon_ite | simp only [State.canon_mk] | split)

theorem State.roceSend_canon (s : State) (n : Nat) (q : Qp) (r : Req) (h_s : s.Canonical) :
    (State.roceSend s n q r).Canonical := by
  unfold State.roceSend
  repeat' (with_reducible first | assumption | apply State.emit_canon | apply State.countN_canon | apply canon_ite | simp only [State.canon_mk] | split)

theorem State.roceIssue_canon (s : State) (n : Nat) (owner : ReqOwner) (read : Bool) (addr : Nat) (rkey : Word32) (len : Nat) (payload : List Byte) (dest : Nat) (h_s : s.Canonical) :
    (State.roceIssue s n owner read addr rkey len payload dest).Canonical := by
  unfold State.roceIssue
  repeat' (with_reducible first | assumption | apply State.setQp_canon | apply State.roceSend_canon | apply canon_ite | simp only [State.canon_mk] | split)

theorem State.roceResend_canon (s : State) (n : Nat) (q : Qp) (x4 : List Req) (h_s : s.Canonical) :
    (State.roceResend s n q x4).Canonical := by
  fun_induction State.roceResend s n q x4
  all_goals repeat' (with_reducible first | assumption | (intro _) | (apply_assumption) | apply State.roceSend_canon | apply canon_ite | simp only [State.canon_mk] | split)

theorem State.closeJobQps_canon (s : State) (h_s : s.Canonical) :
    (State.closeJobQps s).Canonical := by
  unfold State.closeJobQps
  repeat' (with_reducible first | assumption | (intro _) | apply State.idle_canon | apply canon_ite | simp only [State.canon_mk] | dsimp only | split)

/-! ### Turns -/

theorem State.present_canon (s : State) (key : Nat) (d : Due) (h_s : s.Canonical) :
    (State.present s key d).Canonical := by
  unfold State.present
  repeat' (with_reducible first | assumption | apply canon_ite | simp only [State.canon_mk] | split)

theorem State.presentOne_canon (s : State) (img : Image) (ag : Agent) (w : Bool) (a : Nat) (n : Nat) (h_s : s.Canonical) :
    (State.presentOne s img ag w a n).Canonical := by
  unfold State.presentOne
  repeat' (with_reducible first | assumption | (intro _) | apply State.present_canon | apply canon_ite | apply canon_foldl | simp only [State.canon_mk] | dsimp only | split)

theorem State.presentAll_canon (s : State) (img : Image) (ag : Agent) (w : Bool) (as : List Nat) (h_s : s.Canonical) :
    (State.presentAll s img ag w as).Canonical := by
  unfold State.presentAll
  repeat' (with_reducible first | assumption | (intro _) | apply State.presentOne_canon | apply canon_ite | apply canon_foldl | simp only [State.canon_mk] | dsimp only | split)

theorem State.presentRun_canon (s : State) (key : Nat) (d : Due) (h_s : s.Canonical) :
    (State.presentRun s key d).Canonical := by
  unfold State.presentRun
  repeat' (with_reducible first | assumption | apply canon_ite | simp only [State.canon_mk] | split)

/-! ### SnapOps -/

theorem State.setBitmap_canon (r : State) (base : Nat) (p : Nat) (v : Bool) (h_r : r.Canonical) :
    (State.setBitmap r base p v).Canonical := by
  unfold State.setBitmap
  repeat' (with_reducible first | assumption | apply State.verifyWord_canon | apply State.poke_canon | apply canon_ite | simp only [State.canon_mk] | split)

theorem State.clearBitmaps_canon (s : State) (h_s : s.Canonical) :
    (State.clearBitmaps s).Canonical := by
  unfold State.clearBitmaps
  repeat' (with_reducible first | assumption | apply State.zeroRange_canon | apply canon_ite | simp only [State.canon_mk] | split)

theorem State.seeBitmap_canon (s : State) (as : List Nat) (h_s : s.Canonical) :
    (State.seeBitmap s as).Canonical := by
  unfold State.seeBitmap
  repeat' (with_reducible first | assumption | (intro _) | apply State.idle_canon | apply State.verifyWords_canon | apply canon_ite | simp only [State.canon_mk] | dsimp only | split)

theorem State.touchOne_canon (s : State) (p : PageWait) (h_s : s.Canonical) :
    (State.touchOne s p).Canonical := by
  unfold State.touchOne
  repeat' (with_reducible first | assumption | (intro _) | apply canon_ite | simp only [State.canon_mk] | dsimp only | split)

theorem State.touch_canon (s : State) (ps : List PageWait) (h_s : s.Canonical) :
    (State.touch s ps).Canonical := by
  unfold State.touch
  repeat' (with_reducible first | assumption | (intro _) | apply State.touchOne_canon | apply canon_ite | apply canon_foldl | simp only [State.canon_mk] | dsimp only | split)

theorem State.unprotect_canon (s : State) (p : Nat) (h_s : s.Canonical) :
    (State.unprotect s p).Canonical := by
  unfold State.unprotect
  repeat' (with_reducible first | assumption | (intro _) | apply State.setBitmap_canon | apply State.countN_canon | apply canon_ite | simp only [State.canon_mk] | dsimp only | split)

theorem State.readPage_canon (s : State) (a : Nat) (h_s : s.Canonical) :
    (State.readPage s a).1.Canonical := by
  unfold State.readPage
  repeat' (with_reducible first | assumption | (intro _) | apply State.verify_canon | apply State.cacheRange_canon | apply canon_ite | apply fst_canon_ite | apply canon_foldl_fst | simp only [State.canon_mk] | dsimp only | split)

theorem State.setPage_canon (s : State) (i : Nat) (p : SnapPage) (h_s : s.Canonical) :
    (State.setPage s i p).Canonical :=
  ⟨h_s.mem, h_s.syn, h_s.kettle, h_s.flash⟩

theorem State.copyPage_canon (s : State) (i : Nat) (h_s : s.Canonical) :
    (State.copyPage s i).Canonical := by
  unfold State.copyPage
  repeat' (with_reducible first | assumption | (intro _) | apply State.readPage_canon | apply State.pokes_canon | apply State.setPage_canon | apply canon_ite | simp only [State.canon_mk] | dsimp only | split)

theorem State.copyPages_canon (s : State) (x2 : List Nat) (h_s : s.Canonical) :
    (State.copyPages s x2).Canonical := by
  fun_induction State.copyPages s x2
  all_goals repeat' (with_reducible first | assumption | (intro _) | (apply_assumption) | apply State.copyPage_canon | apply canon_ite | simp only [State.canon_mk] | split)

theorem State.sendPage_canon (s : State) (i : Nat) (h_s : s.Canonical) :
    (State.sendPage s i).Canonical := by
  unfold State.sendPage
  repeat' (with_reducible first | assumption | apply State.readPage_canon | apply State.setPage_canon | apply State.unprotect_canon | apply State.count_canon | apply State.roceIssue_canon | apply canon_ite | simp only [State.canon_mk] | split)

theorem State.snapPump_canon (s : State) (h_s : s.Canonical) :
    (State.snapPump s).Canonical := by
  unfold State.snapPump
  repeat' (with_reducible first | assumption | apply State.sendPage_canon | apply canon_ite | simp only [State.canon_mk] | split)

theorem State.protectPages_canon (s : State) (x2 : List SnapPage) (h_s : s.Canonical) :
    (State.protectPages s x2).Canonical := by
  fun_induction State.protectPages s x2
  all_goals repeat' (with_reducible first | assumption | (intro _) | (apply_assumption) | apply State.setBitmap_canon | apply canon_ite | simp only [State.canon_mk] | split)

theorem State.snapStart_canon (s : State) (h_s : s.Canonical) :
    (State.snapStart s).Canonical := by
  unfold State.snapStart
  repeat' (with_reducible first | assumption | (intro _) | apply State.copyPages_canon | apply State.zeroRange_canon | apply State.protectPages_canon | apply State.snapPump_canon | apply canon_ite | simp only [State.canon_mk] | dsimp only | split)

theorem State.snapOpen_canon (s : State) (img : Image) (final : Bool) (handle : Word32) (h_s : s.Canonical) :
    (State.snapOpen s img final handle).Canonical := by
  unfold State.snapOpen
  repeat' (with_reducible first | assumption | apply State.count_canon | apply State.snapStart_canon | apply canon_ite | simp only [State.canon_mk] | split)

theorem State.reportFailed_canon (s : State) (h_s : s.Canonical) :
    (State.reportFailed s).Canonical := by
  unfold State.reportFailed
  repeat' (with_reducible first | assumption | apply State.raise_canon | apply canon_ite | simp only [State.canon_mk] | split)

theorem State.stallsEnd_canon (s : State) (h_s : s.Canonical) :
    (State.stallsEnd s).Canonical := by
  unfold State.stallsEnd
  repeat' (with_reducible first | assumption | (intro _) | apply State.countN_canon | apply canon_ite | apply canon_foldl | simp only [State.canon_mk] | dsimp only | split)

theorem State.snapIdle_canon (s : State) (last : Nat) (h_s : s.Canonical) :
    (State.snapIdle s last).Canonical := by
  unfold State.snapIdle
  repeat' (with_reducible first | assumption | apply State.stallsEnd_canon | apply State.idle_canon | apply State.reportFailed_canon | apply canon_ite | simp only [State.canon_mk] | split)

theorem State.snapFail_canon (s : State) (cancelled : Bool) (h_s : s.Canonical) :
    (State.snapFail s cancelled).Canonical := by
  unfold State.snapFail
  repeat' (with_reducible first | assumption | (intro _) | apply State.idle_canon | apply State.clearBitmaps_canon | apply State.pokes_canon | apply State.count_canon | apply State.raise_canon | apply State.setQp_canon | apply State.snapIdle_canon | apply State.opMove_canon | apply canon_ite | simp only [State.canon_mk] | dsimp only | split)

/-! ### Failure -/

theorem State.setStream_canon (s : State) (k : Nat) (t : Stream) (h_s : s.Canonical) :
    (State.setStream s k t).Canonical :=
  ⟨h_s.mem, h_s.syn, h_s.kettle, h_s.flash⟩

theorem State.setFloor_canon (s : State) (f : Nat) (g : FloorGov) (h_s : s.Canonical) :
    (State.setFloor s f g).Canonical :=
  ⟨h_s.mem, h_s.syn, h_s.kettle, h_s.flash⟩

theorem State.setLending_canon (s : State) (l : BitVec 8) (h_s : s.Canonical) :
    (State.setLending s l).Canonical := by
  unfold State.setLending
  repeat' (with_reducible first | assumption | (intro _) | apply State.setFloor_canon | apply canon_ite | apply canon_foldl | simp only [State.canon_mk] | dsimp only | split)

theorem State.stopLending_canon (s : State) (f : Nat) (h_s : s.Canonical) :
    (State.stopLending s f).Canonical := by
  unfold State.stopLending
  repeat' (with_reducible first | assumption | apply State.setLending_canon | apply canon_ite | simp only [State.canon_mk] | split)

theorem State.ownerReset_canon (s : State) (h_s : s.Canonical) :
    (State.ownerReset s).Canonical := by
  unfold State.ownerReset
  repeat' (with_reducible first | assumption | apply State.setLending_canon | apply State.countN_canon | apply canon_ite | simp only [State.canon_mk] | split)

theorem State.dropHeld_canon (s : State) (h_s : s.Canonical) :
    (State.dropHeld s).Canonical := by
  unfold State.dropHeld
  repeat' (with_reducible first | assumption | apply State.opMove_canon | apply canon_ite | simp only [State.canon_mk] | split)

theorem State.endJob_canon (s : State) (st : OpState) (status : Nat) (h_s : s.Canonical) :
    (State.endJob s st status).Canonical := by
  unfold State.endJob
  repeat' (with_reducible first | assumption | apply State.closeJobQps_canon | apply State.opMove_canon | apply State.dropHeld_canon | apply canon_ite | simp only [State.canon_mk] | split)

theorem State.idleLanes_canon (s : State) (h_s : s.Canonical) :
    (State.idleLanes s).Canonical := by
  unfold State.idleLanes
  repeat' (with_reducible first | assumption | (intro _) | apply State.emit_canon | apply canon_ite | apply canon_foldl | simp only [State.canon_mk] | dsimp only | split)

theorem State.finalSnapshot_canon (s : State) (h_s : s.Canonical) :
    (State.finalSnapshot s).Canonical := by
  unfold State.finalSnapshot
  repeat' (with_reducible first | assumption | apply State.idle_canon | apply State.snapFail_canon | apply State.newOp_canon | apply State.snapOpen_canon | apply canon_ite | simp only [State.canon_mk] | split)

theorem State.withdraw_canon (s : State) (cls : Nat) (h_s : s.Canonical) :
    (State.withdraw s cls).Canonical := by
  unfold State.withdraw
  repeat' (with_reducible first | assumption | apply State.ownerReset_canon | apply State.idleLanes_canon | apply canon_ite | simp only [State.canon_mk] | split)

theorem State.lastRites_canon (s : State) (h_s : s.Canonical) :
    (State.lastRites s).Canonical := by
  unfold State.lastRites
  repeat' (with_reducible first | assumption | apply State.reportFailed_canon | apply State.dropHeld_canon | apply State.finalSnapshot_canon | apply State.endJob_canon | apply State.idle_canon | apply canon_ite | simp only [State.canon_mk] | split)

theorem State.declareFailed_canon (s : State) (cls : Nat) (h_s : s.Canonical) :
    (State.declareFailed s cls).Canonical := by
  unfold State.declareFailed
  repeat' (with_reducible first | assumption | apply State.withdraw_canon | apply State.lastRites_canon | apply canon_ite | simp only [State.canon_mk] | split)

theorem State.rewriteRecord_canon (s : State) (h_s : s.Canonical) :
    (State.rewriteRecord s).Canonical := by
  unfold State.rewriteRecord
  repeat' (with_reducible first | assumption | (intro _) | apply canon_ite | apply canon_foldl | apply Out.canon_ite | apply Out.canon_andThen | apply Out.canon_mk_go | apply Out.canon_mk_stop | apply Out.canon_mk_wait | apply fst_canon_ite | apply canon_foldl_fst | apply Out.fst_canon_ite | apply Out.canon_foldl | apply KStep.canon_next | apply KStep.canon_wait | apply KStep.canon_stop | apply optCanon_some | apply optCanon_none | apply exceptCanon_ok | apply exceptCanon_error | simp only [State.canon_mk] | (apply Out.canon_go; assumption) | (apply Out.canon_stop; assumption) | (apply Except.canon_ok; assumption) | (apply opt_canon_some; assumption) | dsimp only | simp only [State.canon_iff] | apply And.intro | apply State.Canonical.mem | apply State.Canonical.syn | apply State.Canonical.kettle | apply State.Canonical.flash | apply NMap.wf_nil | apply NMap.wf_set | apply NMap.wf_clearRange | apply NMap.wf_foldl | apply flashWrite_wf | apply eraseFw_wf | apply programFw_wf | apply ordAppend_wf | split)

theorem State.setMill_canon (s : State) (m : Nat) (r : MillRec) (h_s : s.Canonical) :
    (State.setMill s m r).Canonical := by
  unfold State.setMill
  repeat' (with_reducible first | assumption | apply State.rewriteRecord_canon | apply canon_ite | simp only [State.canon_mk] | split)

theorem State.retireMill_canon (s : State) (m : Nat) (cls : Nat) (h_s : s.Canonical) :
    (State.retireMill s m cls).Canonical := by
  unfold State.retireMill
  repeat' (with_reducible first | assumption | apply State.setMill_canon | apply State.count_canon | apply State.declareFailed_canon | apply canon_ite | simp only [State.canon_mk] | split)

theorem State.millError_canon (s : State) (m : Nat) (cls : Nat) (h_s : s.Canonical) :
    (State.millError s m cls).Canonical := by
  unfold State.millError
  repeat' (with_reducible first | assumption | apply State.suspect_canon | apply State.retireMill_canon | apply State.setMill_canon | apply canon_ite | simp only [State.canon_mk] | split)

theorem State.millsFound_canon (s : State) (h_s : s.Canonical) :
    (State.millsFound s).Canonical := by
  unfold State.millsFound
  repeat' (with_reducible first | assumption | (intro _) | apply State.millError_canon | apply canon_ite | apply canon_foldl | simp only [State.canon_mk] | dsimp only | split)

theorem State.classOutcome_canon (s : State) (cls : Nat) (h_s : s.Canonical) :
    (State.classOutcome s cls).Canonical := by
  unfold State.classOutcome
  repeat' (with_reducible first | assumption | apply State.declareFailed_canon | apply canon_ite | simp only [State.canon_mk] | split)

theorem State.ueOutcome_canon (group : Option Nat) (as : List Nat) : ∀ s : State, s.Canonical → (s.ueOutcome group as).Canonical := by
  induction as with
  | nil => exact fun s h => h
  | cons a as ih =>
    intro s h
    refine ih _ (State.classOutcome_canon _ _ ?_)
    split
    · exact State.millError_canon _ _ _ h
    · exact h

theorem State.routerWord_canon (s : State) (cls : Nat) (k : Nat) (h_s : s.Canonical) :
    (State.routerWord s cls k).Canonical := by
  unfold State.routerWord
  repeat' (with_reducible first | assumption | apply State.logUe_canon | apply State.classOutcome_canon | apply State.count_canon | apply State.millError_canon | apply canon_ite | simp only [State.canon_mk] | split)

theorem State.routerWords_canon (s : State) (cls : Nat) (ks : List Nat) (h_s : s.Canonical) :
    (State.routerWords s cls ks).Canonical := by
  unfold State.routerWords
  repeat' (with_reducible first | assumption | (intro _) | apply State.routerWord_canon | apply canon_ite | apply canon_foldl | simp only [State.canon_mk] | dsimp only | split)

theorem State.readRange_canon (s : State) (a : Nat) (n : Nat) (h_s : s.Canonical) :
    (State.readRange s a n).Canonical := by
  unfold State.readRange
  repeat' (with_reducible first | assumption | apply State.verify_canon | apply State.cacheRange_canon | apply State.ueOutcome_canon | apply canon_ite | simp only [State.canon_mk] | split)

theorem State.millerRead_canon (s : State) (a : Nat) (n : Nat) (h_s : s.Canonical) :
    (State.millerRead s a n).1.Canonical := by
  unfold State.millerRead
  repeat' (with_reducible first | assumption | apply State.readRange_canon | apply State.verify_canon | apply canon_ite | apply fst_canon_ite | apply canon_foldl_fst | simp only [State.canon_mk] | split)

end Sys2Proof.Machine
end

