-- ==== Sys2Proof/Laws/CanonManagement.lean ====
section
/-! SUPPORT. Canonical maps: the commands of the management plane keep the canonical form. -/
namespace Sys2Proof.Machine
set_option linter.unusedVariables false
set_option linter.unusedSimpArgs false

/-! ### Power -/

theorem State.powerOnReset_canon (s : State) (h : s.Canonical) : s.powerOnReset.Canonical := by
  refine ⟨rfl, rfl, rfl, ?_⟩
  show NMap.wf 0xFF (s.nv.interrupted s.sec.fw).flash = true
  unfold Nv.interrupted
  split
  · exact NMap.wf_clearRange _ _ _ _ h.flash
  · exact h.flash

theorem State.railsOff_canon (s : State) (h_s : s.Canonical) :
    (State.railsOff s).Canonical := by
  unfold State.railsOff
  repeat' (with_reducible first | assumption | apply State.powerOnReset_canon | apply canon_ite | simp only [State.canon_mk] | split)

theorem State.railsUp_canon (s : State) (h_s : s.Canonical) :
    (State.railsUp s).Canonical :=
  ⟨h_s.mem, h_s.syn, h_s.kettle, h_s.flash⟩

theorem State.pwrEnRise_canon (s : State) (h_s : s.Canonical) :
    (State.pwrEnRise s).Canonical := by
  unfold State.pwrEnRise
  repeat' (with_reducible first | assumption | apply State.railsUp_canon | apply canon_ite | simp only [State.canon_mk] | split)

theorem State.pwrGoodAssert_canon (s : State) (h_s : s.Canonical) :
    (State.pwrGoodAssert s).Canonical := by
  unfold State.pwrGoodAssert
  repeat' (with_reducible first | assumption | apply canon_ite | simp only [State.canon_mk] | split)

theorem State.pwrEnFall_canon (s : State) (h_s : s.Canonical) :
    (State.pwrEnFall s).Canonical := by
  unfold State.pwrEnFall
  repeat' (with_reducible first | assumption | apply State.railsOff_canon | apply canon_ite | simp only [State.canon_mk] | split)

theorem State.inputRange_canon (s : State) (mv : Nat) (h_s : s.Canonical) :
    (State.inputRange s mv).Canonical := by
  unfold State.inputRange
  repeat' (with_reducible first | assumption | apply State.setAlert_canon | apply State.count_canon | apply State.raise_canon | apply canon_ite | simp only [State.canon_mk] | split)

theorem State.auxCheck_canon (s : State) (mv : Nat) (h_s : s.Canonical) :
    (State.auxCheck s mv).Canonical := by
  unfold State.auxCheck
  repeat' (with_reducible first | assumption | apply canon_ite | simp only [State.canon_mk] | split)

theorem State.inputTrip_canon (s : State) (mv : Nat) (h_s : s.Canonical) :
    (State.inputTrip s mv).Canonical := by
  unfold State.inputTrip
  repeat' (with_reducible first | assumption | apply State.railsOff_canon | apply State.auxCheck_canon | apply canon_ite | simp only [State.canon_mk] | split)

theorem State.auxUp_canon (s : State) (h_s : s.Canonical) :
    (State.auxUp s).Canonical := by
  unfold State.auxUp
  repeat' (with_reducible first | assumption | apply canon_ite | simp only [State.canon_mk] | split)

theorem State.inputRecovered_canon (s : State) (h_s : s.Canonical) :
    (State.inputRecovered s).Canonical := by
  unfold State.inputRecovered
  repeat' (with_reducible first | assumption | apply State.auxUp_canon | apply State.railsUp_canon | apply canon_ite | simp only [State.canon_mk] | split)

theorem State.modResetAssert_canon (s : State) (lowNs : Nat) (h_s : s.Canonical) :
    (State.modResetAssert s lowNs).Canonical := by
  unfold State.modResetAssert
  repeat' (with_reducible first | assumption | apply State.powerOnReset_canon | apply canon_ite | simp only [State.canon_mk] | split)

theorem State.modResetRelease_canon (s : State) (lowNs : Nat) (highNs : Nat) (h_s : s.Canonical) :
    (State.modResetRelease s lowNs highNs).Canonical := by
  unfold State.modResetRelease
  repeat' (with_reducible first | assumption | apply canon_ite | simp only [State.canon_mk] | split)

/-! ### Boot -/

theorem State.appendOrdinal_canon (s : State) (appendOk : Bool) (h_s : s.Canonical) :
    (State.appendOrdinal s appendOk).Canonical := by
  unfold State.appendOrdinal
  repeat' (with_reducible first | assumption | (intro _) | apply canon_ite | apply canon_foldl | apply Out.canon_ite | apply Out.canon_andThen | apply Out.canon_mk_go | apply Out.canon_mk_stop | apply Out.canon_mk_wait | apply fst_canon_ite | apply canon_foldl_fst | apply Out.fst_canon_ite | apply Out.canon_foldl | apply KStep.canon_next | apply KStep.canon_wait | apply KStep.canon_stop | apply optCanon_some | apply optCanon_none | apply exceptCanon_ok | apply exceptCanon_error | simp only [State.canon_mk] | (apply Out.canon_go; assumption) | (apply Out.canon_stop; assumption) | (apply Except.canon_ok; assumption) | (apply opt_canon_some; assumption) | dsimp only | simp only [State.canon_iff] | apply And.intro | apply State.Canonical.mem | apply State.Canonical.syn | apply State.Canonical.kettle | apply State.Canonical.flash | apply NMap.wf_nil | apply NMap.wf_set | apply NMap.wf_clearRange | apply NMap.wf_foldl | apply flashWrite_wf | apply eraseFw_wf | apply programFw_wf | apply ordAppend_wf | split)

theorem State.startFirmware_canon (s : State) (h_s : s.Canonical) :
    (State.startFirmware s).Canonical := by
  unfold State.startFirmware
  repeat' (with_reducible first | assumption | apply canon_ite | simp only [State.canon_mk] | split)

theorem State.copyFru_canon (s : State) (h_s : s.Canonical) :
    (State.copyFru s).Canonical :=
  ⟨h_s.mem, h_s.syn, h_s.kettle, h_s.flash⟩

theorem State.fuseLoad_canon (s : State) (appendOk : Bool) (h_s : s.Canonical) :
    (State.fuseLoad s appendOk).Canonical := by
  unfold State.fuseLoad
  repeat' (with_reducible first | assumption | apply State.appendOrdinal_canon | apply State.startFirmware_canon | apply State.copyFru_canon | apply canon_ite | simp only [State.canon_mk] | split)

theorem State.startPorts_canon (s : State) (h_s : s.Canonical) :
    (State.startPorts s).Canonical := by
  unfold State.startPorts
  repeat' (with_reducible first | assumption | (intro _) | apply canon_ite | apply canon_foldl | simp only [State.canon_mk] | dsimp only | split)

theorem State.trainDram_canon (s : State) (fails : BitVec 12) (h_s : s.Canonical) :
    (State.trainDram s fails).Canonical :=
  ⟨h_s.mem, h_s.syn, h_s.kettle, h_s.flash⟩

theorem State.trainingDone_canon (s : State) (fails : BitVec 12) (h_s : s.Canonical) :
    (State.trainingDone s fails).Canonical := by
  unfold State.trainingDone
  repeat' (with_reducible first | assumption | apply State.trainDram_canon | apply State.startPorts_canon | apply canon_ite | simp only [State.canon_mk] | split)

theorem State.zeroAll_canon (s : State) (h_s : s.Canonical) :
    (State.zeroAll s).Canonical := by
  unfold State.zeroAll
  repeat' (with_reducible first | assumption | apply State.zeroRange_canon | apply canon_ite | simp only [State.canon_mk] | split)

theorem State.zeroingDone_canon (s : State) (h_s : s.Canonical) :
    (State.zeroingDone s).Canonical := by
  unfold State.zeroingDone
  repeat' (with_reducible first | assumption | apply State.zeroAll_canon | apply canon_ite | simp only [State.canon_mk] | split)

/-! ### Ethernet -/

theorem State.setPort_canon (s : State) (p : Nat) (e : Eth) (h_s : s.Canonical) :
    (State.setPort s p e).Canonical :=
  ⟨h_s.mem, h_s.syn, h_s.kettle, h_s.flash⟩

theorem State.firstLink_canon (s : State) (h_s : s.Canonical) :
    (State.firstLink s).Canonical := by
  unfold State.firstLink
  repeat' (with_reducible first | assumption | apply State.raise_canon | apply canon_ite | simp only [State.canon_mk] | split)

theorem State.dhcpStart_canon (s : State) (p : Fin 2) (h_s : s.Canonical) :
    (State.dhcpStart s p).Canonical := by
  unfold State.dhcpStart
  repeat' (with_reducible first | assumption | apply State.emit_canon | apply State.dhcp_canon | apply State.tx_canon | apply canon_ite | simp only [State.canon_mk] | split)

theorem State.ethLinkUp_canon (s : State) (p : Fin 2) (partner : BitVec 10) (fec4 : Fin 3) (h_s : s.Canonical) :
    (State.ethLinkUp s p partner fec4).Canonical := by
  unfold State.ethLinkUp
  repeat' (with_reducible first | assumption | apply State.setPort_canon | apply State.firstLink_canon | apply State.dhcpStart_canon | apply canon_ite | simp only [State.canon_mk] | split)

theorem State.ethLost_canon (s : State) (p : Nat) (h_s : s.Canonical) :
    (State.ethLost s p).Canonical := by
  unfold State.ethLost
  repeat' (with_reducible first | assumption | apply State.setPort_canon | apply State.count_canon | apply canon_ite | simp only [State.canon_mk] | split)

theorem State.ethLinkDown_canon (s : State) (p : Fin 2) (h_s : s.Canonical) :
    (State.ethLinkDown s p).Canonical := by
  unfold State.ethLinkDown
  repeat' (with_reducible first | assumption | apply State.ethLost_canon | apply canon_ite | simp only [State.canon_mk] | split)

theorem State.ethRenegotiate_canon (s : State) (p : Fin 2) (h_s : s.Canonical) :
    (State.ethRenegotiate s p).Canonical := by
  unfold State.ethRenegotiate
  repeat' (with_reducible first | assumption | apply State.setPort_canon | apply canon_ite | simp only [State.canon_mk] | split)

theorem State.arpRequest_canon (s : State) (p : Fin 2) (srcMac : BitVec 48) (srcIp : Word32) (target : Word32) (h_s : s.Canonical) :
    (State.arpRequest s p srcMac srcIp target).Canonical := by
  unfold State.arpRequest
  repeat' (with_reducible first | assumption | apply State.rx_canon | apply State.emit_canon | apply State.tx_canon | apply canon_ite | simp only [State.canon_mk] | split)

theorem State.icmpEcho_canon (s : State) (p : Fin 2) (kind : EchoKind) (src : BitVec 128) (dst : BitVec 128) (payload : List Byte) (h_s : s.Canonical) :
    (State.icmpEcho s p kind src dst payload).Canonical := by
  unfold State.icmpEcho
  repeat' (with_reducible first | assumption | apply State.rx_canon | apply State.emit_canon | apply State.tx_canon | apply canon_ite | simp only [State.canon_mk] | split)

theorem State.neighbour_canon (s : State) (p : Fin 2) (src : BitVec 128) (m : NdMsg) (h_s : s.Canonical) :
    (State.neighbour s p src m).Canonical := by
  unfold State.neighbour
  repeat' (with_reducible first | assumption | apply State.rx_canon | apply State.emit_canon | apply State.tx_canon | apply State.setPort_canon | apply canon_ite | simp only [State.canon_mk] | split)

theorem State.dhcp_canon (s : State) (p : Fin 2) (kind : DhcpKind) (clientId : Word64) (yiaddr : Word32) (h_s : s.Canonical) :
    (State.dhcp s p kind clientId yiaddr).Canonical := by
  unfold State.dhcp
  repeat' (with_reducible first | assumption | apply State.rx_canon | apply State.emit_canon | apply State.tx_canon | apply State.setPort_canon | apply State.dhcpStart_canon | apply canon_ite | simp only [State.canon_mk] | split)

theorem State.pfcPause_canon (s : State) (p : Fin 2) (prios : Byte) (quanta : BitVec 16) (h_s : s.Canonical) :
    (State.pfcPause s p prios quanta).Canonical := by
  unfold State.pfcPause
  repeat' (with_reducible first | assumption | apply State.rx_canon | apply State.setPort_canon | apply canon_ite | simp only [State.canon_mk] | split)

/-! ### Leat -/

theorem LeatAns.mk3_canon (s : State) (status : Nat) (payload : List Byte) (h_s : s.Canonical) :
    (LeatAns.mk3 s status payload).st.Canonical := by
  unfold LeatAns.mk3
  repeat' (with_reducible first | assumption | apply canon_ite | simp only [State.canon_mk] | split)

theorem answer_canon (s : State) (status : Nat) (h_s : s.Canonical) :
    (answer s status).st.Canonical := by
  unfold answer
  repeat' (with_reducible first | assumption | apply LeatAns.mk3_canon | apply canon_ite | simp only [State.canon_mk] | split)

theorem State.putSession_canon (s : State) (ses : Session) (h_s : s.Canonical) :
    (State.putSession s ses).Canonical :=
  ⟨h_s.mem, h_s.syn, h_s.kettle, h_s.flash⟩

theorem State.closeSessions_canon (s : State) (ids : List Word32) (h_s : s.Canonical) :
    (State.closeSessions s ids).Canonical :=
  ⟨h_s.mem, h_s.syn, h_s.kettle, h_s.flash⟩

theorem State.execute_canon (s : State) (ses : Session) (h : LeatHdr) (command : BitVec 16) (a : LeatAns) (h_s : s.Canonical) (h_a : a.st.Canonical) :
    (State.execute s ses h command a).Canonical := by
  unfold State.execute
  repeat' (with_reducible first | assumption | (intro _) | apply State.putSession_canon | apply State.sendLeat_canon | apply State.closeSessions_canon | apply canon_ite | simp only [State.canon_mk] | dsimp only | split)

theorem State.judge_canon (s : State) (ses : Session) (control : Bool) (lenOk : Bool) (run : State → LeatAns) (h_s : s.Canonical) (h_run : ∀ t, t.Canonical → (run t).st.Canonical) :
    (State.judge s ses control lenOk run).st.Canonical := by
  unfold State.judge
  repeat' (with_reducible first | assumption | apply answer_canon | apply h_run | apply canon_ite | simp only [State.canon_mk] | split)

theorem State.request_canon (s : State) (h : LeatHdr) (command : BitVec 16) (payload : List Byte) (control : Bool) (lenOk : Bool) (run : State → LeatAns) (h_s : s.Canonical) (h_run : ∀ t, t.Canonical → (run t).st.Canonical) :
    (State.request s h command payload control lenOk run).Canonical := by
  unfold State.request
  repeat' (with_reducible first | assumption | (intro _) | apply State.rx_canon | apply State.count_canon | apply State.putSession_canon | apply State.sendLeat_canon | apply State.execute_canon | apply State.judge_canon | apply h_run | apply canon_ite | simp only [State.canon_mk] | dsimp only | split)

theorem State.helloReply_canon (s : State) (p : Fin 2) (session : Word32) (status : Nat) (payload : List Byte) (h_s : s.Canonical) :
    (State.helloReply s p session status payload).Canonical := by
  unfold State.helloReply
  repeat' (with_reducible first | assumption | apply State.emit_canon | apply State.tx_canon | apply canon_ite | simp only [State.canon_mk] | split)

theorem State.flushEvents_canon (s : State) (ses : Session) (h_s : s.Canonical) :
    (State.flushEvents s ses).Canonical := by
  unfold State.flushEvents
  repeat' (with_reducible first | assumption | (intro _) | apply State.sendEvent_canon | apply State.markSent_canon | apply canon_ite | apply canon_foldl | simp only [State.canon_mk] | dsimp only | split)

theorem State.openSession_canon (s : State) (p : Fin 2) (bs : List Byte) (may : Bool) (h_s : s.Canonical) :
    (State.openSession s p bs may).Canonical := by
  unfold State.openSession
  repeat' (with_reducible first | assumption | apply State.helloReply_canon | apply State.flushEvents_canon | apply canon_ite | simp only [State.canon_mk] | split)

theorem State.hello_canon (s : State) (p : Fin 2) (bs : List Byte) (h_s : s.Canonical) :
    (State.hello s p bs).Canonical := by
  unfold State.hello
  repeat' (with_reducible first | assumption | apply State.rx_canon | apply State.helloReply_canon | apply State.openSession_canon | apply canon_ite | simp only [State.canon_mk] | split)

theorem State.sessionTimeout_canon (s : State) (id : Word32) (h_s : s.Canonical) :
    (State.sessionTimeout s id).Canonical := by
  unfold State.sessionTimeout
  repeat' (with_reducible first | assumption | apply State.closeSessions_canon | apply canon_ite | simp only [State.canon_mk] | split)

theorem pingRun_canon (s : State) (h_s : s.Canonical) :
    (pingRun s).st.Canonical := by
  unfold pingRun
  repeat' (with_reducible first | assumption | apply LeatAns.mk3_canon | apply canon_ite | simp only [State.canon_mk] | split)

theorem State.ping_canon (s : State) (h : LeatHdr) (payload : List Byte) (h_s : s.Canonical) :
    (State.ping s h payload).Canonical := by
  unfold State.ping
  repeat' (with_reducible first | assumption | apply State.request_canon | apply pingRun_canon | apply canon_ite | simp only [State.canon_mk] | split)

theorem closeRun_canon (id : Word32) (s : State) (h_s : s.Canonical) :
    (closeRun id s).st.Canonical := by
  unfold closeRun
  repeat' (with_reducible first | assumption | apply canon_ite | simp only [State.canon_mk] | split)

theorem State.leatClose_canon (s : State) (h : LeatHdr) (payload : List Byte) (h_s : s.Canonical) :
    (State.leatClose s h payload).Canonical := by
  unfold State.leatClose
  repeat' (with_reducible first | assumption | apply State.request_canon | apply closeRun_canon | apply canon_ite | simp only [State.canon_mk] | split)

theorem State.eventAck_canon (s : State) (h : LeatHdr) (h_s : s.Canonical) :
    (State.eventAck s h).Canonical := by
  unfold State.eventAck
  repeat' (with_reducible first | assumption | (intro _) | apply State.rx_canon | apply canon_ite | simp only [State.canon_mk] | dsimp only | split)

theorem State.eventResend_canon (s : State) (seq : Word64) (h_s : s.Canonical) :
    (State.eventResend s seq).Canonical := by
  unfold State.eventResend
  repeat' (with_reducible first | assumption | (intro _) | apply State.sendEvent_canon | apply State.markSent_canon | apply canon_ite | simp only [State.canon_mk] | dsimp only | split)

/-! ### FlumeLink -/

theorem State.setFport_canon (s : State) (p : Nat) (q : FlumePort) (h_s : s.Canonical) :
    (State.setFport s p q).Canonical :=
  ⟨h_s.mem, h_s.syn, h_s.kettle, h_s.flash⟩

theorem State.suspect_canon (s : State) (p : Nat) (h_s : s.Canonical) :
    (State.suspect s p).Canonical := by
  unfold State.suspect
  repeat' (with_reducible first | assumption | apply canon_ite | simp only [State.canon_mk] | split)

theorem State.sendFlit_canon (s : State) (p : Nat) (typ : Nat) (cls : Nat) (first : Nat) (seq : Nat) (payload : List Nat) (h_s : s.Canonical) :
    (State.sendFlit s p typ cls first seq payload).Canonical := by
  unfold State.sendFlit
  repeat' (with_reducible first | assumption | apply State.setFport_canon | apply State.emit_canon | apply canon_ite | simp only [State.canon_mk] | split)

theorem State.sendSequenced_canon (s : State) (p : Nat) (typ : Nat) (cls : Nat) (first : Nat) (payload : List Nat) (h_s : s.Canonical) :
    (State.sendSequenced s p typ cls first payload).Canonical := by
  unfold State.sendSequenced
  repeat' (with_reducible first | assumption | apply State.setFport_canon | apply State.sendFlit_canon | apply canon_ite | simp only [State.canon_mk] | split)

theorem State.sendReq_canon (s : State) (p : Nat) (cmd : Nat) (logical : Nat) (phys : Nat) (seq : Nat) (h_s : s.Canonical) :
    (State.sendReq s p cmd logical phys seq).Canonical := by
  unfold State.sendReq
  repeat' (with_reducible first | assumption | apply State.sendFlit_canon | apply canon_ite | simp only [State.canon_mk] | split)

theorem State.sendData_canon (s : State) (p : Nat) (c : Nat) (h_s : s.Canonical) :
    (State.sendData s p c).Canonical := by
  unfold State.sendData
  repeat' (with_reducible first | assumption | (intro _) | apply State.setFport_canon | apply State.sendSequenced_canon | apply canon_ite | simp only [State.canon_mk] | dsimp only | split)

theorem State.sendMark_canon (s : State) (p : Nat) (w : Word64) (h_s : s.Canonical) :
    (State.sendMark s p w).Canonical := by
  unfold State.sendMark
  repeat' (with_reducible first | assumption | apply State.setFport_canon | apply State.sendSequenced_canon | apply canon_ite | simp only [State.canon_mk] | split)

theorem State.pump_canon (p n : Nat) : ∀ s : State, s.Canonical → (s.pump p n).Canonical := by
  induction n with
  | zero => exact fun s h => h
  | succ n ih =>
    intro s h
    unfold State.pump
    dsimp only
    split
    · split
      · exact ih _ (State.sendMark_canon s p _ h)
      · split
        · exact ih _ (State.sendData_canon s p _ h)
        · exact h
    · exact h


theorem State.tell_canon (s : State) (p : Nat) (x3 : Nat) (h_s : s.Canonical) :
    (State.tell s p x3).Canonical := by
  fun_induction State.tell s p x3
  all_goals repeat' (with_reducible first | assumption | (intro _) | (apply_assumption) | apply State.sendFlit_canon | apply canon_ite | simp only [State.canon_mk] | split)

theorem State.pumpAll_canon (s : State) (p : Nat) (h : s.Canonical) : (s.pumpAll p).Canonical := by
  unfold State.pumpAll
  exact State.tell_canon _ _ _ (State.pump_canon p pumpFuel s h)


theorem State.queueFrame_canon (s : State) (p : Nat) (f : Frame) (h_s : s.Canonical) :
    (State.queueFrame s p f).Canonical := by
  unfold State.queueFrame
  repeat' (with_reducible first | assumption | apply State.setFport_canon | apply State.pumpAll_canon | apply canon_ite | simp only [State.canon_mk] | split)

theorem State.noteNeighbour_canon (s : State) (p : Nat) (h_s : s.Canonical) :
    (State.noteNeighbour s p).Canonical := by
  unfold State.noteNeighbour
  repeat' (with_reducible first | assumption | apply canon_ite | simp only [State.canon_mk] | split)

theorem State.portDown_canon (s : State) (p : Nat) (h_s : s.Canonical) :
    (State.portDown s p).Canonical := by
  unfold State.portDown
  repeat' (with_reducible first | assumption | apply State.setFport_canon | apply State.count_canon | apply State.noteNeighbour_canon | apply State.emit_canon | apply canon_ite | simp only [State.canon_mk] | split)

theorem State.portOff_canon (s : State) (p : Nat) (h_s : s.Canonical) :
    (State.portOff s p).Canonical := by
  unfold State.portOff
  repeat' (with_reducible first | assumption | apply State.setFport_canon | apply State.emit_canon | apply canon_ite | simp only [State.canon_mk] | split)

theorem State.retrain_canon (s : State) (p : Nat) (h_s : s.Canonical) :
    (State.retrain s p).Canonical := by
  unfold State.retrain
  repeat' (with_reducible first | assumption | apply State.setFport_canon | apply State.rx_canon | apply State.tx_canon | apply State.count_canon | apply State.suspect_canon | apply canon_ite | simp only [State.canon_mk] | split)

theorem State.sendCap_canon (s : State) (p : Nat) (h_s : s.Canonical) :
    (State.sendCap s p).Canonical := by
  unfold State.sendCap
  repeat' (with_reducible first | assumption | apply State.sendFlit_canon | apply State.rx_canon | apply canon_ite | simp only [State.canon_mk] | split)

theorem State.mapPort_canon (s : State) (p : Nat) (rx : BitVec 5) (tx : BitVec 5) (k : FlumePort → FlumePort) (h_s : s.Canonical) :
    (State.mapPort s p rx tx k).1.Canonical := by
  unfold State.mapPort
  repeat' (with_reducible first | assumption | apply State.rx_canon | apply State.tx_canon | apply State.setFport_canon | apply State.portDown_canon | apply canon_ite | apply fst_canon_ite | apply canon_foldl_fst | simp only [State.canon_mk] | split)

theorem State.signalDetect_canon (s : State) (p : Nat) (lanes : BitVec 5) (h_s : s.Canonical) :
    (State.signalDetect s p lanes).Canonical := by
  unfold State.signalDetect
  repeat' (with_reducible first | assumption | apply State.setFport_canon | apply State.emit_canon | apply canon_ite | simp only [State.canon_mk] | split)

theorem State.trainDone_canon (s : State) (p : Nat) (rx : BitVec 5) (tx : BitVec 5) (h_s : s.Canonical) :
    (State.trainDone s p rx tx).Canonical := by
  unfold State.trainDone
  repeat' (with_reducible first | assumption | (intro _) | apply State.mapPort_canon | apply State.rx_canon | apply State.tx_canon | apply State.retrain_canon | apply State.sendCap_canon | apply State.portDown_canon | apply State.setFport_canon | apply canon_ite | simp only [State.canon_mk] | dsimp only | split)

theorem State.resend_canon (s : State) (p : Nat) (x3 : List SentFlit) (h_s : s.Canonical) :
    (State.resend s p x3).Canonical := by
  fun_induction State.resend s p x3
  all_goals repeat' (with_reducible first | assumption | (intro _) | (apply_assumption) | apply State.sendFlit_canon | apply canon_ite | simp only [State.canon_mk] | split)

theorem State.capIn_canon (s : State) (p : Nat) (f : FlitIn) (h_s : s.Canonical) :
    (State.capIn s p f).Canonical := by
  unfold State.capIn
  repeat' (with_reducible first | assumption | apply State.setFport_canon | apply State.resend_canon | apply State.pumpAll_canon | apply State.portDown_canon | apply canon_ite | simp only [State.canon_mk] | split)

theorem State.cap_canon (s : State) (p : Nat) (words : List (BitVec 72)) (h_s : s.Canonical) :
    (State.cap s p words).Canonical := by
  unfold State.cap
  repeat' (with_reducible first | assumption | apply State.count_canon | apply State.countN_canon | apply State.capIn_canon | apply canon_ite | simp only [State.canon_mk] | split)

theorem State.retrainTimeout_canon (s : State) (p : Nat) (h_s : s.Canonical) :
    (State.retrainTimeout s p).Canonical := by
  unfold State.retrainTimeout
  repeat' (with_reducible first | assumption | apply State.portDown_canon | apply canon_ite | simp only [State.canon_mk] | split)

theorem State.rxIdle_canon (s : State) (p : Nat) (h_s : s.Canonical) :
    (State.rxIdle s p).Canonical := by
  unfold State.rxIdle
  repeat' (with_reducible first | assumption | apply State.portDown_canon | apply canon_ite | simp only [State.canon_mk] | split)

theorem State.downTimeout_canon (s : State) (p : Nat) (h_s : s.Canonical) :
    (State.downTimeout s p).Canonical := by
  unfold State.downTimeout
  repeat' (with_reducible first | assumption | apply State.setFport_canon | apply canon_ite | simp only [State.canon_mk] | split)

theorem State.retrainDone_canon (s : State) (p : Nat) (rx : BitVec 5) (tx : BitVec 5) (h_s : s.Canonical) :
    (State.retrainDone s p rx tx).Canonical := by
  unfold State.retrainDone
  repeat' (with_reducible first | assumption | (intro _) | apply State.retrain_canon | apply State.mapPort_canon | apply State.rx_canon | apply State.tx_canon | apply State.sendCap_canon | apply canon_ite | simp only [State.canon_mk] | dsimp only | split)

theorem State.remap_canon (s : State) (p : Nat) (m : LaneMap) (req : LaneReq) (h_s : s.Canonical) :
    (State.remap s p m req).Canonical := by
  unfold State.remap
  repeat' (with_reducible first | assumption | apply State.portDown_canon | apply State.setFport_canon | apply State.rx_canon | apply State.count_canon | apply State.sendReq_canon | apply canon_ite | simp only [State.canon_mk] | split)

theorem State.retireLane_canon (s : State) (p : Nat) (lane : Nat) (h_s : s.Canonical) :
    (State.retireLane s p lane).Canonical := by
  unfold State.retireLane
  repeat' (with_reducible first | assumption | (intro _) | apply State.rx_canon | apply State.setFport_canon | apply State.remap_canon | apply canon_ite | simp only [State.canon_mk] | dsimp only | split)

theorem State.laneLockLoss_canon (s : State) (p : Nat) (lanes : BitVec 5) (h_s : s.Canonical) :
    (State.laneLockLoss s p lanes).Canonical := by
  unfold State.laneLockLoss
  repeat' (with_reducible first | assumption | (intro _) | apply State.rx_canon | apply State.retrain_canon | apply State.retireLane_canon | apply canon_ite | apply canon_foldl | simp only [State.canon_mk] | dsimp only | split)

theorem State.laneCeLimit_canon (s : State) (p : Nat) (lane : Nat) (h_s : s.Canonical) :
    (State.laneCeLimit s p lane).Canonical := by
  unfold State.laneCeLimit
  repeat' (with_reducible first | assumption | apply State.rx_canon | apply State.retireLane_canon | apply canon_ite | simp only [State.canon_mk] | split)

theorem State.reqRepeat_canon (s : State) (p : Nat) (h_s : s.Canonical) :
    (State.reqRepeat s p).Canonical := by
  unfold State.reqRepeat
  repeat' (with_reducible first | assumption | apply State.sendReq_canon | apply canon_ite | simp only [State.canon_mk] | split)

theorem State.prbsPassed_canon (s : State) (p : Nat) (lane : Nat) (h_s : s.Canonical) :
    (State.prbsPassed s p lane).Canonical := by
  unfold State.prbsPassed
  repeat' (with_reducible first | assumption | apply State.rx_canon | apply State.sendReq_canon | apply State.setFport_canon | apply canon_ite | simp only [State.canon_mk] | split)

theorem State.shadowMatch_canon (s : State) (p : Nat) (lane : Nat) (at_ : Nat) (h_s : s.Canonical) :
    (State.shadowMatch s p lane at_).Canonical := by
  unfold State.shadowMatch
  repeat' (with_reducible first | assumption | apply State.rx_canon | apply State.setFport_canon | apply State.count_canon | apply State.sendReq_canon | apply canon_ite | simp only [State.canon_mk] | split)

theorem State.flitFail_canon (s : State) (p : Nat) (same : Bool) (h_s : s.Canonical) :
    (State.flitFail s p same).Canonical := by
  unfold State.flitFail
  repeat' (with_reducible first | assumption | apply State.setFport_canon | apply State.sendReq_canon | apply State.retrain_canon | apply canon_ite | simp only [State.canon_mk] | split)

theorem State.flitTrailer_canon (s : State) (p : Nat) (f : FlitIn) (h_s : s.Canonical) :
    (State.flitTrailer s p f).Canonical := by
  unfold State.flitTrailer
  repeat' (with_reducible first | assumption | apply State.setFport_canon | apply canon_ite | simp only [State.canon_mk] | split)

theorem State.flitArrive_canon (s : State) (p : Nat) (words : List (BitVec 72)) (k : State → FlitIn → State) (h_s : s.Canonical) (h_k : ∀ t u, t.Canonical → (k t u).Canonical) :
    (State.flitArrive s p words k).Canonical := by
  unfold State.flitArrive
  repeat' (with_reducible first | assumption | apply State.setFport_canon | apply State.count_canon | apply State.countN_canon | apply State.flitTrailer_canon | apply State.flitFail_canon | apply h_k | apply canon_ite | simp only [State.canon_mk] | split)

theorem State.sequenced_canon (s : State) (p : Nat) (f : FlitIn) (k : State → State) (h_s : s.Canonical) (h_k : ∀ t, t.Canonical → (k t).Canonical) :
    (State.sequenced s p f k).Canonical := by
  unfold State.sequenced
  repeat' (with_reducible first | assumption | apply State.setFport_canon | apply State.flitFail_canon | apply h_k | apply canon_ite | simp only [State.canon_mk] | split)

theorem State.idleIn_canon (s : State) (p : Nat) (words : List (BitVec 72)) (h_s : s.Canonical) :
    (State.idleIn s p words).Canonical := by
  unfold State.idleIn
  repeat' (with_reducible first | assumption | (intro _) | apply State.flitArrive_canon | apply State.pumpAll_canon | apply canon_ite | simp only [State.canon_mk] | dsimp only | split)

theorem State.markIn_canon (s : State) (p : Nat) (words : List (BitVec 72)) (h_s : s.Canonical) :
    (State.markIn s p words).Canonical := by
  unfold State.markIn
  repeat' (with_reducible first | assumption | (intro _) | apply State.flitArrive_canon | apply State.sequenced_canon | apply State.rx_canon | apply State.setFport_canon | apply State.pumpAll_canon | apply canon_ite | simp only [State.canon_mk] | dsimp only | split)

theorem State.reqIn_canon (s : State) (p : Nat) (words : List (BitVec 72)) (cmd : Nat) (k : State → Nat → State) (h_s : s.Canonical) (h_k : ∀ t u, t.Canonical → (k t u).Canonical) :
    (State.reqIn s p words cmd k).Canonical := by
  unfold State.reqIn
  repeat' (with_reducible first | assumption | (intro _) | apply State.flitArrive_canon | apply State.pumpAll_canon | apply h_k | apply canon_ite | simp only [State.canon_mk] | dsimp only | split)

theorem State.resendFrom_canon (s : State) (p : Nat) (e : Nat) (h_s : s.Canonical) :
    (State.resendFrom s p e).Canonical := by
  unfold State.resendFrom
  repeat' (with_reducible first | assumption | (intro _) | apply State.resend_canon | apply canon_ite | simp only [State.canon_mk] | dsimp only | split)

theorem State.nakResend_canon (s : State) (p : Nat) (e : Nat) (h_s : s.Canonical) :
    (State.nakResend s p e).Canonical := by
  unfold State.nakResend
  repeat' (with_reducible first | assumption | (intro _) | apply State.setFport_canon | apply State.retrain_canon | apply State.count_canon | apply State.suspect_canon | apply State.resendFrom_canon | apply canon_ite | simp only [State.canon_mk] | dsimp only | split)

theorem State.nakIn_canon (s : State) (p : Nat) (words : List (BitVec 72)) (h_s : s.Canonical) :
    (State.nakIn s p words).Canonical := by
  unfold State.nakIn
  repeat' (with_reducible first | assumption | (intro _) | apply State.reqIn_canon | apply State.nakResend_canon | apply canon_ite | simp only [State.canon_mk] | dsimp only | split)

theorem State.remapTx_canon (s : State) (p : Nat) (e : Nat) (m : LaneMap) (h_s : s.Canonical) :
    (State.remapTx s p e m).Canonical := by
  unfold State.remapTx
  repeat' (with_reducible first | assumption | apply State.resendFrom_canon | apply State.setFport_canon | apply State.tx_canon | apply canon_ite | simp only [State.canon_mk] | split)

theorem State.spareIn_canon (s : State) (p : Nat) (words : List (BitVec 72)) (h_s : s.Canonical) :
    (State.spareIn s p words).Canonical := by
  unfold State.spareIn
  repeat' (with_reducible first | assumption | (intro _) | apply State.reqIn_canon | apply State.remapTx_canon | apply canon_ite | simp only [State.canon_mk] | dsimp only | split)

theorem State.narrowIn_canon (s : State) (p : Nat) (words : List (BitVec 72)) (h_s : s.Canonical) :
    (State.narrowIn s p words).Canonical := by
  unfold State.narrowIn
  repeat' (with_reducible first | assumption | (intro _) | apply State.reqIn_canon | apply State.remapTx_canon | apply canon_ite | simp only [State.canon_mk] | dsimp only | split)

theorem State.admitIn_canon (s : State) (p : Nat) (words : List (BitVec 72)) (h_s : s.Canonical) :
    (State.admitIn s p words).Canonical := by
  unfold State.admitIn
  repeat' (with_reducible first | assumption | (intro _) | apply State.reqIn_canon | apply State.setFport_canon | apply State.tx_canon | apply canon_ite | simp only [State.canon_mk] | dsimp only | split)

theorem State.switchTx_canon (s : State) (p : Nat) (lane : Nat) (h_s : s.Canonical) :
    (State.switchTx s p lane).Canonical := by
  unfold State.switchTx
  repeat' (with_reducible first | assumption | apply State.tx_canon | apply State.setFport_canon | apply canon_ite | simp only [State.canon_mk] | split)

theorem State.switchedIn_canon (s : State) (p : Nat) (words : List (BitVec 72)) (h_s : s.Canonical) :
    (State.switchedIn s p words).Canonical := by
  unfold State.switchedIn
  repeat' (with_reducible first | assumption | (intro _) | apply State.reqIn_canon | apply State.tx_canon | apply State.switchTx_canon | apply canon_ite | simp only [State.canon_mk] | dsimp only | split)

theorem State.setFlumeCfg_canon (s : State) (p : Nat) (v : Word32) (h_s : s.Canonical) :
    (State.setFlumeCfg s p v).Canonical := by
  unfold State.setFlumeCfg
  repeat' (with_reducible first | assumption | apply State.setFport_canon | apply State.portOff_canon | apply canon_ite | simp only [State.canon_mk] | split)

/-! ### Clocks -/

theorem State.setCtrl_canon (s : State) (n : Nat) (c : ClkCtrl) (h_s : s.Canonical) :
    (State.setCtrl s n c).Canonical :=
  ⟨h_s.mem, h_s.syn, h_s.kettle, h_s.flash⟩

theorem State.refclkStable_canon (s : State) (h_s : s.Canonical) :
    (State.refclkStable s).Canonical := by
  unfold State.refclkStable
  repeat' (with_reducible first | assumption | apply canon_ite | simp only [State.canon_mk] | split)

theorem State.refclkTimeout_canon (s : State) (h_s : s.Canonical) :
    (State.refclkTimeout s).Canonical := by
  unfold State.refclkTimeout
  repeat' (with_reducible first | assumption | apply State.setAlert_canon | apply canon_ite | simp only [State.canon_mk] | split)

theorem State.lostAtBoundary_canon (s : State) (h_s : s.Canonical) :
    (State.lostAtBoundary s).Canonical := by
  unfold State.lostAtBoundary
  repeat' (with_reducible first | assumption | apply State.declareFailed_canon | apply canon_ite | simp only [State.canon_mk] | split)

theorem State.refclkLoss_canon (s : State) (h_s : s.Canonical) :
    (State.refclkLoss s).Canonical := by
  unfold State.refclkLoss
  repeat' (with_reducible first | assumption | apply State.setAlert_canon | apply State.raise_canon | apply canon_ite | simp only [State.canon_mk] | split)

theorem State.pllLock_canon (s : State) (n : Nat) (h_s : s.Canonical) :
    (State.pllLock s n).Canonical := by
  unfold State.pllLock
  repeat' (with_reducible first | assumption | apply canon_ite | simp only [State.canon_mk] | split)

theorem State.serdesUnlock_canon (s : State) (n : Nat) (h_s : s.Canonical) :
    (State.serdesUnlock s n).Canonical := by
  unfold State.serdesUnlock
  repeat' (with_reducible first | assumption | apply State.ethLost_canon | apply State.retrain_canon | apply canon_ite | simp only [State.canon_mk] | split)

theorem State.pllUnlock_canon (s : State) (n : Nat) (h_s : s.Canonical) :
    (State.pllUnlock s n).Canonical := by
  unfold State.pllUnlock
  repeat' (with_reducible first | assumption | apply State.count_canon | apply State.serdesUnlock_canon | apply canon_ite | simp only [State.canon_mk] | split)

theorem State.applyCtrl_canon (s : State) (n : Nat) (c : ClkCtrl) (h_s : s.Canonical) :
    (State.applyCtrl s n c).Canonical := by
  unfold State.applyCtrl
  repeat' (with_reducible first | assumption | apply State.setCtrl_canon | apply canon_ite | simp only [State.canon_mk] | split)

theorem State.writeCtrl_canon (s : State) (n : Nat) (c : ClkCtrl) (h_s : s.Canonical) :
    (State.writeCtrl s n c).Canonical := by
  unfold State.writeCtrl
  repeat' (with_reducible first | assumption | apply State.applyCtrl_canon | apply canon_ite | simp only [State.canon_mk] | split)

theorem State.releaseCtrl_canon (s : State) (n : Nat) (h_s : s.Canonical) :
    (State.releaseCtrl s n).Canonical := by
  unfold State.releaseCtrl
  repeat' (with_reducible first | assumption | apply State.applyCtrl_canon | apply canon_ite | simp only [State.canon_mk] | split)

theorem State.setEthCfg_canon (s : State) (p : Nat) (v : Word32) (h_s : s.Canonical) :
    (State.setEthCfg s p v).Canonical := by
  unfold State.setEthCfg
  repeat' (with_reducible first | assumption | apply State.setPort_canon | apply State.releaseCtrl_canon | apply canon_ite | simp only [State.canon_mk] | split)

theorem State.writeFlumeCfg_canon (s : State) (p : Nat) (v : Word32) (h_s : s.Canonical) :
    (State.writeFlumeCfg s p v).Canonical := by
  unfold State.writeFlumeCfg
  repeat' (with_reducible first | assumption | apply State.setFlumeCfg_canon | apply State.releaseCtrl_canon | apply canon_ite | simp only [State.canon_mk] | split)

/-! ### Governor -/

theorem State.govFloor_canon (s : State) (pMw : Nat) (f : Nat) (tj : Nat) (h_s : s.Canonical) :
    (State.govFloor s pMw f tj).Canonical := by
  unfold State.govFloor
  repeat' (with_reducible first | assumption | apply State.count_canon | apply State.setFloor_canon | apply State.setAlert_canon | apply State.raise_canon | apply canon_ite | simp only [State.canon_mk] | split)

theorem State.thermalAgain_canon (s : State) (hottest : Nat) (h_s : s.Canonical) :
    (State.thermalAgain s hottest).Canonical := by
  unfold State.thermalAgain
  repeat' (with_reducible first | assumption | apply State.setAlert_canon | apply canon_ite | simp only [State.canon_mk] | split)

theorem State.samplePower_canon (s : State) (windowW : Nat) (inputMv : Nat) (h_s : s.Canonical) :
    (State.samplePower s windowW inputMv).Canonical :=
  ⟨h_s.mem, h_s.syn, h_s.kettle, h_s.flash⟩

theorem State.governorPeriod_canon (s : State) (pMw : Nat) (windowW : Nat) (inputMv : Nat) (tj : List Byte) (spineTj : Byte) (h_s : s.Canonical) :
    (State.governorPeriod s pMw windowW inputMv tj spineTj).Canonical := by
  unfold State.governorPeriod
  repeat' (with_reducible first | assumption | (intro _) | apply State.samplePower_canon | apply State.govFloor_canon | apply State.thermalAgain_canon | apply canon_ite | apply canon_foldl | simp only [State.canon_mk] | dsimp only | split)

theorem State.lendStart_canon (s : State) (f : Nat) (pMw : Nat) (railMw : List Nat) (h_s : s.Canonical) :
    (State.lendStart s f pMw railMw).Canonical := by
  unfold State.lendStart
  repeat' (with_reducible first | assumption | apply State.setLending_canon | apply State.count_canon | apply canon_ite | simp only [State.canon_mk] | split)

theorem State.thermalAlert_canon (s : State) (sensor : Nat) (tempC : Byte) (h_s : s.Canonical) :
    (State.thermalAlert s sensor tempC).Canonical := by
  unfold State.thermalAlert
  repeat' (with_reducible first | assumption | apply State.setAlert_canon | apply State.raise_canon | apply canon_ite | simp only [State.canon_mk] | split)

theorem State.thermalTrip_canon (s : State) (h_s : s.Canonical) :
    (State.thermalTrip s).Canonical := by
  unfold State.thermalTrip
  repeat' (with_reducible first | assumption | apply State.railsOff_canon | apply canon_ite | simp only [State.canon_mk] | split)

theorem State.thermalRelease_canon (s : State) (h_s : s.Canonical) :
    (State.thermalRelease s).Canonical := by
  unfold State.thermalRelease
  repeat' (with_reducible first | assumption | apply canon_ite | simp only [State.canon_mk] | split)

theorem State.floorFault_canon (s : State) (dom : Nat) (h_s : s.Canonical) :
    (State.floorFault s dom).Canonical := by
  unfold State.floorFault
  repeat' (with_reducible first | assumption | apply State.setAlert_canon | apply State.raise_canon | apply State.declareFailed_canon | apply canon_ite | simp only [State.canon_mk] | split)

theorem State.otherFault_canon (s : State) (within1s : Bool) (h_s : s.Canonical) :
    (State.otherFault s within1s).Canonical := by
  unfold State.otherFault
  repeat' (with_reducible first | assumption | apply State.railsOff_canon | apply State.railsUp_canon | apply canon_ite | simp only [State.canon_mk] | split)

theorem State.railFault_canon (s : State) (dom : Nat) (within1s : Bool) (h_s : s.Canonical) :
    (State.railFault s dom within1s).Canonical := by
  unfold State.railFault
  repeat' (with_reducible first | assumption | apply State.floorFault_canon | apply State.otherFault_canon | apply canon_ite | simp only [State.canon_mk] | split)

theorem State.droop_canon (s : State) (f : Nat) (h_s : s.Canonical) :
    (State.droop s f).Canonical := by
  unfold State.droop
  repeat' (with_reducible first | assumption | apply State.count_canon | apply canon_ite | simp only [State.canon_mk] | split)

theorem State.setGovCfg_canon (s : State) (v : Nat) (h_s : s.Canonical) :
    (State.setGovCfg s v).Canonical :=
  ⟨h_s.mem, h_s.syn, h_s.kettle, h_s.flash⟩

theorem State.uninstall_canon (s : State) (h_s : s.Canonical) :
    (State.uninstall s).Canonical := by
  unfold State.uninstall
  repeat' (with_reducible first | assumption | apply State.setLending_canon | apply canon_ite | simp only [State.canon_mk] | split)

theorem State.loseFloors_canon (s : State) (h_s : s.Canonical) :
    (State.loseFloors s).Canonical := by
  unfold State.loseFloors
  repeat' (with_reducible first | assumption | (intro _) | apply State.zeroRange_canon | apply canon_ite | apply canon_foldl | apply Out.canon_ite | apply Out.canon_andThen | apply Out.canon_mk_go | apply Out.canon_mk_stop | apply Out.canon_mk_wait | apply fst_canon_ite | apply canon_foldl_fst | apply Out.fst_canon_ite | apply Out.canon_foldl | apply KStep.canon_next | apply KStep.canon_wait | apply KStep.canon_stop | apply optCanon_some | apply optCanon_none | apply exceptCanon_ok | apply exceptCanon_error | simp only [State.canon_mk] | (apply Out.canon_go; assumption) | (apply Out.canon_stop; assumption) | (apply Except.canon_ok; assumption) | (apply opt_canon_some; assumption) | dsimp only | simp only [State.canon_iff] | apply And.intro | apply State.Canonical.mem | apply State.Canonical.syn | apply State.Canonical.kettle | apply State.Canonical.flash | apply NMap.wf_nil | apply NMap.wf_set | apply NMap.wf_clearRange | apply NMap.wf_foldl | apply flashWrite_wf | apply eraseFw_wf | apply programFw_wf | apply ordAppend_wf | split)

theorem State.loseDram_canon (s : State) (h_s : s.Canonical) :
    (State.loseDram s).Canonical := by
  unfold State.loseDram
  repeat' (with_reducible first | assumption | apply State.zeroRange_canon | apply canon_ite | simp only [State.canon_mk] | split)

theorem State.portsOff_canon (s : State) (h_s : s.Canonical) :
    (State.portsOff s).Canonical := by
  unfold State.portsOff
  repeat' (with_reducible first | assumption | (intro _) | apply State.portOff_canon | apply canon_ite | apply canon_foldl | simp only [State.canon_mk] | dsimp only | split)

theorem State.setDomains_canon (s : State) (l : Nat) (h_s : s.Canonical) :
    (State.setDomains s l).Canonical := by
  unfold State.setDomains
  repeat' (with_reducible first | assumption | apply State.loseFloors_canon | apply State.portsOff_canon | apply State.loseDram_canon | apply State.startPorts_canon | apply canon_ite | simp only [State.canon_mk] | split)

theorem State.arrive_canon (s : State) (l : Nat) (h_s : s.Canonical) :
    (State.arrive s l).Canonical := by
  unfold State.arrive
  repeat' (with_reducible first | assumption | apply State.raise_canon | apply State.setDomains_canon | apply canon_ite | simp only [State.canon_mk] | split)

theorem State.moveTo_canon (s : State) (l : Nat) (h_s : s.Canonical) :
    (State.moveTo s l).Canonical := by
  unfold State.moveTo
  repeat' (with_reducible first | assumption | apply canon_ite | simp only [State.canon_mk] | split)

theorem State.requestLevel_canon (s : State) (l : Nat) (h_s : s.Canonical) :
    (State.requestLevel s l).Canonical := by
  unfold State.requestLevel
  repeat' (with_reducible first | assumption | apply State.uninstall_canon | apply State.moveTo_canon | apply canon_ite | simp only [State.canon_mk] | split)

theorem State.levelDone_canon (s : State) (h_s : s.Canonical) :
    (State.levelDone s).Canonical := by
  unfold State.levelDone
  repeat' (with_reducible first | assumption | apply State.arrive_canon | apply canon_ite | simp only [State.canon_mk] | split)

theorem State.wake_canon (s : State) (h_s : s.Canonical) :
    (State.wake s).Canonical := by
  unfold State.wake
  repeat' (with_reducible first | assumption | apply State.moveTo_canon | apply State.arrive_canon | apply canon_ite | simp only [State.canon_mk] | split)

/-! ### Security -/

theorem State.stagedList_canon (s : State) (h_s : s.Canonical) :
    (State.stagedList s).1.Canonical := by
  unfold State.stagedList
  repeat' (with_reducible first | assumption | apply State.millerRead_canon | apply canon_ite | apply fst_canon_ite | apply canon_foldl_fst | simp only [State.canon_mk] | split)

theorem State.installList_canon (s : State) (bs : List Byte) (h_s : s.Canonical) :
    (State.installList s bs).1.Canonical := by
  unfold State.installList
  repeat' (with_reducible first | assumption | (intro _) | apply State.raise_canon | apply canon_ite | apply canon_foldl | apply Out.canon_ite | apply Out.canon_andThen | apply Out.canon_mk_go | apply Out.canon_mk_stop | apply Out.canon_mk_wait | apply fst_canon_ite | apply canon_foldl_fst | apply Out.fst_canon_ite | apply Out.canon_foldl | apply KStep.canon_next | apply KStep.canon_wait | apply KStep.canon_stop | apply optCanon_some | apply optCanon_none | apply exceptCanon_ok | apply exceptCanon_error | simp only [State.canon_mk] | (apply Out.canon_go; assumption) | (apply Out.canon_stop; assumption) | (apply Except.canon_ok; assumption) | (apply opt_canon_some; assumption) | dsimp only | simp only [State.canon_iff] | apply And.intro | apply State.Canonical.mem | apply State.Canonical.syn | apply State.Canonical.kettle | apply State.Canonical.flash | apply NMap.wf_nil | apply NMap.wf_set | apply NMap.wf_clearRange | apply NMap.wf_foldl | apply flashWrite_wf | apply eraseFw_wf | apply programFw_wf | apply ordAppend_wf | split)

theorem secFail_canon (s : State) (result : Nat) (h_s : s.Canonical) :
    (secFail s result).st.Canonical := by
  unfold secFail
  repeat' (with_reducible first | assumption | apply canon_ite | simp only [State.canon_mk] | split)

theorem State.secClaim_canon (v : State) (h_v : v.Canonical) :
    (State.secClaim v).st.Canonical := by
  unfold State.secClaim
  repeat' (with_reducible first | assumption | apply State.stagedList_canon | apply secFail_canon | apply State.installList_canon | apply canon_ite | simp only [State.canon_mk] | split)

theorem State.secEnrol_canon (v : State) (h_v : v.Canonical) :
    (State.secEnrol v).st.Canonical := by
  unfold State.secEnrol
  repeat' (with_reducible first | assumption | apply State.stagedList_canon | apply secFail_canon | apply State.installList_canon | apply canon_ite | simp only [State.canon_mk] | split)

theorem State.secClose_canon (s : State) (h_s : s.Canonical) :
    (State.secClose s).st.Canonical := by
  unfold State.secClose
  repeat' (with_reducible first | assumption | apply canon_ite | simp only [State.canon_mk] | split)

theorem State.secCommit_canon (s : State) (h_s : s.Canonical) :
    (State.secCommit s).st.Canonical := by
  unfold State.secCommit
  repeat' (with_reducible first | assumption | apply canon_ite | simp only [State.canon_mk] | split)

theorem State.secAction_canon (s : State) (action : Nat) (h_s : s.Canonical) :
    (State.secAction s action).st.Canonical := by
  unfold State.secAction
  repeat' (with_reducible first | assumption | apply State.secClaim_canon | apply State.secEnrol_canon | apply State.secClose_canon | apply State.secCommit_canon | apply canon_ite | simp only [State.canon_mk] | split)

theorem State.writeSecCtrl_canon (s : State) (v : Nat) (h_s : s.Canonical) :
    (State.writeSecCtrl s v).1.Canonical := by
  unfold State.writeSecCtrl
  repeat' (with_reducible first | assumption | apply State.secAction_canon | apply canon_ite | apply fst_canon_ite | apply canon_foldl_fst | simp only [State.canon_mk] | split)

theorem attestRun_canon (payload : List Byte) (s : State) (h_s : s.Canonical) :
    (attestRun payload s).st.Canonical := by
  unfold attestRun
  repeat' (with_reducible first | assumption | apply LeatAns.mk3_canon | apply canon_ite | simp only [State.canon_mk] | split)

theorem State.attest_canon (s : State) (h : LeatHdr) (payload : List Byte) (h_s : s.Canonical) :
    (State.attest s h payload).Canonical := by
  unfold State.attest
  repeat' (with_reducible first | assumption | apply State.request_canon | apply attestRun_canon | apply canon_ite | simp only [State.canon_mk] | split)

theorem fwUpdateRun_canon (payload : List Byte) (s : State) (h_s : s.Canonical) :
    (fwUpdateRun payload s).st.Canonical := by
  unfold fwUpdateRun
  repeat' (with_reducible first | assumption | apply answer_canon | apply State.millerRead_canon | apply canon_ite | simp only [State.canon_mk] | split)

theorem State.fwUpdate_canon (s : State) (h : LeatHdr) (payload : List Byte) (h_s : s.Canonical) :
    (State.fwUpdate s h payload).Canonical := by
  unfold State.fwUpdate
  repeat' (with_reducible first | assumption | apply State.request_canon | apply fwUpdateRun_canon | apply canon_ite | simp only [State.canon_mk] | split)

theorem State.fwEnd_canon (s : State) (result : Nat) (h_s : s.Canonical) :
    (State.fwEnd s result).Canonical := by
  unfold State.fwEnd
  repeat' (with_reducible first | assumption | apply State.raise_canon | apply canon_ite | simp only [State.canon_mk] | split)

theorem State.fwPhase_canon (s : State) (ok : Bool) (h_s : s.Canonical) :
    (State.fwPhase s ok).Canonical := by
  unfold State.fwPhase
  repeat' (with_reducible first | assumption | (intro _) | apply State.fwEnd_canon | apply canon_ite | apply canon_foldl | apply Out.canon_ite | apply Out.canon_andThen | apply Out.canon_mk_go | apply Out.canon_mk_stop | apply Out.canon_mk_wait | apply fst_canon_ite | apply canon_foldl_fst | apply Out.fst_canon_ite | apply Out.canon_foldl | apply KStep.canon_next | apply KStep.canon_wait | apply KStep.canon_stop | apply optCanon_some | apply optCanon_none | apply exceptCanon_ok | apply exceptCanon_error | simp only [State.canon_mk] | (apply Out.canon_go; assumption) | (apply Out.canon_stop; assumption) | (apply Except.canon_ok; assumption) | (apply opt_canon_some; assumption) | dsimp only | simp only [State.canon_iff] | apply And.intro | apply State.Canonical.mem | apply State.Canonical.syn | apply State.Canonical.kettle | apply State.Canonical.flash | apply NMap.wf_nil | apply NMap.wf_set | apply NMap.wf_clearRange | apply NMap.wf_foldl | apply flashWrite_wf | apply eraseFw_wf | apply programFw_wf | apply ordAppend_wf | split)

/-! ### Regs -/

theorem State.clearAlert_canon (s : State) (v : Nat) (h_s : s.Canonical) :
    (State.clearAlert s v).Canonical :=
  ⟨h_s.mem, h_s.syn, h_s.kettle, h_s.flash⟩

theorem State.clearUeLog_canon (s : State) (v : Nat) (h_s : s.Canonical) :
    (State.clearUeLog s v).Canonical := by
  unfold State.clearUeLog
  repeat' (with_reducible first | assumption | apply canon_ite | simp only [State.canon_mk] | split)

theorem State.clearShapeLog_canon (s : State) (v : Nat) (h_s : s.Canonical) :
    (State.clearShapeLog s v).Canonical := by
  unfold State.clearShapeLog
  repeat' (with_reducible first | assumption | apply canon_ite | simp only [State.canon_mk] | split)

theorem State.clearDeadLog_canon (s : State) (v : Nat) (h_s : s.Canonical) :
    (State.clearDeadLog s v).Canonical := by
  unfold State.clearDeadLog
  repeat' (with_reducible first | assumption | apply canon_ite | simp only [State.canon_mk] | split)

theorem State.clearWeirLog_canon (s : State) (v : Nat) (h_s : s.Canonical) :
    (State.clearWeirLog s v).Canonical := by
  unfold State.clearWeirLog
  repeat' (with_reducible first | assumption | apply canon_ite | simp only [State.canon_mk] | split)

theorem State.clearDigLog_canon (s : State) (v : Nat) (h_s : s.Canonical) :
    (State.clearDigLog s v).Canonical := by
  unfold State.clearDigLog
  repeat' (with_reducible first | assumption | apply canon_ite | simp only [State.canon_mk] | split)

theorem State.writeCounterClear_canon (s : State) (v : Nat) (h_s : s.Canonical) :
    (State.writeCounterClear s v).Canonical := by
  unfold State.writeCounterClear
  repeat' (with_reducible first | assumption | apply State.counterClear_canon | apply canon_ite | simp only [State.canon_mk] | split)

theorem State.regWriteOne_canon (s : State) (a : Nat) (v : Nat) (h_s : s.Canonical) :
    (State.regWriteOne s a v).1.Canonical := by
  unfold State.regWriteOne
  repeat' (with_reducible first | assumption | apply State.clearShapeLog_canon | apply State.setGovCfg_canon | apply State.clearAlert_canon | apply State.requestLevel_canon | apply State.writeCtrl_canon | apply State.writeSecCtrl_canon | apply State.setEthCfg_canon | apply State.writeFlumeCfg_canon | apply State.clearDigLog_canon | apply State.clearUeLog_canon | apply State.clearDeadLog_canon | apply State.clearWeirLog_canon | apply State.writeCounterClear_canon | apply canon_ite | apply fst_canon_ite | apply canon_foldl_fst | simp only [State.canon_mk] | split)

theorem State.regWrites_canon (s : State) (a : Nat) (x3 : List Nat) (h_s : s.Canonical) :
    (State.regWrites s a x3).1.Canonical := by
  fun_induction State.regWrites s a x3
  all_goals repeat' (with_reducible first | assumption | (intro _) | (apply_assumption) | apply State.regWriteOne_canon | apply canon_ite | apply fst_canon_ite | apply canon_foldl_fst | simp only [State.canon_mk] | split)

theorem regReadRun_canon (payload : List Byte) (s : State) (h_s : s.Canonical) :
    (regReadRun payload s).st.Canonical := by
  unfold regReadRun
  repeat' (with_reducible first | assumption | (intro _) | apply answer_canon | apply LeatAns.mk3_canon | apply canon_ite | simp only [State.canon_mk] | dsimp only | split)

theorem State.regRead_canon (s : State) (h : LeatHdr) (payload : List Byte) (h_s : s.Canonical) :
    (State.regRead s h payload).Canonical := by
  unfold State.regRead
  repeat' (with_reducible first | assumption | apply State.request_canon | apply regReadRun_canon | apply canon_ite | simp only [State.canon_mk] | split)

theorem State.timeLoRead_canon (s : State) (h : LeatHdr) (n : Nat) (h_s : s.Canonical) :
    (State.timeLoRead s h n).Canonical := by
  unfold State.timeLoRead
  repeat' (with_reducible first | assumption | apply State.regRead_canon | apply canon_ite | simp only [State.canon_mk] | split)

theorem regWriteRun_canon (payload : List Byte) (s : State) (h_s : s.Canonical) :
    (regWriteRun payload s).st.Canonical := by
  unfold regWriteRun
  repeat' (with_reducible first | assumption | (intro _) | apply answer_canon | apply State.regWrites_canon | apply canon_ite | simp only [State.canon_mk] | dsimp only | split)

theorem State.regWrite_canon (s : State) (h : LeatHdr) (payload : List Byte) (h_s : s.Canonical) :
    (State.regWrite s h payload).Canonical := by
  unfold State.regWrite
  repeat' (with_reducible first | assumption | apply State.request_canon | apply regWriteRun_canon | apply canon_ite | simp only [State.canon_mk] | split)

theorem State.writeReg_canon (s : State) (h : LeatHdr) (a : Nat) (v : Nat) (h_s : s.Canonical) :
    (State.writeReg s h a v).Canonical := by
  unfold State.writeReg
  repeat' (with_reducible first | assumption | apply State.regWrite_canon | apply canon_ite | simp only [State.canon_mk] | split)

theorem State.counterRefresh_canon (s : State) (h_s : s.Canonical) :
    (State.counterRefresh s).Canonical := by
  unfold State.counterRefresh
  repeat' (with_reducible first | assumption | apply State.refreshAll_canon | apply canon_ite | simp only [State.canon_mk] | split)

/-! ### Tailrace -/

theorem State.trReply_canon (s : State) (t : TrHdr) (opcode : Nat) (status : Nat) (payload : List Byte) (h_s : s.Canonical) :
    (State.trReply s t opcode status payload).Canonical := by
  unfold State.trReply
  repeat' (with_reducible first | assumption | apply State.emit_canon | apply State.tailrace_canon | apply State.tx_canon | apply canon_ite | simp only [State.canon_mk] | split)

theorem State.tailrace_canon (s : State) (t : TrHdr) (opcode : Nat) (run : State → State) (h_s : s.Canonical) (h_run : ∀ t, t.Canonical → (run t).Canonical) :
    (State.tailrace s t opcode run).Canonical := by
  unfold State.tailrace
  repeat' (with_reducible first | assumption | apply State.rx_canon | apply State.count_canon | apply State.trReply_canon | apply h_run | apply canon_ite | simp only [State.canon_mk] | split)

theorem State.holdPort_canon (s : State) (port : Nat) (h_s : s.Canonical) :
    (State.holdPort s port).Canonical := by
  unfold State.holdPort
  repeat' (with_reducible first | assumption | apply State.setPort_canon | apply State.retrain_canon | apply State.portDown_canon | apply State.portOff_canon | apply State.setFport_canon | apply canon_ite | simp only [State.canon_mk] | split)

theorem State.restorePort_canon (s : State) (port : Nat) (h_s : s.Canonical) :
    (State.restorePort s port).Canonical := by
  unfold State.restorePort
  repeat' (with_reducible first | assumption | (intro _) | apply State.setPort_canon | apply State.setFport_canon | apply canon_ite | simp only [State.canon_mk] | dsimp only | split)

theorem State.startTest_canon (s : State) (t : TrHdr) (op : Nat) (sel : Nat) (endAt : Nat) (h_s : s.Canonical) :
    (State.startTest s t op sel endAt).Canonical := by
  unfold State.startTest
  repeat' (with_reducible first | assumption | apply State.holdPort_canon | apply canon_ite | simp only [State.canon_mk] | split)

theorem State.stopTest_canon (s : State) (op : Nat) (sel : Nat) (h_s : s.Canonical) :
    (State.stopTest s op sel).Canonical := by
  unfold State.stopTest
  repeat' (with_reducible first | assumption | apply State.restorePort_canon | apply canon_ite | simp only [State.canon_mk] | split)

theorem State.timedTest_canon (s : State) (t : TrHdr) (op : Nat) (sel : Nat) (ok : Bool) (on : Bool) (h_s : s.Canonical) :
    (State.timedTest s t op sel ok on).Canonical := by
  unfold State.timedTest
  repeat' (with_reducible first | assumption | apply State.trReply_canon | apply State.startTest_canon | apply State.stopTest_canon | apply canon_ite | simp only [State.canon_mk] | split)

theorem State.discover_canon (s : State) (t : TrHdr) (h_s : s.Canonical) :
    (State.discover s t).Canonical := by
  unfold State.discover
  repeat' (with_reducible first | assumption | (intro _) | apply State.tailrace_canon | apply State.trReply_canon | apply canon_ite | simp only [State.canon_mk] | dsimp only | split)

theorem State.trCounters_canon (s : State) (t : TrHdr) (h_s : s.Canonical) :
    (State.trCounters s t).Canonical := by
  unfold State.trCounters
  repeat' (with_reducible first | assumption | (intro _) | apply State.tailrace_canon | apply State.trReply_canon | apply canon_ite | simp only [State.canon_mk] | dsimp only | split)

theorem State.macLoopback_canon (s : State) (t : TrHdr) (h_s : s.Canonical) :
    (State.macLoopback s t).Canonical := by
  unfold State.macLoopback
  repeat' (with_reducible first | assumption | (intro _) | apply State.tailrace_canon | apply State.timedTest_canon | apply canon_ite | simp only [State.canon_mk] | dsimp only | split)

theorem State.prbsGen_canon (s : State) (t : TrHdr) (h_s : s.Canonical) :
    (State.prbsGen s t).Canonical := by
  unfold State.prbsGen
  repeat' (with_reducible first | assumption | (intro _) | apply State.tailrace_canon | apply State.timedTest_canon | apply canon_ite | simp only [State.canon_mk] | dsimp only | split)

theorem State.prbsCheck_canon (s : State) (t : TrHdr) (bits : Word64) (errors : Word64) (h_s : s.Canonical) :
    (State.prbsCheck s t bits errors).Canonical := by
  unfold State.prbsCheck
  repeat' (with_reducible first | assumption | (intro _) | apply State.tailrace_canon | apply State.trReply_canon | apply State.startTest_canon | apply State.stopTest_canon | apply canon_ite | simp only [State.canon_mk] | dsimp only | split)

theorem State.eyeMargin_canon (s : State) (t : TrHdr) (eyes : List (BitVec 16 × BitVec 16)) (h_s : s.Canonical) :
    (State.eyeMargin s t eyes).Canonical := by
  unfold State.eyeMargin
  repeat' (with_reducible first | assumption | (intro _) | apply State.tailrace_canon | apply State.trReply_canon | apply canon_ite | simp only [State.canon_mk] | dsimp only | split)

theorem State.laneLoopback_canon (s : State) (t : TrHdr) (h_s : s.Canonical) :
    (State.laneLoopback s t).Canonical := by
  unfold State.laneLoopback
  repeat' (with_reducible first | assumption | (intro _) | apply State.tailrace_canon | apply State.timedTest_canon | apply canon_ite | simp only [State.canon_mk] | dsimp only | split)

theorem State.testExpiry_canon (s : State) (sel : Nat) (h_s : s.Canonical) :
    (State.testExpiry s sel).Canonical := by
  unfold State.testExpiry
  repeat' (with_reducible first | assumption | (intro _) | apply State.restorePort_canon | apply canon_ite | simp only [State.canon_mk] | dsimp only | split)

theorem State.trMemRead_canon (s : State) (t : TrHdr) (h_s : s.Canonical) :
    (State.trMemRead s t).Canonical := by
  unfold State.trMemRead
  repeat' (with_reducible first | assumption | (intro _) | apply State.tailrace_canon | apply State.wake_canon | apply State.millerRead_canon | apply State.trReply_canon | apply canon_ite | simp only [State.canon_mk] | dsimp only | split)

theorem State.trMemWrite_canon (s : State) (t : TrHdr) (payload : List Byte) (h_s : s.Canonical) :
    (State.trMemWrite s t payload).Canonical := by
  unfold State.trMemWrite
  repeat' (with_reducible first | assumption | (intro _) | apply State.tailrace_canon | apply State.wake_canon | apply State.pokes_canon | apply State.trReply_canon | apply canon_ite | simp only [State.canon_mk] | dsimp only | split)

theorem State.loader_canon (s : State) (t : TrHdr) (opcode : Nat) (run : State → State) (h_s : s.Canonical) (h_run : ∀ t, t.Canonical → (run t).Canonical) :
    (State.loader s t opcode run).Canonical := by
  unfold State.loader
  repeat' (with_reducible first | assumption | (intro _) | apply State.tailrace_canon | apply State.count_canon | apply State.trReply_canon | apply h_run | apply canon_ite | simp only [State.canon_mk] | dsimp only | split)

theorem State.fwBegin_canon (s : State) (t : TrHdr) (h_s : s.Canonical) :
    (State.fwBegin s t).Canonical := by
  unfold State.fwBegin
  repeat' (with_reducible first | assumption | (intro _) | apply State.loader_canon | apply State.trReply_canon | apply canon_ite | simp only [State.canon_mk] | dsimp only | split)

theorem State.fwData_canon (s : State) (t : TrHdr) (payload : List Byte) (h_s : s.Canonical) :
    (State.fwData s t payload).Canonical := by
  unfold State.fwData
  repeat' (with_reducible first | assumption | (intro _) | apply State.loader_canon | apply State.trReply_canon | apply State.pokes_canon | apply canon_ite | simp only [State.canon_mk] | dsimp only | split)

theorem State.fwCommitRun_canon (s : State) (t : TrHdr) (flashOk : Bool) (h_s : s.Canonical) :
    (State.fwCommitRun s t flashOk).Canonical := by
  unfold State.fwCommitRun
  repeat' (with_reducible first | assumption | (intro _) | apply State.millerRead_canon | apply State.fwEnd_canon | apply State.trReply_canon | apply canon_ite | apply canon_foldl | apply Out.canon_ite | apply Out.canon_andThen | apply Out.canon_mk_go | apply Out.canon_mk_stop | apply Out.canon_mk_wait | apply fst_canon_ite | apply canon_foldl_fst | apply Out.fst_canon_ite | apply Out.canon_foldl | apply KStep.canon_next | apply KStep.canon_wait | apply KStep.canon_stop | apply optCanon_some | apply optCanon_none | apply exceptCanon_ok | apply exceptCanon_error | simp only [State.canon_mk] | (apply Out.canon_go; assumption) | (apply Out.canon_stop; assumption) | (apply Except.canon_ok; assumption) | (apply opt_canon_some; assumption) | dsimp only | simp only [State.canon_iff] | apply And.intro | apply State.Canonical.mem | apply State.Canonical.syn | apply State.Canonical.kettle | apply State.Canonical.flash | apply NMap.wf_nil | apply NMap.wf_set | apply NMap.wf_clearRange | apply NMap.wf_foldl | apply flashWrite_wf | apply eraseFw_wf | apply programFw_wf | apply ordAppend_wf | split)

theorem State.fwCommit_canon (s : State) (t : TrHdr) (flashOk : Bool) (h_s : s.Canonical) :
    (State.fwCommit s t flashOk).Canonical := by
  unfold State.fwCommit
  repeat' (with_reducible first | assumption | (intro _) | apply State.loader_canon | apply State.fwCommitRun_canon | apply State.trReply_canon | apply canon_ite | simp only [State.canon_mk] | dsimp only | split)

theorem memReadRun_canon (payload : List Byte) (v : State) (h_v : v.Canonical) :
    (memReadRun payload v).st.Canonical := by
  unfold memReadRun
  repeat' (with_reducible first | assumption | apply State.wake_canon | apply answer_canon | apply State.millerRead_canon | apply LeatAns.mk3_canon | apply canon_ite | simp only [State.canon_mk] | split)

theorem State.memRead_canon (s : State) (h : LeatHdr) (payload : List Byte) (h_s : s.Canonical) :
    (State.memRead s h payload).Canonical := by
  unfold State.memRead
  repeat' (with_reducible first | assumption | apply State.request_canon | apply memReadRun_canon | apply canon_ite | simp only [State.canon_mk] | split)

theorem memWriteRun_canon (payload : List Byte) (v : State) (h_v : v.Canonical) :
    (memWriteRun payload v).st.Canonical := by
  unfold memWriteRun
  repeat' (with_reducible first | assumption | apply State.wake_canon | apply answer_canon | apply State.pokes_canon | apply canon_ite | simp only [State.canon_mk] | split)

theorem State.memWrite_canon (s : State) (h : LeatHdr) (payload : List Byte) (h_s : s.Canonical) :
    (State.memWrite s h payload).Canonical := by
  unfold State.memWrite
  repeat' (with_reducible first | assumption | apply State.request_canon | apply memWriteRun_canon | apply canon_ite | simp only [State.canon_mk] | split)

theorem setNetRun_canon (payload : List Byte) (s : State) (h_s : s.Canonical) :
    (setNetRun payload s).st.Canonical := by
  unfold setNetRun
  repeat' (with_reducible first | assumption | (intro _) | apply answer_canon | apply State.setPort_canon | apply State.dhcpStart_canon | apply canon_ite | apply canon_foldl | apply Out.canon_ite | apply Out.canon_andThen | apply Out.canon_mk_go | apply Out.canon_mk_stop | apply Out.canon_mk_wait | apply fst_canon_ite | apply canon_foldl_fst | apply Out.fst_canon_ite | apply Out.canon_foldl | apply KStep.canon_next | apply KStep.canon_wait | apply KStep.canon_stop | apply optCanon_some | apply optCanon_none | apply exceptCanon_ok | apply exceptCanon_error | simp only [State.canon_mk] | (apply Out.canon_go; assumption) | (apply Out.canon_stop; assumption) | (apply Except.canon_ok; assumption) | (apply opt_canon_some; assumption) | dsimp only | simp only [State.canon_iff] | apply And.intro | apply State.Canonical.mem | apply State.Canonical.syn | apply State.Canonical.kettle | apply State.Canonical.flash | apply NMap.wf_nil | apply NMap.wf_set | apply NMap.wf_clearRange | apply NMap.wf_foldl | apply flashWrite_wf | apply eraseFw_wf | apply programFw_wf | apply ordAppend_wf | split)

theorem State.setNet_canon (s : State) (h : LeatHdr) (payload : List Byte) (h_s : s.Canonical) :
    (State.setNet s h payload).Canonical := by
  unfold State.setNet
  repeat' (with_reducible first | assumption | apply State.request_canon | apply setNetRun_canon | apply canon_ite | simp only [State.canon_mk] | split)

/-! ### Smbus -/

theorem State.smbBlock_canon (s : State) (pec : Bool) (code : Byte) (bs : List Byte) (h_s : s.Canonical) :
    (State.smbBlock s pec code bs).Canonical := by
  unfold State.smbBlock
  repeat' (with_reducible first | assumption | apply State.emit_canon | apply canon_ite | simp only [State.canon_mk] | split)

theorem State.smbusStatusRead_canon (s : State) (pec : Bool) (h_s : s.Canonical) :
    (State.smbusStatusRead s pec).Canonical := by
  unfold State.smbusStatusRead
  repeat' (with_reducible first | assumption | apply State.emit_canon | apply canon_ite | simp only [State.canon_mk] | split)

theorem State.smbusRomRead_canon (s : State) (pec : Bool) (h_s : s.Canonical) :
    (State.smbusRomRead s pec).Canonical := by
  unfold State.smbusRomRead
  repeat' (with_reducible first | assumption | apply State.smbBlock_canon | apply canon_ite | simp only [State.canon_mk] | split)

theorem State.smbusTelemetryRead_canon (s : State) (pec : Bool) (h_s : s.Canonical) :
    (State.smbusTelemetryRead s pec).Canonical := by
  unfold State.smbusTelemetryRead
  repeat' (with_reducible first | assumption | apply State.smbBlock_canon | apply canon_ite | simp only [State.canon_mk] | split)

theorem State.smbusFruRead_canon (s : State) (code : Byte) (pec : Bool) (h_s : s.Canonical) :
    (State.smbusFruRead s code pec).Canonical := by
  unfold State.smbusFruRead
  repeat' (with_reducible first | assumption | apply State.smbBlock_canon | apply canon_ite | simp only [State.canon_mk] | split)

theorem State.smbusNack_canon (s : State) (code : Byte) (dataWritten : Bool) (h_s : s.Canonical) :
    (State.smbusNack s code dataWritten).Canonical := by
  unfold State.smbusNack
  repeat' (with_reducible first | assumption | apply State.emit_canon | apply canon_ite | simp only [State.canon_mk] | split)

theorem State.smbusTimeout_canon (s : State) (h_s : s.Canonical) :
    (State.smbusTimeout s).Canonical :=
  ⟨h_s.mem, h_s.syn, h_s.kettle, h_s.flash⟩

theorem State.telemetryRefresh_canon (s : State) (h_s : s.Canonical) :
    (State.telemetryRefresh s).Canonical := by
  unfold State.telemetryRefresh
  repeat' (with_reducible first | assumption | apply canon_ite | simp only [State.canon_mk] | split)

theorem State.loadTap_canon (s : State) (ir : Byte) (h_s : s.Canonical) :
    (State.loadTap s ir).Canonical :=
  ⟨h_s.mem, h_s.syn, h_s.kettle, h_s.flash⟩

theorem State.takePairs_canon (s : State) (h_s : s.Canonical) :
    (State.takePairs s).Canonical := by
  unfold State.takePairs
  repeat' (with_reducible first | assumption | (intro _) | apply State.portDown_canon | apply State.ethLost_canon | apply canon_ite | apply canon_foldl | simp only [State.canon_mk] | dsimp only | split)

theorem State.loadExtest_canon (s : State) (ir : Byte) (h_s : s.Canonical) :
    (State.loadExtest s ir).Canonical := by
  unfold State.loadExtest
  repeat' (with_reducible first | assumption | apply State.takePairs_canon | apply canon_ite | simp only [State.canon_mk] | split)

theorem State.tapIdcode_canon (s : State) (h_s : s.Canonical) :
    (State.tapIdcode s).Canonical := by
  unfold State.tapIdcode
  repeat' (with_reducible first | assumption | apply State.loadTap_canon | apply State.emit_canon | apply canon_ite | simp only [State.canon_mk] | split)

theorem State.samplePreload_canon (s : State) (pins : BitVec 205) (preload : BitVec 205) (h_s : s.Canonical) :
    (State.samplePreload s pins preload).Canonical := by
  unfold State.samplePreload
  repeat' (with_reducible first | assumption | apply State.loadTap_canon | apply State.emit_canon | apply canon_ite | simp only [State.canon_mk] | split)

theorem State.bypassWith_canon (s : State) (code : Byte) (h_s : s.Canonical) :
    (State.bypassWith s code).Canonical := by
  unfold State.bypassWith
  repeat' (with_reducible first | assumption | apply State.loadTap_canon | apply State.emit_canon | apply canon_ite | simp only [State.canon_mk] | split)

theorem State.bypass_canon (s : State) (code : Byte) (h_s : s.Canonical) :
    (State.bypass s code).Canonical := by
  unfold State.bypass
  repeat' (with_reducible first | assumption | apply State.bypassWith_canon | apply canon_ite | simp only [State.canon_mk] | split)

theorem State.privateTap_canon (s : State) (code : Byte) (run : State → State) (h_s : s.Canonical) (h_run : ∀ t, t.Canonical → (run t).Canonical) :
    (State.privateTap s code run).Canonical := by
  unfold State.privateTap
  repeat' (with_reducible first | assumption | apply State.bypassWith_canon | apply State.loadTap_canon | apply h_run | apply canon_ite | simp only [State.canon_mk] | split)

end Sys2Proof.Machine
end

