-- ==== Sys2Proof/Laws/CanonEngines.lean ====
section
/-! SUPPORT. Canonical maps: the engines of the data fabric keep the canonical form. -/
namespace Sys2Proof.Machine
set_option linter.unusedVariables false
set_option linter.unusedSimpArgs false

/-! ### Operands -/

theorem Out.atStep_canon (n : Nat) (o : Out) (h_o : o.Canon) :
    (Out.atStep n o).Canon := by
  unfold Out.atStep
  repeat' (with_reducible first | assumption | (intro _) | apply canon_ite | apply Out.canon_ite | apply Out.canon_andThen | apply Out.canon_mk_go | apply Out.canon_mk_stop | apply Out.canon_mk_wait | simp only [State.canon_mk] | (apply Out.canon_go; assumption) | (apply Out.canon_stop; assumption) | dsimp only | split)

theorem outOf_canon (before : State) (after : State) (h_before : before.Canonical) (h_after : after.Canonical) :
    (outOf before after).Canon := by
  unfold outOf
  repeat' (with_reducible first | assumption | (intro _) | apply canon_ite | apply Out.canon_ite | apply Out.canon_andThen | apply Out.canon_mk_go | apply Out.canon_mk_stop | apply Out.canon_mk_wait | simp only [State.canon_mk] | (apply Out.canon_go; assumption) | (apply Out.canon_stop; assumption) | dsimp only | split)

theorem State.countDenied_canon (s : State) (img : Image) (ag : Agent) (as : List Nat) (h_s : s.Canonical) :
    (State.countDenied s img ag as).Canonical := by
  unfold State.countDenied
  repeat' (with_reducible first | assumption | (intro _) | apply State.accessFault_canon | apply canon_ite | apply canon_foldl | simp only [State.canon_mk] | dsimp only | split)

theorem State.linkErrors_canon (s : State) (img : Image) (ag : Agent) (w : Bool) (group : Option Nat) (as : List Nat) (h_s : s.Canonical) :
    (State.linkErrors s img ag w group as).Canonical := by
  unfold State.linkErrors
  repeat' (with_reducible first | assumption | apply State.routerWords_canon | apply canon_ite | simp only [State.canon_mk] | split)

theorem State.fetch_canon (s : State) (img : Image) (ag : Agent) (group : Option Nat) (alloc : Bool) (as : List Nat) (h_s : s.Canonical) :
    (State.fetch s img ag group alloc as).Canon := by
  unfold State.fetch
  repeat' (with_reducible first | assumption | (intro _) | apply State.presentAll_canon | apply State.linkErrors_canon | apply State.countDenied_canon | apply State.verifyWords_canon | apply State.ueOutcome_canon | apply outOf_canon | apply State.cacheUse_canon | apply canon_ite | apply canon_foldl | apply Out.canon_ite | apply Out.canon_andThen | apply Out.canon_mk_go | apply Out.canon_mk_stop | apply Out.canon_mk_wait | simp only [State.canon_mk] | (apply Out.canon_go; assumption) | (apply Out.canon_stop; assumption) | dsimp only | split)

theorem State.putByte_canon (s : State) (img : Image) (ag : Agent) (p : Put) (i : Nat) (h_s : s.Canonical) :
    (State.putByte s img ag p i).Canonical := by
  unfold State.putByte
  repeat' (with_reducible first | assumption | apply State.poke_canon | apply canon_ite | simp only [State.canon_mk] | split)

theorem State.putOne_canon (s : State) (img : Image) (ag : Agent) (p : Put) (h_s : s.Canonical) :
    (State.putOne s img ag p).Canonical := by
  unfold State.putOne
  repeat' (with_reducible first | assumption | (intro _) | apply State.putByte_canon | apply canon_ite | apply canon_foldl | simp only [State.canon_mk] | dsimp only | split)

theorem State.deposit_canon (s : State) (img : Image) (ag : Agent) (group : Option Nat) (ps : List Put) (h_s : s.Canonical) :
    (State.deposit s img ag group ps).Canon := by
  unfold State.deposit
  repeat' (with_reducible first | assumption | (intro _) | apply State.presentAll_canon | apply State.seeBitmap_canon | apply State.linkErrors_canon | apply State.countDenied_canon | apply State.moved_canon | apply State.verifyWords_canon | apply outOf_canon | apply State.ueOutcome_canon | apply State.putOne_canon | apply canon_ite | apply canon_foldl | apply Out.canon_ite | apply Out.canon_andThen | apply Out.canon_mk_go | apply Out.canon_mk_stop | apply Out.canon_mk_wait | simp only [State.canon_mk] | (apply Out.canon_go; assumption) | (apply Out.canon_stop; assumption) | dsimp only | split)

theorem State.moved_canon (s : State) (h_s : s.Canonical) :
    (State.moved s).Canonical :=
  ⟨h_s.mem, h_s.syn, h_s.kettle, h_s.flash⟩

theorem State.raceDone_canon (s : State) (u : RaceUse) (h_s : s.Canonical) :
    (State.raceDone s u).Canonical := by
  unfold State.raceDone
  repeat' (with_reducible first | assumption | apply State.moved_canon | apply canon_ite | simp only [State.canon_mk] | split)

theorem State.shapeCounts_canon (s : State) (sh : NMap Nat) (l : Nat) (m : Nat) (vs : List View) (h_s : s.Canonical) :
    (State.shapeCounts s sh l m vs).Canonical := by
  unfold State.shapeCounts
  repeat' (with_reducible first | assumption | (intro _) | apply State.count_canon | apply State.raise_canon | apply canon_ite | apply canon_foldl | simp only [State.canon_mk] | dsimp only | split)

theorem State.countClamps_canon (s : State) (m : Nat) (v : View) (is : List Ix) (h_s : s.Canonical) :
    (State.countClamps s m v is).Canonical := by
  unfold State.countClamps
  repeat' (with_reducible first | assumption | (intro _) | apply State.countN_canon | apply canon_ite | apply canon_foldl | simp only [State.canon_mk] | dsimp only | split)

theorem State.countFaults_canon (s : State) (v : View) (n : Nat) (h_s : s.Canonical) :
    (State.countFaults s v n).Canonical := by
  unfold State.countFaults
  repeat' (with_reducible first | assumption | apply State.countN_canon | apply canon_ite | simp only [State.canon_mk] | split)

theorem State.countValues_canon (s : State) (v : View) (xs : List Full) (h_s : s.Canonical) :
    (State.countValues s v xs).Canonical := by
  unfold State.countValues
  repeat' (with_reducible first | assumption | (intro _) | apply State.countFaults_canon | apply canon_ite | simp only [State.canon_mk] | dsimp only | split)

theorem State.countFulls_canon (s : State) (v : View) (g : Nat) (xs : List Full) (h_s : s.Canonical) :
    (State.countFulls s v g xs).Canonical := by
  unfold State.countFulls
  repeat' (with_reducible first | assumption | (intro _) | apply State.countValues_canon | apply State.countN_canon | apply canon_ite | simp only [State.canon_mk] | dsimp only | split)

theorem State.beginConv_canon (s : State) (img : Image) (k : Nat) (hi : Nat) (v : View) (h_s : s.Canonical) :
    (State.beginConv s img k hi v).1.Canonical := by
  unfold State.beginConv
  repeat' (with_reducible first | assumption | apply State.count_canon | apply canon_ite | apply fst_canon_ite | apply canon_foldl_fst | simp only [State.canon_mk] | split)

theorem State.recordConv_canon (s : State) (v : View) (r : Stored) (h_s : s.Canonical) :
    (State.recordConv s v r).Canonical := by
  unfold State.recordConv
  repeat' (with_reducible first | assumption | apply State.countN_canon | apply canon_ite | simp only [State.canon_mk] | split)

theorem State.countSplit_canon (s : State) (a : Nat) (h_s : s.Canonical) :
    (State.countSplit s a).Canonical := by
  unfold State.countSplit
  repeat' (with_reducible first | assumption | apply State.count_canon | apply canon_ite | simp only [State.canon_mk] | split)

theorem State.countRuns_canon (s : State) (img : Image) (ag : Agent) (v : View) (is : List Ix) (h_s : s.Canonical) :
    (State.countRuns s img ag v is).Canonical := by
  unfold State.countRuns
  repeat' (with_reducible first | assumption | (intro _) | apply State.countSplit_canon | apply canon_ite | apply canon_foldl | simp only [State.canon_mk] | dsimp only | split)

theorem State.readElems_canon (s : State) (img : Image) (ag : Agent) (v : View) (is : List Ix) (h_s : s.Canonical) :
    (State.readElems s img ag v is).Canon := by
  unfold State.readElems
  repeat' (with_reducible first | assumption | (intro _) | apply State.countRuns_canon | apply State.fetch_canon | apply canon_ite | apply Out.canon_ite | apply Out.canon_andThen | apply Out.canon_mk_go | apply Out.canon_mk_stop | apply Out.canon_mk_wait | simp only [State.canon_mk] | (apply Out.canon_go; assumption) | (apply Out.canon_stop; assumption) | dsimp only | split)

theorem State.storeItems_canon (s : State) (img : Image) (ag : Agent) (v : View) (xs : List (Item × Ix)) (h_s : s.Canonical) :
    (State.storeItems s img ag v xs).Canon := by
  unfold State.storeItems
  repeat' (with_reducible first | assumption | (intro _) | apply State.recordConv_canon | apply State.countRuns_canon | apply State.deposit_canon | apply canon_ite | apply Out.canon_ite | apply Out.canon_andThen | apply Out.canon_mk_go | apply Out.canon_mk_stop | apply Out.canon_mk_wait | simp only [State.canon_mk] | (apply Out.canon_go; assumption) | (apply Out.canon_stop; assumption) | dsimp only | split)

theorem State.storeCodes_canon (s : State) (img : Image) (ag : Agent) (v : View) (xs : List (Ix × Ix × Nat × Nat)) (h_s : s.Canonical) :
    (State.storeCodes s img ag v xs).Canon := by
  unfold State.storeCodes
  repeat' (with_reducible first | assumption | (intro _) | apply State.countFaults_canon | apply State.countRuns_canon | apply State.deposit_canon | apply canon_ite | apply Out.canon_ite | apply Out.canon_andThen | apply Out.canon_mk_go | apply Out.canon_mk_stop | apply Out.canon_mk_wait | simp only [State.canon_mk] | (apply Out.canon_go; assumption) | (apply Out.canon_stop; assumption) | dsimp only | split)

theorem State.moveInto_canon (s : State) (img : Image) (ag : Agent) (vs : View) (vd : View) (same : Bool) (dr : Option Draws) (ms : List Move) (h_s : s.Canonical) :
    (State.moveInto s img ag vs vd same dr ms).Canon := by
  unfold State.moveInto
  repeat' (with_reducible first | assumption | (intro _) | apply State.countFaults_canon | apply State.storeCodes_canon | apply State.countFulls_canon | apply State.storeItems_canon | apply canon_ite | apply Out.canon_ite | apply Out.canon_andThen | apply Out.canon_mk_go | apply Out.canon_mk_stop | apply Out.canon_mk_wait | simp only [State.canon_mk] | (apply Out.canon_go; assumption) | (apply Out.canon_stop; assumption) | dsimp only | split)

/-! ### Weir -/

theorem State.withdrawMb_canon (s : State) (img : Image) (b : Nat) (h_s : s.Canonical) :
    (State.withdrawMb s img b).Canonical := by
  unfold State.withdrawMb
  repeat' (with_reducible first | assumption | (intro _) | apply State.count_canon | apply State.poke_canon | apply canon_ite | apply canon_foldl | simp only [State.canon_mk] | dsimp only | split)

theorem State.startBackward_canon (s : State) (img : Image) (h_s : s.Canonical) :
    (State.startBackward s img).Canonical :=
  ⟨h_s.mem, h_s.syn, h_s.kettle, h_s.flash⟩

theorem State.forwardGate_canon (s : State) (img : Image) (h_s : s.Canonical) :
    (State.forwardGate s img).Canonical := by
  unfold State.forwardGate
  repeat' (with_reducible first | assumption | (intro _) | apply State.poke_canon | apply State.count_canon | apply State.withdrawMb_canon | apply State.startBackward_canon | apply canon_ite | apply canon_foldl | simp only [State.canon_mk] | dsimp only | split)

theorem State.wheelCounted_canon (s : State) (img : Image) (e : Nat) (h_s : s.Canonical) :
    (State.wheelCounted s img e).Canonical := by
  unfold State.wheelCounted
  repeat' (with_reducible first | assumption | apply canon_ite | simp only [State.canon_mk] | split)

theorem State.weirClosed_canon (s : State) (img : Image) (e : Nat) (h_s : s.Canonical) :
    (State.weirClosed s img e).Canonical := by
  unfold State.weirClosed
  repeat' (with_reducible first | assumption | apply State.forwardGate_canon | apply State.wheelCounted_canon | apply canon_ite | simp only [State.canon_mk] | split)

theorem State.weirFill_canon (s : State) (img : Image) (e : Nat) (x4 : Nat) (h_s : s.Canonical) :
    (State.weirFill s img e x4).Canonical := by
  fun_induction State.weirFill s img e x4
  all_goals repeat' (with_reducible first | assumption | (intro _) | (apply_assumption) | apply State.moved_canon | apply State.weirClosed_canon | apply canon_ite | simp only [State.canon_mk] | split)

theorem State.weirFault_canon (s : State) (phys : Nat) (part : Nat) (h_s : s.Canonical) :
    (State.weirFault s phys part).Canonical := by
  unfold State.weirFault
  repeat' (with_reducible first | assumption | apply State.count_canon | apply State.ownerReset_canon | apply State.endJob_canon | apply canon_ite | simp only [State.canon_mk] | split)

theorem State.weirEnter_canon (s : State) (img : Image) (e : Nat) (i : Nat) (wait : Bool) (h_s : s.Canonical) :
    (State.weirEnter s img e i wait).Canonical := by
  unfold State.weirEnter
  repeat' (with_reducible first | assumption | (intro _) | apply State.count_canon | apply State.weirFault_canon | apply State.moved_canon | apply State.weirFill_canon | apply canon_ite | simp only [State.canon_mk] | dsimp only | split)

theorem State.takeRelease_canon (s : State) (img : Image) (e : Nat) (owner : Nat) (kind : Nat) (h_s : s.Canonical) :
    (State.takeRelease s img e owner kind).Canonical := by
  unfold State.takeRelease
  repeat' (with_reducible first | assumption | (intro _) | apply canon_ite | simp only [State.canon_mk] | dsimp only | split)

theorem State.wheelLeave_canon (s : State) (img : Image) (vid : Nat) (h_s : s.Canonical) :
    (State.wheelLeave s img vid).Canonical := by
  unfold State.wheelLeave
  repeat' (with_reducible first | assumption | (intro _) | apply canon_ite | simp only [State.canon_mk] | dsimp only | split)

theorem State.wheelEnter_canon (s : State) (img : Image) (vid : Nat) (wait : Bool) (h_s : s.Canonical) :
    (State.wheelEnter s img vid wait).Canonical := by
  unfold State.wheelEnter
  repeat' (with_reducible first | assumption | apply State.weirEnter_canon | apply canon_ite | simp only [State.canon_mk] | split)

theorem State.wheelTake_canon (s : State) (img : Image) (vid : Nat) (h_s : s.Canonical) :
    (State.wheelTake s img vid).Canonical := by
  unfold State.wheelTake
  repeat' (with_reducible first | assumption | apply State.takeRelease_canon | apply canon_ite | simp only [State.canon_mk] | split)

/-! ### Streams -/

theorem State.advance_canon (s : State) (k : Nat) (h_s : s.Canonical) :
    (State.advance s k).Canonical := by
  unfold State.advance
  repeat' (with_reducible first | assumption | apply State.setStream_canon | apply canon_ite | simp only [State.canon_mk] | split)

theorem State.blockOn_canon (s : State) (e : Issue) (u : RaceUse) (h_s : s.Canonical) :
    (State.blockOn s e u).Canonical := by
  unfold State.blockOn
  repeat' (with_reducible first | assumption | apply State.setStream_canon | apply canon_ite | simp only [State.canon_mk] | split)

theorem State.keepShapes_canon (s : State) (e : Issue) (h_s : s.Canonical) :
    (State.keepShapes s e).Canonical := by
  unfold State.keepShapes
  repeat' (with_reducible first | assumption | apply State.setStream_canon | apply canon_ite | simp only [State.canon_mk] | split)

theorem State.engineBusy_canon (s : State) (e : Issue) (step : Option Nat) (h_s : s.Canonical) :
    (State.engineBusy s e step).Canonical := by
  unfold State.engineBusy
  repeat' (with_reducible first | assumption | apply canon_ite | simp only [State.canon_mk] | split)

theorem State.presentPlan_canon (s : State) (img : Image) (p : Plan) (h_s : s.Canonical) :
    (State.presentPlan s img p).Canonical := by
  unfold State.presentPlan
  repeat' (with_reducible first | assumption | (intro _) | apply State.present_canon | apply State.presentAll_canon | apply canon_ite | apply canon_foldl | simp only [State.canon_mk] | dsimp only | split)

theorem State.replan_canon (s : State) (t : State) (img : Image) (k : Nat) (ps : List Plan) (h_s : s.Canonical) (h_t : t.Canonical) :
    (State.replan s t img k ps).Canonical := by
  unfold State.replan
  repeat' (with_reducible first | assumption | (intro _) | apply State.presentPlan_canon | apply State.presentRun_canon | apply canon_ite | apply canon_foldl | simp only [State.canon_mk] | dsimp only | split)

theorem State.waitAtPort_canon (s : State) (e : Issue) (p : Nat × Nat) (h_s : s.Canonical) :
    (State.waitAtPort s e p).Canonical := by
  unfold State.waitAtPort
  repeat' (with_reducible first | assumption | apply State.setStream_canon | apply canon_ite | simp only [State.canon_mk] | split)

theorem State.engineDone_canon (s : State) (e : Issue) (us : List RaceUse) (h_s : s.Canonical) :
    (State.engineDone s e us).Canonical := by
  unfold State.engineDone
  repeat' (with_reducible first | assumption | (intro _) | apply State.raceDone_canon | apply State.engineBusy_canon | apply State.advance_canon | apply canon_ite | apply canon_foldl | simp only [State.canon_mk] | dsimp only | split)

theorem State.planned_canon (s : State) (e : Issue) (drain : Bool) (fields : List Nat) (plan : Option (List Plan)) (body : State → Out) (h_s : s.Canonical) (h_body : ∀ t, t.Canonical → (body t).Canon) :
    (State.planned s e drain fields plan body).Canonical := by
  unfold State.planned
  repeat' (with_reducible first | assumption | (intro _) | apply State.engineBusy_canon | apply State.blockOn_canon | apply State.keepShapes_canon | apply State.touch_canon | apply State.replan_canon | apply State.waitAtPort_canon | apply State.engineDone_canon | apply h_body | apply canon_ite | apply canon_foldl | apply Out.canon_ite | apply Out.canon_andThen | apply Out.canon_mk_go | apply Out.canon_mk_stop | apply Out.canon_mk_wait | apply fst_canon_ite | apply canon_foldl_fst | apply Out.fst_canon_ite | apply Out.canon_foldl | simp only [State.canon_mk] | (apply Out.canon_go; assumption) | (apply Out.canon_stop; assumption) | dsimp only | split)

theorem State.engine_canon (s : State) (e : Issue) (drain : Bool) (fields : List Nat) (body : State → Out) (h_s : s.Canonical) (h_body : ∀ t, t.Canonical → (body t).Canon) :
    (State.engine s e drain fields body).Canonical := by
  unfold State.engine
  repeat' (with_reducible first | assumption | apply State.planned_canon | apply h_body | apply canon_ite | simp only [State.canon_mk] | split)

theorem State.beginLoop_canon (s : State) (e : Issue) (h_s : s.Canonical) :
    (State.beginLoop s e).Canonical := by
  unfold State.beginLoop
  repeat' (with_reducible first | assumption | apply State.setStream_canon | apply canon_ite | simp only [State.canon_mk] | split)

theorem State.turnPass_canon (s : State) (e : Issue) (h_s : s.Canonical) :
    (State.turnPass s e).Canonical := by
  unfold State.turnPass
  repeat' (with_reducible first | assumption | apply State.presentRun_canon | apply State.waitAtPort_canon | apply State.advance_canon | apply canon_ite | simp only [State.canon_mk] | split)

theorem State.setShape_canon (s : State) (l : Nat) (r : Nat) (v : Nat) (h_s : s.Canonical) :
    (State.setShape s l r v).Canonical :=
  ⟨h_s.mem, h_s.syn, h_s.kettle, h_s.flash⟩

theorem State.setPortPos_canon (s : State) (n : Nat) (p : PortPos) (h_s : s.Canonical) :
    (State.setPortPos s n p).Canonical :=
  ⟨h_s.mem, h_s.syn, h_s.kettle, h_s.flash⟩

theorem State.padPort_canon (s : State) (img : Image) (n : Nat) (hs : List Nat) (h_s : s.Canonical) :
    (State.padPort s img n hs).Canonical := by
  unfold State.padPort
  repeat' (with_reducible first | assumption | apply State.setPortPos_canon | apply canon_ite | simp only [State.canon_mk] | split)

theorem State.padStream_canon (s : State) (img : Image) (owner : Nat) (kind : Nat) (h_s : s.Canonical) :
    (State.padStream s img owner kind).Canonical := by
  unfold State.padStream
  repeat' (with_reducible first | assumption | (intro _) | apply State.padPort_canon | apply canon_ite | apply canon_foldl | simp only [State.canon_mk] | dsimp only | split)

theorem State.sendMarkers_canon (s : State) (e : Issue) (h_s : s.Canonical) :
    (State.sendMarkers s e).Canonical := by
  unfold State.sendMarkers
  repeat' (with_reducible first | assumption | (intro _) | apply State.present_canon | apply canon_ite | apply canon_foldl | simp only [State.canon_mk] | dsimp only | split)

theorem State.stepEndStream_canon (s : State) (e : Issue) (h_s : s.Canonical) :
    (State.stepEndStream s e).Canonical := by
  unfold State.stepEndStream
  repeat' (with_reducible first | assumption | apply State.setStream_canon | apply State.sendMarkers_canon | apply State.padStream_canon | apply canon_ite | simp only [State.canon_mk] | split)

theorem State.enterWeir_canon (s : State) (e : Issue) (h_s : s.Canonical) :
    (State.enterWeir s e).Canonical := by
  unfold State.enterWeir
  repeat' (with_reducible first | assumption | apply State.setStream_canon | apply State.weirEnter_canon | apply State.touch_canon | apply canon_ite | simp only [State.canon_mk] | split)

theorem State.releaseStream_canon (s : State) (img : Image) (owner : Nat) (kind : Nat) (w : Nat) (h_s : s.Canonical) :
    (State.releaseStream s img owner kind w).Canonical := by
  unfold State.releaseStream
  repeat' (with_reducible first | assumption | apply State.takeRelease_canon | apply State.setStream_canon | apply State.stopLending_canon | apply canon_ite | simp only [State.canon_mk] | split)

theorem State.unblock_canon (s : State) (img : Image) (k : Nat) (key : Nat) (prod : Bool) (h_s : s.Canonical) :
    (State.unblock s img k key prod).Canonical := by
  unfold State.unblock
  repeat' (with_reducible first | assumption | apply State.setStream_canon | apply canon_ite | simp only [State.canon_mk] | split)

/-! ### Hopper -/

theorem State.setBank_canon (s : State) (m : Nat) (b : Nat) (x : Bank) (h_s : s.Canonical) :
    (State.setBank s m b x).Canonical :=
  ⟨h_s.mem, h_s.syn, h_s.kettle, h_s.flash⟩

theorem State.zeroBank_canon (s : State) (m : Nat) (b : Nat) (h_s : s.Canonical) :
    (State.zeroBank s m b).Canonical := by
  unfold State.zeroBank
  repeat' (with_reducible first | assumption | apply State.zeroRange_canon | apply canon_ite | simp only [State.canon_mk] | split)

theorem State.bankOp_canon (s : State) (l : Nat) (b : Nat) (f : Bank → Bank) (h_s : s.Canonical) :
    (State.bankOp s l b f).Canonical := by
  unfold State.bankOp
  repeat' (with_reducible first | assumption | apply State.setBank_canon | apply canon_ite | simp only [State.canon_mk] | split)

theorem State.banksBeat_canon (s : State) (m : Nat) (h_s : s.Canonical) :
    (State.banksBeat s m).Canonical :=
  ⟨h_s.mem, h_s.syn, h_s.kettle, h_s.flash⟩

theorem State.cas_canon (s : State) (img : Image) (ag : Agent) (group : Option Nat) (m : Nat) (a : Nat) (expected : Nat) (new : Nat) (h_s : s.Canonical) :
    (State.cas s img ag group m a expected new).1.Canon := by
  unfold State.cas
  repeat' (with_reducible first | assumption | (intro _) | apply State.fetch_canon | apply State.deposit_canon | apply State.count_canon | apply canon_ite | apply Out.canon_ite | apply Out.canon_andThen | apply Out.canon_mk_go | apply Out.canon_mk_stop | apply Out.canon_mk_wait | apply fst_canon_ite | apply canon_foldl_fst | apply Out.fst_canon_ite | apply Out.canon_foldl | simp only [State.canon_mk] | (apply Out.canon_go; assumption) | (apply Out.canon_stop; assumption) | dsimp only | split)

theorem State.countEq_canon (s : State) (img : Image) (ag : Agent) (group : Option Nat) (a : Nat) (width : Nat) (value : Nat) (h_s : s.Canonical) :
    (State.countEq s img ag group a width value).1.Canon := by
  unfold State.countEq
  repeat' (with_reducible first | assumption | (intro _) | apply State.fetch_canon | apply canon_ite | apply Out.canon_ite | apply Out.canon_andThen | apply Out.canon_mk_go | apply Out.canon_mk_stop | apply Out.canon_mk_wait | apply fst_canon_ite | apply canon_foldl_fst | apply Out.fst_canon_ite | apply Out.canon_foldl | simp only [State.canon_mk] | (apply Out.canon_go; assumption) | (apply Out.canon_stop; assumption) | dsimp only | split)

theorem State.settleOut_canon (s : State) (o : Out) (h_s : s.Canonical) (h_o : o.Canon) : (State.settleOut s o).Canonical := by
  cases o with
  | go t => exact h_o.go t rfl
  | wait ps => exact State.touch_canon s ps h_s
  | stop t => exact h_o.stop t rfl

theorem State.countRows_canon (s : State) (m : Nat) (nar : List Access) (xs : List Access) (h_s : s.Canonical) :
    (State.countRows s m nar xs).Canonical := by
  unfold State.countRows
  repeat' (with_reducible first | assumption | (intro _) | apply State.count_canon | apply State.countN_canon | apply canon_ite | simp only [State.canon_mk] | dsimp only | split)

theorem State.turnReads_canon (s : State) (img : Image) (m : Nat) (ag : Nat → Agent) (x5 : List Turn) (h_s : s.Canonical) :
    (State.turnReads s img m ag x5).Canon := by
  fun_induction State.turnReads s img m ag x5
  all_goals repeat' (with_reducible first | assumption | (intro _) | (apply_assumption) | (intro _) | apply State.fetch_canon | apply State.emit_canon | apply State.countEq_canon | apply canon_ite | apply Out.canon_ite | apply Out.canon_andThen | apply Out.canon_mk_go | apply Out.canon_mk_stop | apply Out.canon_mk_wait | simp only [State.canon_mk] | (apply Out.canon_go; assumption) | (apply Out.canon_stop; assumption) | dsimp only | split)

theorem State.turnWrites_canon (s : State) (img : Image) (m : Nat) (ag : Nat → Agent) (x5 : List Turn) (h_s : s.Canonical) :
    (State.turnWrites s img m ag x5).Canon := by
  fun_induction State.turnWrites s img m ag x5
  all_goals repeat' (with_reducible first | assumption | (intro _) | (apply_assumption) | (intro _) | apply State.deposit_canon | apply State.cas_canon | apply State.emit_canon | apply canon_ite | apply Out.canon_ite | apply Out.canon_andThen | apply Out.canon_mk_go | apply Out.canon_mk_stop | apply Out.canon_mk_wait | simp only [State.canon_mk] | (apply Out.canon_go; assumption) | (apply Out.canon_stop; assumption) | dsimp only | split)

theorem State.turnRaces_canon (ts : List Turn) : ∀ s : State, s.Canonical → (State.turnRaces s ts).Canonical := by
  induction ts with
  | nil => exact fun s h => h
  | cons t ts ih =>
    intro s h
    unfold State.turnRaces
    split
    · exact ih _ h
    · split
      · exact ih _ h
      · split
        · exact ih _ (State.raceDone_canon _ _ h)
        · exact ih _ ⟨h.mem, h.syn, h.kettle, h.flash⟩

theorem State.turnStall_canon (s : State) (m : Nat) (t : Turn) (h_s : s.Canonical) :
    (State.turnStall s m t).Canonical := by
  unfold State.turnStall
  repeat' (with_reducible first | assumption | apply State.count_canon | apply canon_ite | simp only [State.canon_mk] | split)

theorem State.stepPort_canon (s : State) (r : PortRec) (any : Bool) (h_s : s.Canonical) :
    (State.stepPort s r any).Canonical := by
  unfold State.stepPort
  repeat' (with_reducible first | assumption | apply State.settle_canon | apply State.setPortPos_canon | apply State.moved_canon | apply canon_ite | simp only [State.canon_mk] | split)

theorem State.beatTurns_canon (f : State) (img : Image) (m : Nat) (ag : Nat → Agent) (xs : List Turn) (h_f : f.Canonical) :
    (State.beatTurns f img m ag xs).Canon := by
  unfold State.beatTurns
  repeat' (with_reducible first | assumption | (intro _) | apply State.turnStall_canon | apply State.turnReads_canon | apply State.turnWrites_canon | apply canon_ite | apply canon_foldl | apply Out.canon_ite | apply Out.canon_andThen | apply Out.canon_mk_go | apply Out.canon_mk_stop | apply Out.canon_mk_wait | simp only [State.canon_mk] | (apply Out.canon_go; assumption) | (apply Out.canon_stop; assumption) | dsimp only | split)

theorem State.endEntry_canon (u : State) (r : PortRec) (m : Nat) (nar : Option PortRec) (ns : List Turn) (ts : List Turn) (took : Bool) (h_u : u.Canonical) :
    (State.endEntry u r m nar ns ts took).Canonical := by
  unfold State.endEntry
  repeat' (with_reducible first | assumption | (intro _) | apply State.countRows_canon | apply State.turnRaces_canon | apply State.stepPort_canon | apply State.banksBeat_canon | apply canon_ite | simp only [State.canon_mk] | dsimp only | split)

theorem State.fillLane_canon (s : State) (img : Image) (r : PortRec) (padded : List Nat) (pres : List Pres) (lanes : List (Nat × Nat))
    (lh : Nat × Nat) (h : s.Canonical) : ∀ x, s.fillLane img r padded pres lanes lh = some x → x.1.Canonical := by
  intro x hx
  unfold State.fillLane at hx
  dsimp only at hx
  split at hx
  · cases hx; exact h
  · split at hx
    · cases hx; exact ⟨h.mem, h.syn, h.kettle, h.flash⟩
    · split at hx
      · cases hx; exact h
      · split at hx
        · cases hx; exact State.count_canon _ _ h
        · cases hx

theorem State.fillLanes_canon (img : Image) (r : PortRec) (padded : List Nat) (pres : List Pres) (lanes ls : List (Nat × Nat)) :
    ∀ s : State, s.Canonical → ∀ x, s.fillLanes img r padded pres lanes ls = .ok x → x.1.Canonical := by
  induction ls with
  | nil => intro s h x hx; cases hx; exact h
  | cons l ls ih =>
    intro s h x hx
    unfold State.fillLanes at hx
    split at hx
    · cases hx
    · rename_i t a ht
      have hc := State.fillLane_canon _ _ _ _ _ _ _ h _ ht
      split at hx
      · cases hx
      · rename_i u b hu
        cases hx
        exact ih t hc (u, b) hu

theorem State.runEntry_canon (s : State) (img : Image) (r : PortRec) (ps : List Pres) (h_s : s.Canonical) :
    (State.runEntry s img r ps).Canonical := by
  unfold State.runEntry
  dsimp only
  split
  · exact State.setPortPos_canon _ _ _ h_s
  · rename_i f took hf
    have ho := fun m ag xs => State.beatTurns_canon f img m ag xs (State.fillLanes_canon _ _ _ _ _ _ _ h_s _ hf)
    split
    · exact State.setPortPos_canon _ _ _ (State.touch_canon _ _ h_s)
    · exact Out.canon_stop ‹_› (ho _ _ _)
    · rename_i u hu
      have hc : u.Canonical := Out.canon_go hu (ho _ _ _)
      exact State.endEntry_canon _ _ _ _ _ _ _ ⟨hc.mem, hc.syn, hc.kettle, hc.flash⟩


/-! ### Stone -/

theorem State.kettleWrite_canon (s : State) (m : Nat) (sideB : Bool) (slot : Nat) (v : NMap Nat) (h_s : s.Canonical) :
    (State.kettleWrite s m sideB slot v).Canonical := by
  unfold State.kettleWrite
  repeat' (with_reducible first | assumption | (intro _) | apply canon_ite | apply canon_foldl | apply Out.canon_ite | apply Out.canon_andThen | apply Out.canon_mk_go | apply Out.canon_mk_stop | apply Out.canon_mk_wait | apply fst_canon_ite | apply canon_foldl_fst | apply Out.fst_canon_ite | apply Out.canon_foldl | apply KStep.canon_next | apply KStep.canon_wait | apply KStep.canon_stop | apply optCanon_some | apply optCanon_none | apply exceptCanon_ok | apply exceptCanon_error | simp only [State.canon_mk] | (apply Out.canon_go; assumption) | (apply Out.canon_stop; assumption) | (apply Except.canon_ok; assumption) | (apply opt_canon_some; assumption) | dsimp only | simp only [State.canon_iff] | apply And.intro | apply State.Canonical.mem | apply State.Canonical.syn | apply State.Canonical.kettle | apply State.Canonical.flash | apply NMap.wf_nil | apply NMap.wf_set | apply NMap.wf_clearRange | apply NMap.wf_foldl | apply flashWrite_wf | apply eraseFw_wf | apply programFw_wf | apply ordAppend_wf | split)

theorem State.kettleVerify_canon (s : State) (m : Nat) (q : Nat) (h_s : s.Canonical) :
    (State.kettleVerify s m q).1.Canonical := by
  unfold State.kettleVerify
  repeat' (with_reducible first | assumption | (intro _) | apply State.count_canon | apply State.logUe_canon | apply canon_ite | apply canon_foldl | apply Out.canon_ite | apply Out.canon_andThen | apply Out.canon_mk_go | apply Out.canon_mk_stop | apply Out.canon_mk_wait | apply fst_canon_ite | apply canon_foldl_fst | apply Out.fst_canon_ite | apply Out.canon_foldl | apply KStep.canon_next | apply KStep.canon_wait | apply KStep.canon_stop | apply optCanon_some | apply optCanon_none | apply exceptCanon_ok | apply exceptCanon_error | simp only [State.canon_mk] | (apply Out.canon_go; assumption) | (apply Out.canon_stop; assumption) | (apply Except.canon_ok; assumption) | (apply opt_canon_some; assumption) | dsimp only | simp only [State.canon_iff] | apply And.intro | apply State.Canonical.mem | apply State.Canonical.syn | apply State.Canonical.kettle | apply State.Canonical.flash | apply NMap.wf_nil | apply NMap.wf_set | apply NMap.wf_clearRange | apply NMap.wf_foldl | apply flashWrite_wf | apply eraseFw_wf | apply programFw_wf | apply ordAppend_wf | split)

theorem State.kettleRead_canon (s : State) (m : Nat) (sideB : Bool) (slot : Nat) (group : Option Nat) (h_s : s.Canonical) :
    (State.kettleRead s m sideB slot group).Canon := by
  unfold State.kettleRead
  repeat' (with_reducible first | assumption | (intro _) | apply State.kettleVerify_canon | apply outOf_canon | apply State.millError_canon | apply State.classOutcome_canon | apply canon_ite | apply canon_foldl | apply Out.canon_ite | apply Out.canon_andThen | apply Out.canon_mk_go | apply Out.canon_mk_stop | apply Out.canon_mk_wait | apply fst_canon_ite | apply canon_foldl_fst | simp only [State.canon_mk] | (apply Out.canon_go; assumption) | (apply Out.canon_stop; assumption) | dsimp only | split)

theorem State.flushTile_canon (s : State) (m : Nat) (k : Nat) (sideB : Bool) (h_s : s.Canonical) :
    (State.flushTile s m k sideB).Canonical := by
  unfold State.flushTile
  repeat' (with_reducible first | assumption | apply State.kettleWrite_canon | apply canon_ite | simp only [State.canon_mk] | split)

theorem State.switchTo_canon (s : State) (m : Nat) (k : Nat) (sideB : Bool) (tag : Nat) (h_s : s.Canonical) :
    (State.switchTo s m k sideB tag).Canon := by
  unfold State.switchTo
  repeat' (with_reducible first | assumption | (intro _) | apply State.flushTile_canon | apply State.setStream_canon | apply State.kettleRead_canon | apply canon_ite | apply Out.canon_ite | apply Out.canon_andThen | apply Out.canon_mk_go | apply Out.canon_mk_stop | apply Out.canon_mk_wait | simp only [State.canon_mk] | (apply Out.canon_go; assumption) | (apply Out.canon_stop; assumption) | dsimp only | split)

theorem State.fetchMasks_canon (s : State) (e : Issue) (mv : View) (rows : Nat) (h_s : s.Canonical) :
    (State.fetchMasks s e mv rows).Canon := by
  unfold State.fetchMasks
  repeat' (with_reducible first | assumption | (intro _) | apply State.countN_canon | apply State.fetch_canon | apply canon_ite | apply Out.canon_ite | apply Out.canon_andThen | apply Out.canon_mk_go | apply Out.canon_mk_stop | apply Out.canon_mk_wait | simp only [State.canon_mk] | (apply Out.canon_go; assumption) | (apply Out.canon_stop; assumption) | dsimp only | split)

theorem State.passWork_canon (s : State) (e : Issue) (p : PassOp) (va : View) (vb : View) (ks : List KPos) (ca : List (List Slot)) (cb : List (List Slot)) (h_s : s.Canonical) :
    (State.passWork s e p va vb ks ca cb).Canonical := by
  unfold State.passWork
  repeat' (with_reducible first | assumption | (intro _) | apply State.setStream_canon | apply State.countN_canon | apply canon_ite | simp only [State.canon_mk] | dsimp only | split)

theorem State.passReads_canon (s : State) (e : Issue) (v : View) (is : List Ix) (h_s : s.Canonical) :
    (State.passReads s e v is).Canon := by
  unfold State.passReads
  repeat' (with_reducible first | assumption | (intro _) | apply State.countClamps_canon | apply State.readElems_canon | apply canon_ite | apply Out.canon_ite | apply Out.canon_andThen | apply Out.canon_mk_go | apply Out.canon_mk_stop | apply Out.canon_mk_wait | simp only [State.canon_mk] | (apply Out.canon_go; assumption) | (apply Out.canon_stop; assumption) | dsimp only | split)

theorem State.passFetch_canon (s : State) (e : Issue) (r : PassRun) (pn : Option Panel) (ra : SideRun) (rb : SideRun) (h_s : s.Canonical) :
    (State.passFetch s e r pn ra rb).Canon := by
  unfold State.passFetch
  repeat' (with_reducible first | assumption | (intro _) | apply State.passReads_canon | apply State.fetchMasks_canon | apply canon_ite | apply Out.canon_ite | apply Out.canon_andThen | apply Out.canon_mk_go | apply Out.canon_mk_stop | apply Out.canon_mk_wait | simp only [State.canon_mk] | (apply Out.canon_go; assumption) | (apply Out.canon_stop; assumption) | dsimp only | split)

theorem State.passBody_canon (s : State) (e : Issue) (h_s : s.Canonical) :
    (State.passBody s e).Canon := by
  unfold State.passBody
  repeat' (with_reducible first | assumption | (intro _) | apply State.shapeCounts_canon | apply State.passFetch_canon | apply State.count_canon | apply State.countFaults_canon | apply State.switchTo_canon | apply State.setStream_canon | apply State.passWork_canon | apply State.countN_canon | apply canon_ite | apply canon_foldl | apply Out.canon_ite | apply Out.canon_andThen | apply Out.canon_mk_go | apply Out.canon_mk_stop | apply Out.canon_mk_wait | simp only [State.canon_mk] | (apply Out.canon_go; assumption) | (apply Out.canon_stop; assumption) | dsimp only | split)

theorem State.drainInto_canon (s : State) (e : Issue) (ag : Agent) (k : Nat) (v : View) (ab : Option (Nat × Nat)) (sat : Nat) (xs : List (Nat × Ix × Nat)) (h_s : s.Canonical) :
    (State.drainInto s e ag k v ab sat xs).Canon := by
  unfold State.drainInto
  repeat' (with_reducible first | assumption | (intro _) | apply State.beginConv_canon | apply State.countN_canon | apply State.storeItems_canon | apply canon_ite | apply canon_foldl | apply Out.canon_ite | apply Out.canon_andThen | apply Out.canon_mk_go | apply Out.canon_mk_stop | apply Out.canon_mk_wait | simp only [State.canon_mk] | (apply Out.canon_go; assumption) | (apply Out.canon_stop; assumption) | dsimp only | split)

theorem State.drainPartial_canon (s : State) (e : Issue) (v : View) (sat : Nat) (xs : List (Nat × Ix × Nat)) (h_s : s.Canonical) :
    (State.drainPartial s e v sat xs).Canon := by
  unfold State.drainPartial
  repeat' (with_reducible first | assumption | (intro _) | apply State.countN_canon | apply State.countRuns_canon | apply State.deposit_canon | apply canon_ite | apply Out.canon_ite | apply Out.canon_andThen | apply Out.canon_mk_go | apply Out.canon_mk_stop | apply Out.canon_mk_wait | simp only [State.canon_mk] | (apply Out.canon_go; assumption) | (apply Out.canon_stop; assumption) | dsimp only | split)

theorem State.foldTile_canon (s : State) (e : Issue) (f : FoldDef) (ab : Option (Nat × Nat)) (dix : View → List (Nat × Ix)) (h_s : s.Canonical) :
    (State.foldTile s e f ab dix).Canon := by
  unfold State.foldTile
  repeat' (with_reducible first | assumption | (intro _) | apply State.countClamps_canon | apply State.readElems_canon | apply State.drainInto_canon | apply canon_ite | apply canon_foldl | apply Out.canon_ite | apply Out.canon_andThen | apply Out.canon_mk_go | apply Out.canon_mk_stop | apply Out.canon_mk_wait | apply fst_canon_ite | apply canon_foldl_fst | apply Out.fst_canon_ite | apply Out.canon_foldl | simp only [State.canon_mk] | (apply Out.canon_go; assumption) | (apply Out.canon_stop; assumption) | dsimp only | split)

theorem State.foldPart_canon (e : Issue) (di blk : Nat) (ab : Nat × Nat) (dix : View → List (Nat × Ix)) (fs : List (Nat × FoldDef)) :
    ∀ s : State, s.Canonical → (State.foldPart s e di blk ab dix fs).Canon := by
  induction fs with
  | nil => exact fun s h => Out.canon_mk_go h
  | cons f fs ih =>
    intro s h
    unfold State.foldPart
    split
    · exact ih _ h
    · dsimp only
      split
      · exact ih _ ⟨h.mem, h.syn, h.kettle, h.flash⟩
      · exact Out.canon_andThen (State.foldTile_canon _ _ _ _ _ ⟨h.mem, h.syn, h.kettle, h.flash⟩) fun t ht => ih t ht


theorem State.drainBody_canon (s : State) (e : Issue) (h_s : s.Canonical) :
    (State.drainBody s e).Canon := by
  unfold State.drainBody
  repeat' (with_reducible first | assumption | (intro _) | apply State.shapeCounts_canon | apply State.flushTile_canon | apply State.kettleRead_canon | apply State.countClamps_canon | apply State.drainPartial_canon | apply State.drainInto_canon | apply State.foldPart_canon | apply State.setStream_canon | apply canon_ite | apply canon_foldl | apply Out.canon_ite | apply Out.canon_andThen | apply Out.canon_mk_go | apply Out.canon_mk_stop | apply Out.canon_mk_wait | apply fst_canon_ite | apply canon_foldl_fst | apply Out.fst_canon_ite | apply Out.canon_foldl | simp only [State.canon_mk] | (apply Out.canon_go; assumption) | (apply Out.canon_stop; assumption) | dsimp only | split)

theorem State.maskLoadBody_canon (s : State) (e : Issue) (h_s : s.Canonical) :
    (State.maskLoadBody s e).Canon := by
  unfold State.maskLoadBody
  repeat' (with_reducible first | assumption | (intro _) | apply State.fetch_canon | apply State.setStream_canon | apply canon_ite | apply Out.canon_ite | apply Out.canon_andThen | apply Out.canon_mk_go | apply Out.canon_mk_stop | apply Out.canon_mk_wait | simp only [State.canon_mk] | (apply Out.canon_go; assumption) | (apply Out.canon_stop; assumption) | dsimp only | split)

/-! ### Copy -/

theorem State.countMoves_canon (s : State) (e : Issue) (vs : View) (vd : View) (ms : List Move) (h_s : s.Canonical) :
    (State.countMoves s e vs vd ms).Canonical := by
  unfold State.countMoves
  repeat' (with_reducible first | assumption | (intro _) | apply State.countClamps_canon | apply State.countN_canon | apply canon_ite | apply canon_foldl | simp only [State.canon_mk] | dsimp only | split)

theorem State.moveElems_canon (s : State) (e : Issue) (vs : View) (vd : View) (same : Bool) (dr : Option Draws) (ms : List Move) (h_s : s.Canonical) :
    (State.moveElems s e vs vd same dr ms).Canon := by
  unfold State.moveElems
  repeat' (with_reducible first | assumption | (intro _) | apply State.countMoves_canon | apply State.readElems_canon | apply State.moveInto_canon | apply canon_ite | apply Out.canon_ite | apply Out.canon_andThen | apply Out.canon_mk_go | apply Out.canon_mk_stop | apply Out.canon_mk_wait | simp only [State.canon_mk] | (apply Out.canon_go; assumption) | (apply Out.canon_stop; assumption) | dsimp only | split)

theorem State.copyBody_canon (s : State) (e : Issue) (h_s : s.Canonical) :
    (State.copyBody s e).Canon := by
  unfold State.copyBody
  repeat' (with_reducible first | assumption | (intro _) | apply State.shapeCounts_canon | apply State.beginConv_canon | apply State.moveElems_canon | apply State.count_canon | apply canon_ite | apply Out.canon_ite | apply Out.canon_andThen | apply Out.canon_mk_go | apply Out.canon_mk_stop | apply Out.canon_mk_wait | simp only [State.canon_mk] | (apply Out.canon_go; assumption) | (apply Out.canon_stop; assumption) | dsimp only | split)

theorem State.tcopyTiles_canon (e : Issue) (vs vd : View) (perm : Nat) (same : Bool) (dr : Option Draws) (ts : List Ix) :
    ∀ (s : State) (n lo : Nat), s.Canonical → (State.tcopyTiles s e vs vd perm same dr n lo ts).Canon := by
  induction ts with
  | nil => exact fun s n lo h => Out.canon_mk_go h
  | cons t ts ih =>
    intro s n lo h
    unfold State.tcopyTiles
    exact Out.canon_andThen (Out.atStep_canon _ _ (State.moveElems_canon _ _ _ _ _ _ _ h)) fun u hu => ih _ _ _ (State.count_canon _ _ hu)


theorem State.tcopyBody_canon (s : State) (e : Issue) (h_s : s.Canonical) :
    (State.tcopyBody s e).Canon := by
  unfold State.tcopyBody
  repeat' (with_reducible first | assumption | (intro _) | apply State.shapeCounts_canon | apply State.count_canon | apply State.beginConv_canon | apply State.tcopyTiles_canon | apply canon_ite | apply canon_foldl | apply Out.canon_ite | apply Out.canon_andThen | apply Out.canon_mk_go | apply Out.canon_mk_stop | apply Out.canon_mk_wait | apply fst_canon_ite | apply canon_foldl_fst | apply Out.fst_canon_ite | apply Out.canon_foldl | simp only [State.canon_mk] | (apply Out.canon_go; assumption) | (apply Out.canon_stop; assumption) | dsimp only | split)

/-! ### Carder -/

theorem State.countIdx_canon (s : State) (m : Nat) (c : Nat) (h_s : s.Canonical) :
    (State.countIdx s m c).Canonical := by
  unfold State.countIdx
  repeat' (with_reducible first | assumption | apply State.count_canon | apply canon_ite | simp only [State.canon_mk] | split)

theorem State.countClamped_canon (s : State) (m : Nat) (n : Nat) (h_s : s.Canonical) :
    (State.countClamped s m n).Canonical := by
  unfold State.countClamped
  repeat' (with_reducible first | assumption | apply State.countN_canon | apply canon_ite | simp only [State.canon_mk] | split)

theorem State.fetchFlat_canon (s : State) (e : Issue) (v : View) (first : Bool) (p : Nat) (h_s : s.Canonical) :
    (State.fetchFlat s e v first p).Canon := by
  unfold State.fetchFlat
  repeat' (with_reducible first | assumption | (intro _) | apply State.countClamped_canon | apply State.fetch_canon | apply State.countValues_canon | apply canon_ite | apply Out.canon_ite | apply Out.canon_andThen | apply Out.canon_mk_go | apply Out.canon_mk_stop | apply Out.canon_mk_wait | simp only [State.canon_mk] | (apply Out.canon_go; assumption) | (apply Out.canon_stop; assumption) | dsimp only | split)

theorem State.fetchRow_canon (s : State) (e : Issue) (v : View) (buf : Option Nat) (r : Nat) (is : List Ix) (h_s : s.Canonical) :
    (State.fetchRow s e v buf r is).Canon := by
  unfold State.fetchRow
  repeat' (with_reducible first | assumption | (intro _) | apply State.count_canon | apply State.readElems_canon | apply canon_ite | apply Out.canon_ite | apply Out.canon_andThen | apply Out.canon_mk_go | apply Out.canon_mk_stop | apply Out.canon_mk_wait | simp only [State.canon_mk] | (apply Out.canon_go; assumption) | (apply Out.canon_stop; assumption) | dsimp only | split)

theorem State.moveRow_canon (s : State) (e : Issue) (tab : View) (out : View) (dr : Option Draws) (buf : Option Nat) (w : Nat) (r : Nat) (row : Nat) (h_s : s.Canonical) :
    (State.moveRow s e tab out dr buf w r row).Canon := by
  unfold State.moveRow
  repeat' (with_reducible first | assumption | (intro _) | apply State.fetchRow_canon | apply State.countClamped_canon | apply State.moveInto_canon | apply canon_ite | apply Out.canon_ite | apply Out.canon_andThen | apply Out.canon_mk_go | apply Out.canon_mk_stop | apply Out.canon_mk_wait | simp only [State.canon_mk] | (apply Out.canon_go; assumption) | (apply Out.canon_stop; assumption) | dsimp only | split)

theorem State.gatherRow_canon (s : State) (e : Issue) (tab : View) (idx : View) (out : View) (dr : Option Draws) (buf : Option Nat) (p : Nat) (h_s : s.Canonical) :
    (State.gatherRow s e tab idx out dr buf p).1.Canon := by
  unfold State.gatherRow
  repeat' (with_reducible first | assumption | (intro _) | apply State.fetchFlat_canon | apply State.countIdx_canon | apply State.moveRow_canon | apply canon_ite | apply Out.canon_ite | apply Out.canon_andThen | apply Out.canon_mk_go | apply Out.canon_mk_stop | apply Out.canon_mk_wait | apply fst_canon_ite | apply canon_foldl_fst | apply Out.fst_canon_ite | apply Out.canon_foldl | simp only [State.canon_mk] | (apply Out.canon_go; assumption) | (apply Out.canon_stop; assumption) | dsimp only | split)

theorem State.gatherRows_canon (s : State) (e : Issue) (tab : View) (idx : View) (out : View) (dr : Option Draws) (x7 : Option Nat) (x8 : Nat) (x9 : Nat) (h_s : s.Canonical) :
    (State.gatherRows s e tab idx out dr x7 x8 x9).Canon := by
  fun_induction State.gatherRows s e tab idx out dr x7 x8 x9
  all_goals repeat' (with_reducible first | assumption | (intro _) | (apply_assumption) | (intro _) | apply State.gatherRow_canon | apply Out.atStep_canon | apply canon_ite | apply Out.canon_ite | apply Out.canon_andThen | apply Out.canon_mk_go | apply Out.canon_mk_stop | apply Out.canon_mk_wait | simp only [State.canon_mk] | (apply Out.canon_go; assumption) | (apply Out.canon_stop; assumption) | dsimp only | split)

theorem State.gatherBody_canon (s : State) (e : Issue) (h_s : s.Canonical) :
    (State.gatherBody s e).Canon := by
  unfold State.gatherBody
  repeat' (with_reducible first | assumption | (intro _) | apply State.shapeCounts_canon | apply State.beginConv_canon | apply State.gatherRows_canon | apply State.count_canon | apply canon_ite | apply Out.canon_ite | apply Out.canon_andThen | apply Out.canon_mk_go | apply Out.canon_mk_stop | apply Out.canon_mk_wait | simp only [State.canon_mk] | (apply Out.canon_go; assumption) | (apply Out.canon_stop; assumption) | dsimp only | split)

theorem State.writeRow_canon (s : State) (e : Issue) (dst : View) (dr : Option Draws) (lo : Nat) (row : Nat) (acc : List Nat) (writes : Nat) (h_s : s.Canonical) :
    (State.writeRow s e dst dr lo row acc writes).Canon := by
  unfold State.writeRow
  repeat' (with_reducible first | assumption | (intro _) | apply State.countClamps_canon | apply State.storeItems_canon | apply canon_ite | apply Out.canon_ite | apply Out.canon_andThen | apply Out.canon_mk_go | apply Out.canon_mk_stop | apply Out.canon_mk_wait | simp only [State.canon_mk] | (apply Out.canon_go; assumption) | (apply Out.canon_stop; assumption) | dsimp only | split)

theorem State.readRow_canon (s : State) (e : Issue) (dst : View) (ixs : List Ix) (h_s : s.Canonical) :
    (State.readRow s e dst ixs).Canon := by
  unfold State.readRow
  repeat' (with_reducible first | assumption | (intro _) | apply State.countClamps_canon | apply State.readElems_canon | apply State.countFulls_canon | apply canon_ite | apply Out.canon_ite | apply Out.canon_andThen | apply Out.canon_mk_go | apply Out.canon_mk_stop | apply Out.canon_mk_wait | simp only [State.canon_mk] | (apply Out.canon_go; assumption) | (apply Out.canon_stop; assumption) | dsimp only | split)

theorem State.addRow_canon (s : State) (e : Issue) (dst : View) (src : View) (w : Option Nat) (acc : List Nat) (ixs : List Ix) (h_s : s.Canonical) :
    (State.addRow s e dst src w acc ixs).1.Canonical := by
  unfold State.addRow
  repeat' (with_reducible first | assumption | (intro _) | apply State.countClamps_canon | apply State.countValues_canon | apply State.countN_canon | apply canon_ite | apply fst_canon_ite | apply canon_foldl_fst | simp only [State.canon_mk] | dsimp only | split)

theorem State.sourceRow_canon (s : State) (e : Issue) (o : ScatterOp) (buf : Option Nat) (first : Bool) (p : Nat) (r : Nat × Nat) (ixs : List Ix) (h_s : s.Canonical) :
    (State.sourceRow s e o buf first p r ixs).Canon := by
  unfold State.sourceRow
  repeat' (with_reducible first | assumption | (intro _) | apply State.readElems_canon | apply State.fetchFlat_canon | apply State.countIdx_canon | apply State.fetchRow_canon | apply canon_ite | apply Out.canon_ite | apply Out.canon_andThen | apply Out.canon_mk_go | apply Out.canon_mk_stop | apply Out.canon_mk_wait | simp only [State.canon_mk] | (apply Out.canon_go; assumption) | (apply Out.canon_stop; assumption) | dsimp only | split)

theorem State.turnRow_canon (s : State) (e : Issue) (o : ScatterOp) (dr : Option Draws) (lo : Nat) (g : Seg) (r : Nat) (h_s : s.Canonical) :
    (State.turnRow s e o dr lo g r).1.Canon := by
  unfold State.turnRow
  repeat' (with_reducible first | assumption | (intro _) | apply State.writeRow_canon | apply State.readRow_canon | apply canon_ite | apply Out.canon_ite | apply Out.canon_andThen | apply Out.canon_mk_go | apply Out.canon_mk_stop | apply Out.canon_mk_wait | apply fst_canon_ite | apply canon_foldl_fst | apply Out.fst_canon_ite | apply Out.canon_foldl | simp only [State.canon_mk] | (apply Out.canon_go; assumption) | (apply Out.canon_stop; assumption) | dsimp only | split)

theorem State.scatterStep_canon (s : State) (e : Issue) (o : ScatterOp) (dr : Option Draws) (lo : Nat) (g : Seg) (p : Nat) (h_s : s.Canonical) :
    (State.scatterStep s e o dr lo g p).1.Canon := by
  unfold State.scatterStep
  repeat' (with_reducible first | assumption | (intro _) | apply State.fetchFlat_canon | apply State.countIdx_canon | apply State.turnRow_canon | apply State.sourceRow_canon | apply State.countN_canon | apply State.addRow_canon | apply canon_ite | apply Out.canon_ite | apply Out.canon_andThen | apply Out.canon_mk_go | apply Out.canon_mk_stop | apply Out.canon_mk_wait | apply fst_canon_ite | apply canon_foldl_fst | apply Out.fst_canon_ite | apply Out.canon_foldl | simp only [State.canon_mk] | (apply Out.canon_go; assumption) | (apply Out.canon_stop; assumption) | dsimp only | split)

theorem State.scatterSeg_canon (e : Issue) (o : ScatterOp) (dr : Option Draws) (lo n : Nat) :
    ∀ (s : State) (g : Seg) (p : Nat), s.Canonical → (State.scatterSeg s e o dr lo g p n).1.Canon := by
  induction n with
  | zero =>
    intro s g p h
    unfold State.scatterSeg
    split
    · exact Out.canon_mk_go h
    · rename_i c hc
      have hw := State.writeRow_canon s e o.dst dr lo c g.acc g.writes h
      generalize State.writeRow s e o.dst dr lo c g.acc g.writes = x at hw ⊢
      exact hw
  | succ n ih =>
    intro s g p h
    have hr := State.scatterStep_canon s e o dr lo g p h
    unfold State.scatterSeg
    generalize State.scatterStep s e o dr lo g p = x at hr ⊢
    have hx := Out.atStep_canon p _ hr
    dsimp only
    generalize x.1.atStep p = y at hx ⊢
    split
    · exact ih _ _ _ (hx.go _ rfl)
    · exact hx


theorem State.scatterSegs_canon (s : State) (e : Issue) (o : ScatterOp) (dr : Option Draws) (x5 : Nat) (x6 : List Nat) (h_s : s.Canonical) :
    (State.scatterSegs s e o dr x5 x6).Canon := by
  fun_induction State.scatterSegs s e o dr x5 x6
  all_goals repeat' (with_reducible first | assumption | (intro _) | (apply_assumption) | (intro _) | apply State.scatterSeg_canon | apply State.count_canon | apply canon_ite | apply Out.canon_ite | apply Out.canon_andThen | apply Out.canon_mk_go | apply Out.canon_mk_stop | apply Out.canon_mk_wait | simp only [State.canon_mk] | (apply Out.canon_go; assumption) | (apply Out.canon_stop; assumption) | dsimp only | split)

theorem State.scatterBody_canon (s : State) (e : Issue) (gadd : Bool) (h_s : s.Canonical) :
    (State.scatterBody s e gadd).Canon := by
  unfold State.scatterBody
  repeat' (with_reducible first | assumption | (intro _) | apply State.shapeCounts_canon | apply State.beginConv_canon | apply State.scatterSegs_canon | apply canon_ite | apply Out.canon_ite | apply Out.canon_andThen | apply Out.canon_mk_go | apply Out.canon_mk_stop | apply Out.canon_mk_wait | simp only [State.canon_mk] | (apply Out.canon_go; assumption) | (apply Out.canon_stop; assumption) | dsimp only | split)

theorem State.putRecord_canon (s : State) (e : Issue) (out : View) (p : Nat) (r : MRec) (h_s : s.Canonical) :
    (State.putRecord s e out p r).Canon := by
  unfold State.putRecord
  repeat' (with_reducible first | assumption | (intro _) | apply State.countClamped_canon | apply State.deposit_canon | apply canon_ite | apply Out.canon_ite | apply Out.canon_andThen | apply Out.canon_mk_go | apply Out.canon_mk_stop | apply Out.canon_mk_wait | simp only [State.canon_mk] | (apply Out.canon_go; assumption) | (apply Out.canon_stop; assumption) | dsimp only | split)

theorem State.sumRecord_canon (s : State) (g : Nat) (c : MRec) (r : MRec) (h_s : s.Canonical) :
    (State.sumRecord s g c r).1.Canonical := by
  unfold State.sumRecord
  repeat' (with_reducible first | assumption | apply State.countN_canon | apply canon_ite | apply fst_canon_ite | apply canon_foldl_fst | simp only [State.canon_mk] | split)

theorem State.mergeSteps_canon (e : Issue) (v0 v1 out : View) (sum : Bool) (n : Nat) :
    ∀ (s : State) (g : Merging), s.Canonical → (State.mergeSteps s e v0 v1 out sum n g).Canon := by
  induction n with
  | zero => exact fun s g h => Out.canon_mk_go h
  | succ n ih =>
    intro s g h
    unfold State.mergeSteps
    split
    · split
      · exact Out.canon_mk_go h
      · exact Out.atStep_canon _ _ (State.putRecord_canon _ _ _ _ _ h)
    · rename_i run1 r _
      have ht : ∀ (j : Nat) (v : View), ((s.countN (cCarder e.m 3) (g.take run1 r.1).2).countClamped e.m (v.flatClamps j)).Canonical :=
        fun j v => State.countClamped_canon _ _ _ (State.countN_canon _ _ _ h)
      dsimp only
      split
      · exact Out.canon_andThen (Out.atStep_canon _ _ (State.putRecord_canon _ _ _ _ _ (ht _ _))) fun u hu => ih _ _ hu
      · split
        · exact ih _ _ (ht _ _)
        · split
          · exact ih _ _ (State.sumRecord_canon _ _ _ _ (ht _ _))
          · exact Out.canon_andThen (Out.atStep_canon _ _ (State.putRecord_canon _ _ _ _ _ (ht _ _))) fun u hu => ih _ _ hu


theorem State.mergeBody_canon (s : State) (e : Issue) (sum : Bool) (h_s : s.Canonical) :
    (State.mergeBody s e sum).Canon := by
  unfold State.mergeBody
  repeat' (with_reducible first | assumption | (intro _) | apply State.shapeCounts_canon | apply State.count_canon | apply State.readElems_canon | apply State.mergeSteps_canon | apply canon_ite | apply canon_foldl | apply Out.canon_ite | apply Out.canon_andThen | apply Out.canon_mk_go | apply Out.canon_mk_stop | apply Out.canon_mk_wait | apply fst_canon_ite | apply canon_foldl_fst | apply Out.fst_canon_ite | apply Out.canon_foldl | simp only [State.canon_mk] | (apply Out.canon_go; assumption) | (apply Out.canon_stop; assumption) | dsimp only | split)

/-! ### Sparse -/

theorem State.fetchBytes_canon (s : State) (e : Issue) (v : View) (off : Nat) (n : Nat) (h_s : s.Canonical) :
    (State.fetchBytes s e v off n).Canon := by
  unfold State.fetchBytes
  repeat' (with_reducible first | assumption | (intro _) | apply State.countClamped_canon | apply State.fetch_canon | apply canon_ite | apply Out.canon_ite | apply Out.canon_andThen | apply Out.canon_mk_go | apply Out.canon_mk_stop | apply Out.canon_mk_wait | simp only [State.canon_mk] | (apply Out.canon_go; assumption) | (apply Out.canon_stop; assumption) | dsimp only | split)

theorem State.storeBytes_canon (s : State) (e : Issue) (v : View) (off : Nat) (bs : List Byte) (h_s : s.Canonical) :
    (State.storeBytes s e v off bs).Canon := by
  unfold State.storeBytes
  repeat' (with_reducible first | assumption | (intro _) | apply State.countClamped_canon | apply State.deposit_canon | apply canon_ite | apply Out.canon_ite | apply Out.canon_andThen | apply Out.canon_mk_go | apply Out.canon_mk_stop | apply Out.canon_mk_wait | simp only [State.canon_mk] | (apply Out.canon_go; assumption) | (apply Out.canon_stop; assumption) | dsimp only | split)

theorem State.compressBody_canon (s : State) (e : Issue) (ixv : Bool) (h_s : s.Canonical) :
    (State.compressBody s e ixv).Canon := by
  unfold State.compressBody
  repeat' (with_reducible first | assumption | (intro _) | apply State.shapeCounts_canon | apply State.beginConv_canon | apply State.count_canon | apply State.countClamps_canon | apply State.readElems_canon | apply State.countFaults_canon | apply State.countFulls_canon | apply State.recordConv_canon | apply State.storeBytes_canon | apply canon_ite | apply Out.canon_ite | apply Out.canon_andThen | apply Out.canon_mk_go | apply Out.canon_mk_stop | apply Out.canon_mk_wait | simp only [State.canon_mk] | (apply Out.canon_go; assumption) | (apply Out.canon_stop; assumption) | dsimp only | split)

theorem State.pbmBody_canon (s : State) (e : Issue) (h_s : s.Canonical) :
    (State.pbmBody s e).Canon := by
  unfold State.pbmBody
  repeat' (with_reducible first | assumption | (intro _) | apply State.shapeCounts_canon | apply State.beginConv_canon | apply State.countClamps_canon | apply State.readElems_canon | apply State.fetchBytes_canon | apply State.countFulls_canon | apply State.recordConv_canon | apply State.storeBytes_canon | apply State.countRuns_canon | apply State.deposit_canon | apply canon_ite | apply canon_foldl | apply Out.canon_ite | apply Out.canon_andThen | apply Out.canon_mk_go | apply Out.canon_mk_stop | apply Out.canon_mk_wait | simp only [State.canon_mk] | (apply Out.canon_go; assumption) | (apply Out.canon_stop; assumption) | dsimp only | split)

theorem State.dotBody_canon (s : State) (e : Issue) (va : View) (vb : View) (out : View) (a : Bmv) (b : Bmv) (h_s : s.Canonical) :
    (State.dotBody s e va vb out a b).Canon := by
  unfold State.dotBody
  repeat' (with_reducible first | assumption | (intro _) | apply State.countFulls_canon | apply State.countClamped_canon | apply State.countN_canon | apply State.deposit_canon | apply canon_ite | apply Out.canon_ite | apply Out.canon_andThen | apply Out.canon_mk_go | apply Out.canon_mk_stop | apply Out.canon_mk_wait | simp only [State.canon_mk] | (apply Out.canon_go; assumption) | (apply Out.canon_stop; assumption) | dsimp only | split)

theorem State.positionSteps_canon (e : Issue) (va vb out : View) (n : Nat) (ws : List Nat) :
    ∀ (s : State) (q : Nat), s.Canonical → (State.positionSteps s e va vb out n q ws).Canon := by
  induction ws with
  | nil => exact fun s q h => Out.canon_mk_go h
  | cons w ws ih =>
    intro s q h
    unfold State.positionSteps
    exact Out.canon_andThen (Out.atStep_canon _ _ (State.deposit_canon _ _ _ _ _ (State.countClamped_canon _ _ _ h))) fun t ht => ih _ _ ht


theorem State.intersectBody_canon (s : State) (e : Issue) (h_s : s.Canonical) :
    (State.intersectBody s e).Canon := by
  unfold State.intersectBody
  repeat' (with_reducible first | assumption | (intro _) | apply State.shapeCounts_canon | apply State.fetchBytes_canon | apply State.dotBody_canon | apply State.positionSteps_canon | apply canon_ite | apply Out.canon_ite | apply Out.canon_andThen | apply Out.canon_mk_go | apply Out.canon_mk_stop | apply Out.canon_mk_wait | simp only [State.canon_mk] | (apply Out.canon_go; assumption) | (apply Out.canon_stop; assumption) | dsimp only | split)

theorem State.feedBody_canon (s : State) (e : Issue) (h_s : s.Canonical) :
    (State.feedBody s e).Canon := by
  unfold State.feedBody
  repeat' (with_reducible first | assumption | (intro _) | apply State.shapeCounts_canon | apply State.fetchBytes_canon | apply State.beginConv_canon | apply State.countClamps_canon | apply State.readElems_canon | apply State.moveInto_canon | apply canon_ite | apply Out.canon_ite | apply Out.canon_andThen | apply Out.canon_mk_go | apply Out.canon_mk_stop | apply Out.canon_mk_wait | simp only [State.canon_mk] | (apply Out.canon_go; assumption) | (apply Out.canon_stop; assumption) | dsimp only | split)

theorem State.packForm_canon (s : State) (e : Issue) (src : View) (msk : View) (f : PackForm) (dr : Option Draws) (h_s : s.Canonical) :
    (State.packForm s e src msk f dr).Canon := by
  unfold State.packForm
  repeat' (with_reducible first | assumption | (intro _) | apply State.countN_canon | apply State.countFulls_canon | apply State.countClamps_canon | apply State.storeItems_canon | apply State.countRuns_canon | apply State.deposit_canon | apply canon_ite | apply canon_foldl | apply Out.canon_ite | apply Out.canon_andThen | apply Out.canon_mk_go | apply Out.canon_mk_stop | apply Out.canon_mk_wait | simp only [State.canon_mk] | (apply Out.canon_go; assumption) | (apply Out.canon_stop; assumption) | dsimp only | split)

theorem State.packBody_canon (s : State) (e : Issue) (h_s : s.Canonical) :
    (State.packBody s e).Canon := by
  unfold State.packBody
  repeat' (with_reducible first | assumption | (intro _) | apply State.shapeCounts_canon | apply State.count_canon | apply State.countClamps_canon | apply State.readElems_canon | apply State.beginConv_canon | apply State.countFaults_canon | apply State.packForm_canon | apply canon_ite | apply Out.canon_ite | apply Out.canon_andThen | apply Out.canon_mk_go | apply Out.canon_mk_stop | apply Out.canon_mk_wait | simp only [State.canon_mk] | (apply Out.canon_go; assumption) | (apply Out.canon_stop; assumption) | dsimp only | split)

theorem State.readScores_canon (s : State) (e : Issue) (v : View) (n : Nat) (toks : List Nat) (h_s : s.Canonical) :
    (State.readScores s e v n toks).Canon := by
  unfold State.readScores
  repeat' (with_reducible first | assumption | (intro _) | apply State.countClamps_canon | apply State.readElems_canon | apply State.countValues_canon | apply canon_ite | apply Out.canon_ite | apply Out.canon_andThen | apply Out.canon_mk_go | apply Out.canon_mk_stop | apply Out.canon_mk_wait | simp only [State.canon_mk] | (apply Out.canon_go; assumption) | (apply Out.canon_stop; assumption) | dsimp only | split)

theorem State.unionBody_canon (s : State) (e : Issue) (h_s : s.Canonical) :
    (State.unionBody s e).Canon := by
  unfold State.unionBody
  repeat' (with_reducible first | assumption | (intro _) | apply State.shapeCounts_canon | apply State.readScores_canon | apply State.countClamps_canon | apply State.countRuns_canon | apply State.deposit_canon | apply State.storeBytes_canon | apply canon_ite | apply Out.canon_ite | apply Out.canon_andThen | apply Out.canon_mk_go | apply Out.canon_mk_stop | apply Out.canon_mk_wait | simp only [State.canon_mk] | (apply Out.canon_go; assumption) | (apply Out.canon_stop; assumption) | dsimp only | split)

theorem State.auditBody_canon (s : State) (e : Issue) (h_s : s.Canonical) :
    (State.auditBody s e).Canon := by
  unfold State.auditBody
  repeat' (with_reducible first | assumption | (intro _) | apply State.shapeCounts_canon | apply State.readScores_canon | apply State.countN_canon | apply canon_ite | apply canon_foldl | apply Out.canon_ite | apply Out.canon_andThen | apply Out.canon_mk_go | apply Out.canon_mk_stop | apply Out.canon_mk_wait | simp only [State.canon_mk] | (apply Out.canon_go; assumption) | (apply Out.canon_stop; assumption) | dsimp only | split)

/-! ### Routing -/

theorem State.fetchList_canon (s : State) (e : Issue) (v : View) (n : Nat) (h_s : s.Canonical) :
    (State.fetchList s e v n).Canon := by
  unfold State.fetchList
  repeat' (with_reducible first | assumption | (intro _) | apply State.countClamped_canon | apply State.fetch_canon | apply State.countValues_canon | apply canon_ite | apply canon_foldl | apply Out.canon_ite | apply Out.canon_andThen | apply Out.canon_mk_go | apply Out.canon_mk_stop | apply Out.canon_mk_wait | simp only [State.canon_mk] | (apply Out.canon_go; assumption) | (apply Out.canon_stop; assumption) | dsimp only | split)

theorem State.readLogits_canon (s : State) (e : Issue) (r : RouterDef) (lg : View) (g : Nat) (n : Nat) (h_s : s.Canonical) :
    (State.readLogits s e r lg g n).Canon := by
  unfold State.readLogits
  repeat' (with_reducible first | assumption | (intro _) | apply State.countClamps_canon | apply State.readElems_canon | apply State.countFulls_canon | apply canon_ite | apply Out.canon_ite | apply Out.canon_andThen | apply Out.canon_mk_go | apply Out.canon_mk_stop | apply Out.canon_mk_wait | simp only [State.canon_mk] | (apply Out.canon_go; assumption) | (apply Out.canon_stop; assumption) | dsimp only | split)

theorem State.rankToken_canon (s : State) (e : Issue) (num : Nat) (r : RouterDef) (lg : View) (out : View) (bias : Option (List Nat)) (t : Nat) (h_s : s.Canonical) :
    (State.rankToken s e num r lg out bias t).Canon := by
  unfold State.rankToken
  repeat' (with_reducible first | assumption | (intro _) | apply State.count_canon | apply State.countN_canon | apply State.storeBytes_canon | apply canon_ite | apply Out.canon_ite | apply Out.canon_andThen | apply Out.canon_mk_go | apply Out.canon_mk_stop | apply Out.canon_mk_wait | simp only [State.canon_mk] | (apply Out.canon_go; assumption) | (apply Out.canon_stop; assumption) | dsimp only | split)

theorem State.rankTokens_canon (e : Issue) (num : Nat) (r : RouterDef) (lg out : View) (bias : Option (List Nat)) (ts : List Nat) :
    ∀ s : State, s.Canonical → (State.rankTokens s e num r lg out bias ts).Canon := by
  induction ts with
  | nil => exact fun s h => Out.canon_mk_go h
  | cons t ts ih =>
    exact fun s h => Out.canon_andThen (Out.atStep_canon _ _ (State.rankToken_canon _ _ _ _ _ _ _ _ h)) fun u hu => ih u hu


theorem State.rankBody_canon (s : State) (e : Issue) (h_s : s.Canonical) :
    (State.rankBody s e).Canon := by
  unfold State.rankBody
  repeat' (with_reducible first | assumption | (intro _) | apply State.shapeCounts_canon | apply State.readLogits_canon | apply State.fetchList_canon | apply State.countFulls_canon | apply State.rankTokens_canon | apply canon_ite | apply Out.canon_ite | apply Out.canon_andThen | apply Out.canon_mk_go | apply Out.canon_mk_stop | apply Out.canon_mk_wait | simp only [State.canon_mk] | (apply Out.canon_go; assumption) | (apply Out.canon_stop; assumption) | dsimp only | split)

theorem State.placeTokens_canon (s : State) (e : Issue) (r : RouterDef) (lists : View) (recs : View) (lg : View) (mb : Nat) (rows : Nat) (h_s : s.Canonical) :
    (State.placeTokens s e r lists recs lg mb rows).Canon := by
  unfold State.placeTokens
  repeat' (with_reducible first | assumption | (intro _) | apply State.countN_canon | apply State.storeBytes_canon | apply State.deposit_canon | apply canon_ite | apply canon_foldl | apply Out.canon_ite | apply Out.canon_andThen | apply Out.canon_mk_go | apply Out.canon_mk_stop | apply Out.canon_mk_wait | simp only [State.canon_mk] | (apply Out.canon_go; assumption) | (apply Out.canon_stop; assumption) | dsimp only | split)

theorem State.placeBody_canon (s : State) (e : Issue) (h_s : s.Canonical) :
    (State.placeBody s e).Canon := by
  unfold State.placeBody
  repeat' (with_reducible first | assumption | (intro _) | apply State.shapeCounts_canon | apply State.deposit_canon | apply State.fetchBytes_canon | apply State.fetchList_canon | apply State.readLogits_canon | apply State.placeTokens_canon | apply canon_ite | apply Out.canon_ite | apply Out.canon_andThen | apply Out.canon_mk_go | apply Out.canon_mk_stop | apply Out.canon_mk_wait | simp only [State.canon_mk] | (apply Out.canon_go; assumption) | (apply Out.canon_stop; assumption) | dsimp only | split)

theorem State.storeTag_canon (s : State) (e : Issue) (out : View) (quota : List Nat) (row : Nat) (tag : Nat) (ex : Nat) (h_s : s.Canonical) :
    (State.storeTag s e out quota row tag ex).Canon := by
  unfold State.storeTag
  repeat' (with_reducible first | assumption | (intro _) | apply State.storeBytes_canon | apply canon_ite | apply Out.canon_ite | apply Out.canon_andThen | apply Out.canon_mk_go | apply Out.canon_mk_stop | apply Out.canon_mk_wait | simp only [State.canon_mk] | (apply Out.canon_go; assumption) | (apply Out.canon_stop; assumption) | dsimp only | split)

theorem State.packRows_canon (s : State) (e : Issue) (act : View) (out : View) (dr : Option Draws) (quota : List Nat) (x7 : Option Nat) (x8 : Nat) (x9 : List (Nat × Rec)) (h_s : s.Canonical) :
    (State.packRows s e act out dr quota x7 x8 x9).Canon := by
  fun_induction State.packRows s e act out dr quota x7 x8 x9
  all_goals repeat' (with_reducible first | assumption | (intro _) | (apply_assumption) | (intro _) | apply State.moveRow_canon | apply State.storeTag_canon | apply Out.atStep_canon | apply canon_ite | apply Out.canon_ite | apply Out.canon_andThen | apply Out.canon_mk_go | apply Out.canon_mk_stop | apply Out.canon_mk_wait | apply Out.fst_canon_ite | apply Out.canon_foldl | simp only [State.canon_mk] | (apply Out.canon_go; assumption) | (apply Out.canon_stop; assumption) | dsimp only | split)

theorem State.packEmpty_canon (s : State) (e : Issue) (out : View) (quota : List Nat) (x5 : List (Nat × Nat)) (h_s : s.Canonical) :
    (State.packEmpty s e out quota x5).Canon := by
  fun_induction State.packEmpty s e out quota x5
  all_goals repeat' (with_reducible first | assumption | (intro _) | (apply_assumption) | (intro _) | apply State.storeTag_canon | apply canon_ite | apply Out.canon_ite | apply Out.canon_andThen | apply Out.canon_mk_go | apply Out.canon_mk_stop | apply Out.canon_mk_wait | apply Out.fst_canon_ite | apply Out.canon_foldl | simp only [State.canon_mk] | (apply Out.canon_go; assumption) | (apply Out.canon_stop; assumption) | dsimp only | split)

theorem State.dispatchBody_canon (s : State) (e : Issue) (h_s : s.Canonical) :
    (State.dispatchBody s e).Canon := by
  unfold State.dispatchBody
  repeat' (with_reducible first | assumption | (intro _) | apply State.shapeCounts_canon | apply State.fetch_canon | apply State.fetchBytes_canon | apply State.fetchList_canon | apply State.beginConv_canon | apply State.packRows_canon | apply State.packEmpty_canon | apply canon_ite | apply Out.canon_ite | apply Out.canon_andThen | apply Out.canon_mk_go | apply Out.canon_mk_stop | apply Out.canon_mk_wait | simp only [State.canon_mk] | (apply Out.canon_go; assumption) | (apply Out.canon_stop; assumption) | dsimp only | split)

theorem State.compactRows_canon (e : Issue) (src out : View) (dr : Option Draws) (row0 tags ex : Nat) (rs : List Nat) :
    ∀ (s : State) (n : Nat), s.Canonical → (State.compactRows s e src out dr row0 tags ex n rs).1.Canon := by
  induction rs with
  | nil => exact fun s n h => Out.canon_mk_go h
  | cons r rs ih =>
    intro s n h
    unfold State.compactRows
    dsimp only
    have hf := State.fetch_canon s e.img (e.agent false) (some src.d.group) true ((List.range 8).map (tags + 8 * r + ·)) h
    generalize State.fetch s e.img (e.agent false) (some src.d.group) true ((List.range 8).map (tags + 8 * r + ·)) = z at hf ⊢
    split
    · rename_i t
      have hc := hf.go t rfl
      split
      · exact ih _ _ (State.count_canon _ _ hc)
      · have hm := Out.atStep_canon n _ (State.moveRow_canon t e src out dr none (n * out.ext.i0) (r - row0) n hc)
        generalize (State.moveRow t e src out dr none (n * out.ext.i0) (r - row0) n).atStep n = y at hm ⊢
        split
        · exact ih _ _ (hm.go _ rfl)
        · exact hm
    · exact hf


theorem State.receiveBlock_canon (s : State) (e : Issue) (src : View) (out : View) (quota : List Nat) (b : RecvBlock) (h_s : s.Canonical) :
    (State.receiveBlock s e src out quota b).Canon := by
  unfold State.receiveBlock
  repeat' (with_reducible first | assumption | (intro _) | apply State.fetch_canon | apply State.beginConv_canon | apply State.compactRows_canon | apply State.setShape_canon | apply canon_ite | apply canon_foldl | apply Out.canon_ite | apply Out.canon_andThen | apply Out.canon_mk_go | apply Out.canon_mk_stop | apply Out.canon_mk_wait | apply fst_canon_ite | apply canon_foldl_fst | apply Out.fst_canon_ite | apply Out.canon_foldl | simp only [State.canon_mk] | (apply Out.canon_go; assumption) | (apply Out.canon_stop; assumption) | dsimp only | split)

theorem State.receiveBody_canon (s : State) (e : Issue) (h_s : s.Canonical) :
    (State.receiveBody s e).Canon := by
  unfold State.receiveBody
  repeat' (with_reducible first | assumption | (intro _) | apply State.shapeCounts_canon | apply State.fetchList_canon | apply State.receiveBlock_canon | apply canon_ite | apply Out.canon_ite | apply Out.canon_andThen | apply Out.canon_mk_go | apply Out.canon_mk_stop | apply Out.canon_mk_wait | simp only [State.canon_mk] | (apply Out.canon_go; assumption) | (apply Out.canon_stop; assumption) | dsimp only | split)

theorem State.withTag_canon (s : State) (e : Issue) (ret : View) (quota : List Nat) (first : Bool) (r : Rec) (use : State → Nat → Out) (h_s : s.Canonical) (h_use : ∀ t u, t.Canonical → (use t u).Canon) :
    (State.withTag s e ret quota first r use).Canon := by
  unfold State.withTag
  repeat' (with_reducible first | assumption | (intro _) | apply State.fetchBytes_canon | apply outOf_canon | apply State.count_canon | apply State.classOutcome_canon | apply h_use | apply canon_ite | apply Out.canon_ite | apply Out.canon_andThen | apply Out.canon_mk_go | apply Out.canon_mk_stop | apply Out.canon_mk_wait | simp only [State.canon_mk] | (apply Out.canon_go; assumption) | (apply Out.canon_stop; assumption) | dsimp only | split)

theorem State.combineSlot_canon (s : State) (e : Issue) (dst : View) (ret : View) (quota : List Nat) (lo : Nat) (acc : List Nat) (r : Rec) (h_s : s.Canonical) :
    (State.combineSlot s e dst ret quota lo acc r).1.Canon := by
  unfold State.combineSlot
  repeat' (with_reducible first | assumption | (intro _) | apply State.withTag_canon | apply State.readElems_canon | apply State.addRow_canon | apply canon_ite | apply Out.canon_ite | apply Out.canon_andThen | apply Out.canon_mk_go | apply Out.canon_mk_stop | apply Out.canon_mk_wait | apply fst_canon_ite | apply canon_foldl_fst | apply Out.fst_canon_ite | apply Out.canon_foldl | simp only [State.canon_mk] | (apply Out.canon_go; assumption) | (apply Out.canon_stop; assumption) | dsimp only | split)

theorem State.combineSlots_canon (e : Issue) (dst ret : View) (quota : List Nat) (lo : Nat) (rs : List Rec) :
    ∀ (s : State) (acc : List Nat), s.Canonical → (State.combineSlots s e dst ret quota lo acc rs).1.Canon := by
  induction rs with
  | nil => exact fun s acc h => Out.canon_mk_go h
  | cons r rs ih =>
    intro s acc h
    have hx := State.combineSlot_canon s e dst ret quota lo acc r h
    unfold State.combineSlots
    dsimp only
    generalize State.combineSlot s e dst ret quota lo acc r = y at hx ⊢
    split
    · exact ih _ _ (Out.canon_go ‹_› hx)
    · exact hx

theorem State.combineToken_canon (s : State) (e : Issue) (dst : View) (ret : View) (dr : Option Draws) (quota : List Nat) (lo : Nat) (writes : Nat) (t : Nat) (rs : List Rec) (h_s : s.Canonical) :
    (State.combineToken s e dst ret dr quota lo writes t rs).Canon := by
  unfold State.combineToken
  repeat' (with_reducible first | assumption | (intro _) | apply State.readRow_canon | apply State.combineSlots_canon | apply State.writeRow_canon | apply canon_ite | apply Out.canon_ite | apply Out.canon_andThen | apply Out.canon_mk_go | apply Out.canon_mk_stop | apply Out.canon_mk_wait | simp only [State.canon_mk] | (apply Out.canon_go; assumption) | (apply Out.canon_stop; assumption) | dsimp only | split)

theorem State.combineTokens_canon (e : Issue) (dst ret : View) (dr : Option Draws) (quota : List Nat) (lo : Nat)
    (xs : List (Nat × List Rec)) :
    ∀ (s : State) (w : Nat), s.Canonical → (State.combineTokens s e dst ret dr quota lo w xs).1.Canon := by
  induction xs with
  | nil => exact fun s w h => Out.canon_mk_go h
  | cons x xs ih =>
    intro s w h
    unfold State.combineTokens
    split
    · exact ih _ _ h
    · have hx := Out.atStep_canon x.1 _ (State.combineToken_canon s e dst ret dr quota lo w x.1 x.2 h)
      generalize (State.combineToken s e dst ret dr quota lo w x.1 x.2).atStep x.1 = y at hx ⊢
      split
      · exact ih _ _ (hx.go _ rfl)
      · exact hx


theorem State.combineSegs_canon (e : Issue) (dst ret : View) (dr : Option Draws) (quota : List Nat) (xs : List (Nat × List Rec))
    (los : List Nat) : ∀ (s : State) (w : Nat), s.Canonical → (State.combineSegs s e dst ret dr quota xs w los).Canon := by
  induction los with
  | nil => exact fun s w h => Out.canon_mk_go h
  | cons lo los ih =>
    exact fun s w h => Out.canon_andThen (State.combineTokens_canon _ _ _ _ _ _ _ _ _ h) fun t ht => ih t _ ht

theorem State.gateGrad_canon (s : State) (e : Issue) (dst : View) (ret : View) (out : View) (quota : List Nat) (k : Nat) (t : Nat) (j : Nat) (rec : Option Rec) (h_s : s.Canonical) :
    (State.gateGrad s e dst ret out quota k t j rec).Canon := by
  unfold State.gateGrad
  repeat' (with_reducible first | assumption | (intro _) | apply State.countClamped_canon | apply State.deposit_canon | apply State.withTag_canon | apply State.readElems_canon | apply State.countClamps_canon | apply State.countValues_canon | apply State.countN_canon | apply canon_ite | apply Out.canon_ite | apply Out.canon_andThen | apply Out.canon_mk_go | apply Out.canon_mk_stop | apply Out.canon_mk_wait | simp only [State.canon_mk] | (apply Out.canon_go; assumption) | (apply Out.canon_stop; assumption) | dsimp only | split)

theorem State.gateGrads_canon (s : State) (e : Issue) (dst : View) (ret : View) (out : View) (quota : List Nat) (k : Nat) (x8 : List (Nat × Nat × Option Rec)) (h_s : s.Canonical) :
    (State.gateGrads s e dst ret out quota k x8).Canon := by
  fun_induction State.gateGrads s e dst ret out quota k x8
  all_goals repeat' (with_reducible first | assumption | (intro _) | (apply_assumption) | (intro _) | apply State.gateGrad_canon | apply Out.atStep_canon | apply canon_ite | apply Out.canon_ite | apply Out.canon_andThen | apply Out.canon_mk_go | apply Out.canon_mk_stop | apply Out.canon_mk_wait | apply Out.fst_canon_ite | apply Out.canon_foldl | simp only [State.canon_mk] | (apply Out.canon_go; assumption) | (apply Out.canon_stop; assumption) | dsimp only | split)

theorem State.combineBody_canon (s : State) (e : Issue) (h_s : s.Canonical) :
    (State.combineBody s e).Canon := by
  unfold State.combineBody
  repeat' (with_reducible first | assumption | (intro _) | apply State.shapeCounts_canon | apply State.fetchBytes_canon | apply State.fetchList_canon | apply State.gateGrads_canon | apply State.beginConv_canon | apply State.combineSegs_canon | apply canon_ite | apply Out.canon_ite | apply Out.canon_andThen | apply Out.canon_mk_go | apply Out.canon_mk_stop | apply Out.canon_mk_wait | simp only [State.canon_mk] | (apply Out.canon_go; assumption) | (apply Out.canon_stop; assumption) | dsimp only | split)

/-! ### Scalar -/

theorem State.kernelRead_canon (s : State) (e : Issue) (n : Nat) (a : Nat) (k : State → Nat → KStep) (h_s : s.Canonical) (h_k : ∀ t u, t.Canonical → (k t u).Canon) :
    (State.kernelRead s e n a k).Canon := by
  unfold State.kernelRead
  repeat' (with_reducible first | assumption | (intro _) | apply State.fetch_canon | apply h_k | apply canon_ite | apply Out.canon_ite | apply Out.canon_andThen | apply Out.canon_mk_go | apply Out.canon_mk_stop | apply Out.canon_mk_wait | apply KStep.canon_next | apply KStep.canon_wait | apply KStep.canon_stop | simp only [State.canon_mk] | (apply Out.canon_go; assumption) | (apply Out.canon_stop; assumption) | dsimp only | split)

theorem State.kernelLoad_canon (s : State) (e : Issue) (c : Core64) (f3 : Nat) (rd : Nat) (a : Nat) (nx : Nat) (h_s : s.Canonical) :
    (State.kernelLoad s e c f3 rd a nx).Canon := by
  unfold State.kernelLoad
  repeat' (with_reducible first | assumption | (intro _) | apply State.kernelRead_canon | apply canon_ite | apply Out.canon_ite | apply Out.canon_andThen | apply Out.canon_mk_go | apply Out.canon_mk_stop | apply Out.canon_mk_wait | apply KStep.canon_next | apply KStep.canon_wait | apply KStep.canon_stop | simp only [State.canon_mk] | (apply Out.canon_go; assumption) | (apply Out.canon_stop; assumption) | dsimp only | split)

theorem State.kernelStore_canon (s : State) (e : Issue) (c : Core64) (n : Nat) (v : Nat) (a : Nat) (nx : Nat) (h_s : s.Canonical) :
    (State.kernelStore s e c n v a nx).Canon := by
  unfold State.kernelStore
  repeat' (with_reducible first | assumption | (intro _) | apply State.deposit_canon | apply canon_ite | apply Out.canon_ite | apply Out.canon_andThen | apply Out.canon_mk_go | apply Out.canon_mk_stop | apply Out.canon_mk_wait | apply KStep.canon_next | apply KStep.canon_wait | apply KStep.canon_stop | simp only [State.canon_mk] | (apply Out.canon_go; assumption) | (apply Out.canon_stop; assumption) | dsimp only | split)

theorem State.kernelFp_canon (s : State) (e : Issue) (c : Core64) (rd : Nat) (r : Nat × Bool) (nx : Nat) (h_s : s.Canonical) :
    (State.kernelFp s e c rd r nx).Canon := by
  unfold State.kernelFp
  repeat' (with_reducible first | assumption | (intro _) | apply State.count_canon | apply canon_ite | apply Out.canon_ite | apply Out.canon_andThen | apply Out.canon_mk_go | apply Out.canon_mk_stop | apply Out.canon_mk_wait | apply KStep.canon_next | apply KStep.canon_wait | apply KStep.canon_stop | simp only [State.canon_mk] | (apply Out.canon_go; assumption) | (apply Out.canon_stop; assumption) | dsimp only | split)

theorem State.kernelFloat_canon (s : State) (e : Issue) (c : Core64) (w : Nat) (nx : Nat) (h_s : s.Canonical) :
    (State.kernelFloat s e c w nx).Canon := by
  unfold State.kernelFloat
  repeat' (with_reducible first | assumption | (intro _) | apply State.kernelFp_canon | apply canon_ite | apply Out.canon_ite | apply Out.canon_andThen | apply Out.canon_mk_go | apply Out.canon_mk_stop | apply Out.canon_mk_wait | apply KStep.canon_next | apply KStep.canon_wait | apply KStep.canon_stop | simp only [State.canon_mk] | (apply Out.canon_go; assumption) | (apply Out.canon_stop; assumption) | dsimp only | split)

theorem State.kernelExec_canon (s : State) (e : Issue) (c : Core64) (w : Nat) (nx : Nat) (h_s : s.Canonical) :
    (State.kernelExec s e c w nx).Canon := by
  unfold State.kernelExec
  repeat' (with_reducible first | assumption | (intro _) | apply State.kernelLoad_canon | apply State.kernelStore_canon | apply State.kernelRead_canon | apply State.kernelFloat_canon | apply canon_ite | apply Out.canon_ite | apply Out.canon_andThen | apply Out.canon_mk_go | apply Out.canon_mk_stop | apply Out.canon_mk_wait | apply KStep.canon_next | apply KStep.canon_wait | apply KStep.canon_stop | simp only [State.canon_mk] | (apply Out.canon_go; assumption) | (apply Out.canon_stop; assumption) | dsimp only | split)

theorem State.kernelStep_canon (s : State) (e : Issue) (c : Core64) (h_s : s.Canonical) :
    (State.kernelStep s e c).Canon := by
  unfold State.kernelStep
  repeat' (with_reducible first | assumption | (intro _) | apply State.kernelExec_canon | apply canon_ite | apply Out.canon_ite | apply Out.canon_andThen | apply Out.canon_mk_go | apply Out.canon_mk_stop | apply Out.canon_mk_wait | apply KStep.canon_next | apply KStep.canon_wait | apply KStep.canon_stop | simp only [State.canon_mk] | (apply Out.canon_go; assumption) | (apply Out.canon_stop; assumption) | dsimp only | split)

theorem State.kernelRun_canon (e : Issue) (n : Nat) : ∀ (s : State) (c : Core64), s.Canonical → (State.kernelRun s e n c).Canon := by
  induction n with
  | zero =>
    intro s c h
    unfold State.kernelRun
    exact Out.canon_ite (Out.canon_mk_go h) (Out.canon_mk_wait _ _)
  | succ n ih =>
    intro s c h
    have hk := State.kernelStep_canon s e c h
    unfold State.kernelRun
    split
    · exact Out.canon_mk_go h
    · split
      · exact ih _ _ (hk.next _ _ ‹_›)
      · exact Out.canon_mk_wait _ _
      · exact Out.canon_mk_stop (hk.stop _ ‹_›)


end Sys2Proof.Machine
end

