-- ==== Sys2Proof/Laws/CanonGroup.lean ====
section
/-! SUPPORT. Canonical maps: the Wheel, the runtime, the data service, jobs and the snapshot engine keep the canonical form. -/
namespace Sys2Proof.Machine
set_option linter.unusedVariables false
set_option linter.unusedSimpArgs false

/-! ### Wheel -/

theorem State.setBucket_canon (s : State) (b : Nat) (k : Bucket) (h_s : s.Canonical) :
    (State.setBucket s b k).Canonical :=
  ⟨h_s.mem, h_s.syn, h_s.kettle, h_s.flash⟩

theorem State.setExch_canon (s : State) (a : Nat) (k : Exchange) (h_s : s.Canonical) :
    (State.setExch s a k).Canonical :=
  ⟨h_s.mem, h_s.syn, h_s.kettle, h_s.flash⟩

theorem State.readOwn_canon (s : State) (a : Nat) (n : Nat) (h_s : s.Canonical) :
    (State.readOwn s a n).Canonical := by
  unfold State.readOwn
  repeat' (with_reducible first | assumption | apply State.verify_canon | apply State.ueOutcome_canon | apply canon_ite | simp only [State.canon_mk] | split)

theorem State.unlessFailed_canon (s : State) (t : State) (k : State → State) (h_s : s.Canonical) (h_t : t.Canonical) (h_k : ∀ t, t.Canonical → (k t).Canonical) :
    (State.unlessFailed s t k).Canonical := by
  unfold State.unlessFailed
  repeat' (with_reducible first | assumption | apply h_k | apply canon_ite | simp only [State.canon_mk] | split)

theorem State.takeDigest_canon (s : State) (b : Nat) (k : Nat) (body : List Byte) (h_s : s.Canonical) :
    (State.takeDigest s b k body).Canonical := by
  unfold State.takeDigest
  repeat' (with_reducible first | assumption | (intro _) | apply State.unlessFailed_canon | apply State.readOwn_canon | apply State.pokes_canon | apply canon_ite | simp only [State.canon_mk] | dsimp only | split)

theorem State.digestFrame_canon (s : State) (img : Image) (word : Nat) (f : Frame) (h_s : s.Canonical) :
    (State.digestFrame s img word f).Canonical := by
  unfold State.digestFrame
  repeat' (with_reducible first | assumption | apply State.takeDigest_canon | apply canon_ite | simp only [State.canon_mk] | split)

theorem State.portFrame_canon (s : State) (img : Image) (p : Nat) (f : Frame) (h_s : s.Canonical) :
    (State.portFrame s img p f).Canonical := by
  unfold State.portFrame
  repeat' (with_reducible first | assumption | apply State.digestFrame_canon | apply State.queueFrame_canon | apply canon_ite | simp only [State.canon_mk] | split)

theorem State.wheelSend_canon (s : State) (img : Image) (role : Nat) (f : Frame) (h_s : s.Canonical) :
    (State.wheelSend s img role f).Canonical := by
  unfold State.wheelSend
  repeat' (with_reducible first | assumption | (intro _) | apply State.portFrame_canon | apply canon_ite | simp only [State.canon_mk] | dsimp only | split)

theorem State.sendTo_canon (s : State) (img : Image) (f : Frame) (h_s : s.Canonical) :
    (State.sendTo s img f).Canonical := by
  unfold State.sendTo
  repeat' (with_reducible first | assumption | apply State.wheelSend_canon | apply canon_ite | simp only [State.canon_mk] | split)

theorem State.putVals_canon (s : State) (img : Image) (d : BucketDef) (k : Bucket) (i : Nat) (vs : List Nat) (h_s : s.Canonical) :
    (State.putVals s img d k i vs).Canonical := by
  unfold State.putVals
  repeat' (with_reducible first | assumption | apply State.pokes_canon | apply canon_ite | simp only [State.canon_mk] | split)

theorem State.countHops_canon (s : State) (d : BucketDef) (first : Bool) (xs : List Nat) (hs : List Hop) (h_s : s.Canonical) :
    (State.countHops s d first xs hs).Canonical := by
  unfold State.countHops
  repeat' (with_reducible first | assumption | (intro _) | apply State.countN_canon | apply canon_ite | apply canon_foldl | simp only [State.canon_mk] | dsimp only | split)

theorem State.ringHop_canon (s : State) (img : Image) (b : Nat) (stage : Nat) (j : Nat) (c : Nat) (inp : Option (Nat × List Byte)) (h_s : s.Canonical) :
    (State.ringHop s img b stage j c inp).Canonical := by
  unfold State.ringHop
  repeat' (with_reducible first | assumption | (intro _) | apply State.count_canon | apply State.countHops_canon | apply State.putVals_canon | apply State.setBucket_canon | apply State.wheelSend_canon | apply State.neighbour_canon | apply canon_ite | simp only [State.canon_mk] | dsimp only | split)

theorem State.ringFrame_canon (s : State) (img : Image) (b : Nat) (stage : Nat) (j : Nat) (c : Nat) (inp : Option (Nat × List Byte)) (h_s : s.Canonical) :
    (State.ringFrame s img b stage j c inp).Canonical := by
  unfold State.ringFrame
  repeat' (with_reducible first | assumption | (intro _) | apply State.ringHop_canon | apply State.unlessFailed_canon | apply State.readOwn_canon | apply canon_ite | simp only [State.canon_mk] | dsimp only | split)

theorem State.ringStart_canon (s : State) (img : Image) (b : Nat) (stage : Nat) (h_s : s.Canonical) :
    (State.ringStart s img b stage).Canonical := by
  unfold State.ringStart
  repeat' (with_reducible first | assumption | (intro _) | apply State.ringFrame_canon | apply canon_ite | apply canon_foldl | simp only [State.canon_mk] | dsimp only | split)

theorem State.ringAdvance_canon (s : State) (img : Image) (b : Nat) (stage : Nat) (h_s : s.Canonical) :
    (State.ringAdvance s img b stage).Canonical := by
  unfold State.ringAdvance
  repeat' (with_reducible first | assumption | apply State.setBucket_canon | apply State.ringStart_canon | apply canon_ite | simp only [State.canon_mk] | split)

theorem State.ringIn_canon (s : State) (img : Image) (p : Nat) (f : Frame) (h_s : s.Canonical) :
    exceptCanon (State.ringIn s img p f) := by
  unfold State.ringIn
  repeat' (with_reducible first | assumption | apply State.count_canon | apply State.ringFrame_canon | apply State.ringAdvance_canon | apply canon_ite | apply exceptCanon_ok | apply exceptCanon_error | simp only [State.canon_mk] | (apply Except.canon_ok; assumption) | split)

theorem State.keepContribution_canon (s : State) (img : Image) (b : Nat) (src : Nat) (count : Nat) (body : List Byte) (h_s : s.Canonical) :
    (State.keepContribution s img b src count body).Canonical := by
  unfold State.keepContribution
  repeat' (with_reducible first | assumption | (intro _) | apply State.pokes_canon | apply State.setBucket_canon | apply State.count_canon | apply canon_ite | simp only [State.canon_mk] | dsimp only | split)

theorem State.sendContributions_canon (s : State) (img : Image) (b : Nat) (count : Nat) (c : Option Compressed) (h_s : s.Canonical) :
    (State.sendContributions s img b count c).Canonical := by
  unfold State.sendContributions
  repeat' (with_reducible first | assumption | (intro _) | apply State.keepContribution_canon | apply State.count_canon | apply State.sendTo_canon | apply canon_ite | apply canon_foldl | simp only [State.canon_mk] | dsimp only | split)

theorem State.compressStart_canon (s : State) (img : Image) (b : Nat) (count : Nat) (h_s : s.Canonical) :
    (State.compressStart s img b count).Canon := by
  unfold State.compressStart
  repeat' (with_reducible first | assumption | (intro _) | apply State.fetch_canon | apply State.count_canon | apply State.deposit_canon | apply State.sendContributions_canon | apply State.countN_canon | apply canon_ite | apply Out.canon_ite | apply Out.canon_andThen | apply Out.canon_mk_go | apply Out.canon_mk_stop | apply Out.canon_mk_wait | simp only [State.canon_mk] | (apply Out.canon_go; assumption) | (apply Out.canon_stop; assumption) | dsimp only | split)

theorem State.contributionIn_canon (s : State) (img : Image) (f : Frame) (h_s : s.Canonical) :
    exceptCanon (State.contributionIn s img f) := by
  unfold State.contributionIn
  repeat' (with_reducible first | assumption | (intro _) | apply State.keepContribution_canon | apply State.count_canon | apply canon_ite | apply exceptCanon_ok | apply exceptCanon_error | simp only [State.canon_mk] | (apply Except.canon_ok; assumption) | dsimp only | split)

theorem State.readStaging_canon (s : State) (img : Image) (b : Nat) (h_s : s.Canonical) :
    (State.readStaging s img b).Canonical := by
  unfold State.readStaging
  repeat' (with_reducible first | assumption | (intro _) | apply State.readOwn_canon | apply State.unlessFailed_canon | apply canon_ite | apply canon_foldl | simp only [State.canon_mk] | dsimp only | split)

theorem State.gatherSend_canon (s : State) (img : Image) (b : Nat) (h_s : s.Canonical) :
    (State.gatherSend s img b).Canonical := by
  unfold State.gatherSend
  repeat' (with_reducible first | assumption | (intro _) | apply State.wheelSend_canon | apply State.neighbour_canon | apply canon_ite | apply canon_foldl | simp only [State.canon_mk] | dsimp only | split)

theorem State.gatherAdvance_canon (img : Image) (b n : Nat) :
    ∀ s : State, s.Canonical → (State.gatherAdvance s img b n).Canonical := by
  induction n with
  | zero => exact fun s h => h
  | succ n ih =>
    intro s h
    unfold State.gatherAdvance
    dsimp only
    split
    · have ht := State.setBucket_canon s b { s.bucketSt b with st := .gathered, passed := 5 } h
      exact canon_ite (State.wheelEnter_canon _ _ _ _ ht) ht
    · split
      · split
        · exact ih _ (canon_ite (State.setBucket_canon _ _ _ h) (State.gatherSend_canon _ _ _ (State.setBucket_canon _ _ _ h)))
        · exact h
      · exact h

theorem State.gatherIn_canon (s : State) (img : Image) (p : Nat) (f : Frame) (h_s : s.Canonical) :
    exceptCanon (State.gatherIn s img p f) := by
  unfold State.gatherIn
  repeat' (with_reducible first | assumption | (intro _) | apply State.deposit_canon | apply State.setBucket_canon | apply State.wheelSend_canon | apply State.neighbour_canon | apply State.gatherAdvance_canon | apply canon_ite | apply Out.canon_ite | apply Out.canon_andThen | apply Out.canon_mk_go | apply Out.canon_mk_stop | apply Out.canon_mk_wait | apply exceptCanon_ok | apply exceptCanon_error | simp only [State.canon_mk] | (apply Out.canon_go; assumption) | (apply Out.canon_stop; assumption) | (apply Except.canon_ok; assumption) | dsimp only | split)

theorem State.rowIn_canon (s : State) (img : Image) (ret : Bool) (f : Frame) (h_s : s.Canonical) :
    exceptCanon (State.rowIn s img ret f) := by
  unfold State.rowIn
  repeat' (with_reducible first | assumption | (intro _) | apply State.count_canon | apply State.deposit_canon | apply State.setExch_canon | apply canon_ite | apply Out.canon_ite | apply Out.canon_andThen | apply Out.canon_mk_go | apply Out.canon_mk_stop | apply Out.canon_mk_wait | apply exceptCanon_ok | apply exceptCanon_error | simp only [State.canon_mk] | (apply Out.canon_go; assumption) | (apply Out.canon_stop; assumption) | (apply Except.canon_ok; assumption) | dsimp only | split)

theorem State.rowCountIn_canon (s : State) (img : Image) (f : Frame) (h_s : s.Canonical) :
    exceptCanon (State.rowCountIn s img f) := by
  unfold State.rowCountIn
  repeat' (with_reducible first | assumption | (intro _) | apply State.count_canon | apply State.deposit_canon | apply State.setExch_canon | apply canon_ite | apply Out.canon_ite | apply Out.canon_andThen | apply Out.canon_mk_go | apply Out.canon_mk_stop | apply Out.canon_mk_wait | apply exceptCanon_ok | apply exceptCanon_error | simp only [State.canon_mk] | (apply Out.canon_go; assumption) | (apply Out.canon_stop; assumption) | (apply Except.canon_ok; assumption) | dsimp only | split)

theorem State.readDispatch_canon (s : State) (img : Image) (c : ExchCtx) (h_s : s.Canonical) :
    (State.readDispatch s img c).Canon := by
  unfold State.readDispatch
  repeat' (with_reducible first | assumption | (intro _) | apply State.fetch_canon | apply canon_ite | apply Out.canon_ite | apply Out.canon_andThen | apply Out.canon_mk_go | apply Out.canon_mk_stop | apply Out.canon_mk_wait | simp only [State.canon_mk] | (apply Out.canon_go; assumption) | (apply Out.canon_stop; assumption) | dsimp only | split)

theorem State.readReturn_canon (s : State) (img : Image) (c : ExchCtx) (y : ExchDef) (h_s : s.Canonical) :
    (State.readReturn s img c y).Canon := by
  unfold State.readReturn
  repeat' (with_reducible first | assumption | (intro _) | apply State.fetch_canon | apply canon_ite | apply Out.canon_ite | apply Out.canon_andThen | apply Out.canon_mk_go | apply Out.canon_mk_stop | apply Out.canon_mk_wait | simp only [State.canon_mk] | (apply Out.canon_go; assumption) | (apply Out.canon_stop; assumption) | dsimp only | split)

theorem State.readExch_canon (s : State) (img : Image) (a : Nat) (c : ExchCtx) (h_s : s.Canonical) :
    (State.readExch s img a c).Canon := by
  unfold State.readExch
  repeat' (with_reducible first | assumption | (intro _) | apply State.readReturn_canon | apply State.readDispatch_canon | apply canon_ite | apply Out.canon_ite | apply Out.canon_andThen | apply Out.canon_mk_go | apply Out.canon_mk_stop | apply Out.canon_mk_wait | simp only [State.canon_mk] | (apply Out.canon_go; assumption) | (apply Out.canon_stop; assumption) | dsimp only | split)

theorem State.keepRecord_canon (s : State) (src : Nat) (w0 : Word64) (w1 : Word64) (bytes : List Nat) (h_s : s.Canonical) :
    (State.keepRecord s src w0 w1 bytes).Canonical :=
  ⟨h_s.mem, h_s.syn, h_s.kettle, h_s.flash⟩

theorem State.sendRecord_canon (s : State) (img : Image) (src : Nat) (w : Word64 × Word64) (bytes : List Nat) (h_s : s.Canonical) :
    (State.sendRecord s img src w bytes).Canonical := by
  unfold State.sendRecord
  repeat' (with_reducible first | assumption | (intro _) | apply State.sendTo_canon | apply canon_ite | apply canon_foldl | simp only [State.canon_mk] | dsimp only | split)

theorem State.voteDigest_canon (s : State) (img : Image) (h_s : s.Canonical) :
    (State.voteDigest s img).Canonical := by
  unfold State.voteDigest
  repeat' (with_reducible first | assumption | apply State.keepRecord_canon | apply State.sendRecord_canon | apply canon_ite | simp only [State.canon_mk] | split)

theorem State.compareDigests_canon (s : State) (img : Image) (p : Nat) (body : List Byte) (h_s : s.Canonical) :
    (State.compareDigests s img p body).Canonical := by
  unfold State.compareDigests
  repeat' (with_reducible first | assumption | (intro _) | apply State.unlessFailed_canon | apply State.readOwn_canon | apply State.countN_canon | apply State.voteDigest_canon | apply canon_ite | apply canon_foldl | simp only [State.canon_mk] | dsimp only | split)

theorem State.controlIn_canon (s : State) (img : Image) (p : Nat) (f : Frame) (h_s : s.Canonical) :
    exceptCanon (State.controlIn s img p f) := by
  unfold State.controlIn
  repeat' (with_reducible first | assumption | apply State.compareDigests_canon | apply State.keepRecord_canon | apply canon_ite | apply exceptCanon_ok | apply exceptCanon_error | simp only [State.canon_mk] | (apply Except.canon_ok; assumption) | split)

theorem State.refuseWindow_canon (s : State) (p : Nat) (f : Frame) (reason : Nat) (h_s : s.Canonical) :
    (State.refuseWindow s p f reason).Canonical := by
  unfold State.refuseWindow
  repeat' (with_reducible first | assumption | apply State.queueFrame_canon | apply canon_ite | simp only [State.canon_mk] | split)

theorem State.windowIn_canon (s : State) (p : Nat) (f : Frame) (h_s : s.Canonical) :
    exceptCanon (State.windowIn s p f) := by
  unfold State.windowIn
  repeat' (with_reducible first | assumption | (intro _) | apply State.count_canon | apply State.refuseWindow_canon | apply State.present_canon | apply State.pokes_canon | apply State.wheelEnter_canon | apply canon_ite | apply canon_foldl | apply exceptCanon_ok | apply exceptCanon_error | simp only [State.canon_mk] | (apply Except.canon_ok; assumption) | dsimp only | split)

theorem State.frameHere_canon (s : State) (img : Image) (p : Nat) (f : Frame) (h_s : s.Canonical) :
    exceptCanon (State.frameHere s img p f) := by
  unfold State.frameHere
  repeat' (with_reducible first | assumption | apply State.ringIn_canon | apply State.contributionIn_canon | apply State.gatherIn_canon | apply State.rowIn_canon | apply State.rowCountIn_canon | apply State.controlIn_canon | apply canon_ite | apply exceptCanon_ok | apply exceptCanon_error | simp only [State.canon_mk] | (apply Except.canon_ok; assumption) | split)

theorem State.tryFrame_canon (s : State) (p : Nat) (f : Frame) (h_s : s.Canonical) :
    exceptCanon (State.tryFrame s p f) := by
  unfold State.tryFrame
  repeat' (with_reducible first | assumption | apply State.windowIn_canon | apply State.sendTo_canon | apply State.frameHere_canon | apply canon_ite | apply exceptCanon_ok | apply exceptCanon_error | simp only [State.canon_mk] | (apply Except.canon_ok; assumption) | split)

theorem State.tryHeld_canon (s : State) (x2 : List (Fin 12 × Frame)) (h_s : s.Canonical) :
    (State.tryHeld s x2).Canonical := by
  fun_induction State.tryHeld s x2
  all_goals repeat' (with_reducible first | assumption | (intro _) | (apply_assumption) | apply State.tryFrame_canon | apply State.touch_canon | apply canon_ite | simp only [State.canon_mk] | (apply Except.canon_ok; assumption) | split)

theorem State.drainHeld_canon (n : Nat) : ∀ s : State, s.Canonical → (State.drainHeld s n).Canonical := by
  induction n with
  | zero => exact fun s h => h
  | succ n ih =>
    intro s h
    have ht : (({ s with wheel.heldFrames := [] } : State).tryHeld s.wheel.heldFrames).Canonical :=
      State.tryHeld_canon _ _ ⟨h.mem, h.syn, h.kettle, h.flash⟩
    unfold State.drainHeld
    exact canon_ite (ih _ ht) ht

theorem State.wheelDrain_canon (s : State) (h_s : s.Canonical) :
    (State.wheelDrain s).Canonical := by
  unfold State.wheelDrain
  repeat' (with_reducible first | assumption | apply State.drainHeld_canon | apply canon_ite | simp only [State.canon_mk] | split)

theorem State.digestHeld_canon (s : State) (img : Image) (h_s : s.Canonical) :
    (State.digestHeld s img).Canonical := by
  unfold State.digestHeld
  repeat' (with_reducible first | assumption | (intro _) | apply State.unlessFailed_canon | apply State.digestFrame_canon | apply canon_ite | apply canon_foldl | simp only [State.canon_mk] | dsimp only | split)

theorem State.frameNow_canon (s : State) (p : Fin 12) (f : Frame) (h_s : s.Canonical) :
    (State.frameNow s p f).Canonical := by
  unfold State.frameNow
  repeat' (with_reducible first | assumption | apply State.tryFrame_canon | apply State.wheelDrain_canon | apply State.touch_canon | apply canon_ite | simp only [State.canon_mk] | (apply Except.canon_ok; assumption) | split)

theorem State.groupFrame_canon (s : State) (img : Image) (p : Fin 12) (f : Frame) (h_s : s.Canonical) :
    (State.groupFrame s img p f).Canonical := by
  unfold State.groupFrame
  repeat' (with_reducible first | assumption | (intro _) | apply State.unlessFailed_canon | apply State.digestFrame_canon | apply State.sendTo_canon | apply State.frameNow_canon | apply canon_ite | simp only [State.canon_mk] | dsimp only | split)

theorem State.frameArrive_canon (s : State) (p : Fin 12) (f : Frame) (h_s : s.Canonical) :
    (State.frameArrive s p f).Canonical := by
  unfold State.frameArrive
  repeat' (with_reducible first | assumption | apply State.count_canon | apply State.frameNow_canon | apply State.groupFrame_canon | apply canon_ite | simp only [State.canon_mk] | split)

theorem State.frameCmd_canon (s : State) (p : Fin 12) (f : Frame) (kind : Byte) (h_s : s.Canonical) :
    (State.frameCmd s p f kind).Canonical := by
  unfold State.frameCmd
  repeat' (with_reducible first | assumption | apply State.frameArrive_canon | apply canon_ite | simp only [State.canon_mk] | split)

theorem State.neighbourLoss_canon (s : State) (p : Nat) (h_s : s.Canonical) :
    (State.neighbourLoss s p).Canonical := by
  unfold State.neighbourLoss
  repeat' (with_reducible first | assumption | apply canon_ite | simp only [State.canon_mk] | split)

theorem State.bucketLaunch_canon (s : State) (h_s : s.Canonical) :
    (State.bucketLaunch s).Canonical := by
  unfold State.bucketLaunch
  repeat' (with_reducible first | assumption | (intro _) | apply State.unlessFailed_canon | apply State.readOwn_canon | apply State.setBucket_canon | apply State.wheelEnter_canon | apply State.wheelDrain_canon | apply canon_ite | simp only [State.canon_mk] | dsimp only | split)

theorem State.reduceStart_canon (s : State) (img : Image) (b : Nat) (count : Nat) (h_s : s.Canonical) :
    (State.reduceStart s img b count).Canon := by
  unfold State.reduceStart
  repeat' (with_reducible first | assumption | (intro _) | apply State.count_canon | apply State.fetch_canon | apply State.setBucket_canon | apply State.compressStart_canon | apply State.countHops_canon | apply State.putVals_canon | apply State.ringStart_canon | apply canon_ite | apply Out.canon_ite | apply Out.canon_andThen | apply Out.canon_mk_go | apply Out.canon_mk_stop | apply Out.canon_mk_wait | simp only [State.canon_mk] | (apply Out.canon_go; assumption) | (apply Out.canon_stop; assumption) | dsimp only | split)

theorem State.fillRelease_canon (s : State) (b : Nat) (h_s : s.Canonical) :
    (State.fillRelease s b).Canonical := by
  unfold State.fillRelease
  repeat' (with_reducible first | assumption | (intro _) | apply State.count_canon | apply State.wheelTake_canon | apply State.reduceStart_canon | apply State.wheelDrain_canon | apply State.touch_canon | apply canon_ite | apply Out.canon_ite | apply Out.canon_andThen | apply Out.canon_mk_go | apply Out.canon_mk_stop | apply Out.canon_mk_wait | simp only [State.canon_mk] | (apply Out.canon_go; assumption) | (apply Out.canon_stop; assumption) | dsimp only | split)

theorem State.bucketReduced_canon (s : State) (b : Nat) (h_s : s.Canonical) :
    (State.bucketReduced s b).Canonical := by
  unfold State.bucketReduced
  repeat' (with_reducible first | assumption | (intro _) | apply State.unlessFailed_canon | apply State.readStaging_canon | apply State.deposit_canon | apply State.touch_canon | apply State.countN_canon | apply State.setBucket_canon | apply State.wheelEnter_canon | apply canon_ite | apply Out.canon_ite | apply Out.canon_andThen | apply Out.canon_mk_go | apply Out.canon_mk_stop | apply Out.canon_mk_wait | simp only [State.canon_mk] | (apply Out.canon_go; assumption) | (apply Out.canon_stop; assumption) | dsimp only | split)

theorem State.gatherStart_canon (s : State) (b : Nat) (h_s : s.Canonical) :
    (State.gatherStart s b).Canonical := by
  unfold State.gatherStart
  repeat' (with_reducible first | assumption | (intro _) | apply State.wheelTake_canon | apply State.setBucket_canon | apply State.fetch_canon | apply State.gatherSend_canon | apply State.gatherAdvance_canon | apply State.wheelDrain_canon | apply State.touch_canon | apply canon_ite | apply Out.canon_ite | apply Out.canon_andThen | apply Out.canon_mk_go | apply Out.canon_mk_stop | apply Out.canon_mk_wait | simp only [State.canon_mk] | (apply Out.canon_go; assumption) | (apply Out.canon_stop; assumption) | dsimp only | split)

theorem State.enterSend_canon (s : State) (img : Image) (a : Nat) (h_s : s.Canonical) :
    (State.enterSend s img a).Canonical := by
  unfold State.enterSend
  repeat' (with_reducible first | assumption | apply State.wheelEnter_canon | apply State.setExch_canon | apply canon_ite | simp only [State.canon_mk] | split)

theorem State.sendRows_canon (s : State) (img : Image) (fs : List Frame) (h_s : s.Canonical) :
    (State.sendRows s img fs).Canonical := by
  unfold State.sendRows
  repeat' (with_reducible first | assumption | (intro _) | apply State.frameNow_canon | apply State.sendTo_canon | apply canon_ite | apply canon_foldl | simp only [State.canon_mk] | dsimp only | split)

theorem State.exchangeSend_canon (s : State) (a : Nat) (h_s : s.Canonical) :
    (State.exchangeSend s a).Canonical := by
  unfold State.exchangeSend
  repeat' (with_reducible first | assumption | (intro _) | apply State.wheelTake_canon | apply State.setExch_canon | apply State.enterSend_canon | apply State.readExch_canon | apply State.sendRows_canon | apply State.touch_canon | apply canon_ite | apply Out.canon_ite | apply Out.canon_andThen | apply Out.canon_mk_go | apply Out.canon_mk_stop | apply Out.canon_mk_wait | simp only [State.canon_mk] | (apply Out.canon_go; assumption) | (apply Out.canon_stop; assumption) | dsimp only | split)

theorem State.exchangeReceived_canon (s : State) (a : Nat) (h_s : s.Canonical) :
    (State.exchangeReceived s a).Canonical := by
  unfold State.exchangeReceived
  repeat' (with_reducible first | assumption | apply State.wheelEnter_canon | apply State.setExch_canon | apply canon_ite | simp only [State.canon_mk] | split)

theorem State.wheelCommitEntry_canon (s : State) (h_s : s.Canonical) :
    (State.wheelCommitEntry s).Canonical := by
  unfold State.wheelCommitEntry
  repeat' (with_reducible first | assumption | apply State.wheelEnter_canon | apply canon_ite | simp only [State.canon_mk] | split)

/-! ### FlumeRx -/

theorem State.dataBytes_canon (s : State) (p : Fin 12) (f : FlitIn) (h_s : s.Canonical) :
    (State.dataBytes s p f).Canonical := by
  unfold State.dataBytes
  repeat' (with_reducible first | assumption | (intro _) | apply State.count_canon | apply State.frameArrive_canon | apply State.setFport_canon | apply canon_ite | apply canon_foldl | simp only [State.canon_mk] | dsimp only | split)

theorem State.dataIn_canon (s : State) (p : Fin 12) (words : List (BitVec 72)) (h_s : s.Canonical) :
    (State.dataIn s p words).Canonical := by
  unfold State.dataIn
  repeat' (with_reducible first | assumption | (intro _) | apply State.flitArrive_canon | apply State.sequenced_canon | apply State.dataBytes_canon | apply State.pumpAll_canon | apply canon_ite | simp only [State.canon_mk] | dsimp only | split)

/-! ### Health -/

theorem State.snapTrigger_canon (s : State) (h_s : s.Canonical) :
    (State.snapTrigger s).1.Canonical := by
  unfold State.snapTrigger
  repeat' (with_reducible first | assumption | apply State.newOp_canon | apply canon_ite | apply fst_canon_ite | apply canon_foldl_fst | simp only [State.canon_mk] | split)

theorem State.raiseTrigger_canon (s : State) (h_s : s.Canonical) :
    (State.raiseTrigger s).Canonical := by
  unfold State.raiseTrigger
  repeat' (with_reducible first | assumption | apply State.count_canon | apply State.snapTrigger_canon | apply canon_ite | simp only [State.canon_mk] | split)

theorem State.judgeRisk_canon (s : State) (r : Nat) (h_s : s.Canonical) :
    (State.judgeRisk s r).Canonical := by
  unfold State.judgeRisk
  repeat' (with_reducible first | assumption | apply State.raiseTrigger_canon | apply canon_ite | simp only [State.canon_mk] | split)

theorem State.healthEvaluation_canon (s : State) (h_s : s.Canonical) :
    (State.healthEvaluation s).Canonical := by
  unfold State.healthEvaluation
  repeat' (with_reducible first | assumption | apply State.judgeRisk_canon | apply canon_ite | simp only [State.canon_mk] | split)

theorem State.scrubWord_canon (s : State) (patrol : Bool) (w : Nat) (h_s : s.Canonical) :
    (State.scrubWord s patrol w).Canonical := by
  unfold State.scrubWord
  repeat' (with_reducible first | assumption | apply State.settle_canon | apply State.count_canon | apply State.logUe_canon | apply State.suspect_canon | apply State.setMill_canon | apply canon_ite | simp only [State.canon_mk] | split)

theorem State.scrubRange_canon (s : State) (patrol : Bool) (a : Nat) (n : Nat) (h_s : s.Canonical) :
    (State.scrubRange s patrol a n).Canonical := by
  unfold State.scrubRange
  repeat' (with_reducible first | assumption | (intro _) | apply State.scrubWord_canon | apply canon_ite | apply canon_foldl | simp only [State.canon_mk] | dsimp only | split)

theorem State.patrolRead_canon (s : State) (p : Nat) (h_s : s.Canonical) :
    (State.patrolRead s p).Canonical := by
  unfold State.patrolRead
  repeat' (with_reducible first | assumption | apply State.scrubRange_canon | apply canon_ite | simp only [State.canon_mk] | split)

theorem State.scrubStops_canon (s : State) (o : Op) (h_s : s.Canonical) :
    (State.scrubStops s o).Canonical := by
  unfold State.scrubStops
  repeat' (with_reducible first | assumption | apply State.opMove_canon | apply State.scrubLine_canon | apply canon_ite | simp only [State.canon_mk] | split)

theorem State.scrubLine_canon (s : State) (h_s : s.Canonical) :
    (State.scrubLine s).Canonical := by
  unfold State.scrubLine
  repeat' (with_reducible first | assumption | apply State.scrub_canon | apply State.scrubRange_canon | apply State.opProgress_canon | apply State.scrubStops_canon | apply canon_ite | simp only [State.canon_mk] | split)

theorem scrubRun_canon (payload : List Byte) (v : State) (h_v : v.Canonical) :
    (scrubRun payload v).st.Canonical := by
  unfold scrubRun
  repeat' (with_reducible first | assumption | apply State.wake_canon | apply State.scrub_canon | apply State.selfTest_canon | apply State.idle_canon | apply answer_canon | apply State.newOp_canon | apply State.scrubLine_canon | apply LeatAns.mk3_canon | apply State.opMove_canon | apply canon_ite | simp only [State.canon_mk] | split)

theorem State.scrub_canon (s : State) (h : LeatHdr) (payload : List Byte) (h_s : s.Canonical) :
    (State.scrub s h payload).Canonical := by
  unfold State.scrub
  repeat' (with_reducible first | assumption | apply State.request_canon | apply scrubRun_canon | apply canon_ite | simp only [State.canon_mk] | split)

theorem selfTestRun_canon (v : State) (h_v : v.Canonical) :
    (selfTestRun v).st.Canonical := by
  unfold selfTestRun
  repeat' (with_reducible first | assumption | apply State.wake_canon | apply State.idle_canon | apply State.scrub_canon | apply State.selfTest_canon | apply answer_canon | apply State.uninstall_canon | apply State.newOp_canon | apply LeatAns.mk3_canon | apply canon_ite | simp only [State.canon_mk] | split)

theorem State.selfTest_canon (s : State) (h : LeatHdr) (payload : List Byte) (h_s : s.Canonical) :
    (State.selfTest s h payload).Canonical := by
  unfold State.selfTest
  repeat' (with_reducible first | assumption | apply State.request_canon | apply selfTestRun_canon | apply canon_ite | simp only [State.canon_mk] | split)

theorem State.wipeMill_canon (s : State) (m : Nat) (h_s : s.Canonical) :
    (State.wipeMill s m).Canonical := by
  unfold State.wipeMill
  repeat' (with_reducible first | assumption | (intro _) | apply State.zeroRange_canon | apply canon_ite | apply canon_foldl | apply Out.canon_ite | apply Out.canon_andThen | apply Out.canon_mk_go | apply Out.canon_mk_stop | apply Out.canon_mk_wait | apply fst_canon_ite | apply canon_foldl_fst | apply Out.fst_canon_ite | apply Out.canon_foldl | apply KStep.canon_next | apply KStep.canon_wait | apply KStep.canon_stop | apply optCanon_some | apply optCanon_none | apply exceptCanon_ok | apply exceptCanon_error | simp only [State.canon_mk] | (apply Out.canon_go; assumption) | (apply Out.canon_stop; assumption) | (apply Except.canon_ok; assumption) | (apply opt_canon_some; assumption) | dsimp only | simp only [State.canon_iff] | apply And.intro | apply State.Canonical.mem | apply State.Canonical.syn | apply State.Canonical.kettle | apply State.Canonical.flash | apply NMap.wf_nil | apply NMap.wf_set | apply NMap.wf_clearRange | apply NMap.wf_foldl | apply flashWrite_wf | apply eraseFw_wf | apply programFw_wf | apply ordAppend_wf | split)

theorem State.testOutcome_canon (s : State) (m : Nat) (pass : Bool) (h_s : s.Canonical) :
    (State.testOutcome s m pass).Canonical := by
  unfold State.testOutcome
  repeat' (with_reducible first | assumption | apply State.suspect_canon | apply State.setMill_canon | apply State.retireMill_canon | apply canon_ite | simp only [State.canon_mk] | split)

theorem State.addStatus_canon (s : State) (h : Word32) (n : Nat) (h_s : s.Canonical) :
    (State.addStatus s h n).Canonical :=
  ⟨h_s.mem, h_s.syn, h_s.kettle, h_s.flash⟩

theorem State.testStops_canon (s : State) (h : Word32) (h_s : s.Canonical) :
    (State.testStops s h).Canonical := by
  unfold State.testStops
  repeat' (with_reducible first | assumption | apply State.opMove_canon | apply canon_ite | simp only [State.canon_mk] | split)

theorem State.selfTestMill_canon (s : State) (pass : Bool) (h_s : s.Canonical) :
    (State.selfTestMill s pass).Canonical := by
  unfold State.selfTestMill
  repeat' (with_reducible first | assumption | apply State.selfTest_canon | apply State.wipeMill_canon | apply State.testOutcome_canon | apply State.addStatus_canon | apply State.opProgress_canon | apply State.testStops_canon | apply canon_ite | simp only [State.canon_mk] | split)

/-! ### DataSvc -/

theorem State.readCursor_canon (s : State) (img : Image) (h_s : s.Canonical) :
    (State.readCursor s img).Canonical := by
  unfold State.readCursor
  repeat' (with_reducible first | assumption | apply State.readRange_canon | apply canon_ite | simp only [State.canon_mk] | split)

theorem State.setData_canon (s : State) (d : DataSvc) (h_s : s.Canonical) :
    (State.setData s d).Canonical :=
  ⟨h_s.mem, h_s.syn, h_s.kettle, h_s.flash⟩

theorem State.putWorking_canon (s : State) (img : Image) (c : Cursor) (h_s : s.Canonical) :
    (State.putWorking s img c).Canonical := by
  unfold State.putWorking
  repeat' (with_reducible first | assumption | apply State.pokes_canon | apply canon_ite | simp only [State.canon_mk] | split)

theorem State.writeItems_canon (s : State) (img : Image) (b : Nat) (items : Nat) (h_s : s.Canonical) :
    (State.writeItems s img b items).Canonical := by
  unfold State.writeItems
  repeat' (with_reducible first | assumption | (intro _) | apply canon_ite | apply canon_foldl | simp only [State.canon_mk] | dsimp only | split)

theorem State.nextMb_canon (s : State) (img : Image) (h_s : s.Canonical) :
    (State.nextMb s img).Canonical := by
  unfold State.nextMb
  repeat' (with_reducible first | assumption | apply State.writeItems_canon | apply State.setData_canon | apply canon_ite | simp only [State.canon_mk] | split)

theorem State.abandonShard_canon (s : State) (img : Image) (c : Cursor) (h_s : s.Canonical) :
    (State.abandonShard s img c).Canonical := by
  unfold State.abandonShard
  repeat' (with_reducible first | assumption | apply State.count_canon | apply State.putWorking_canon | apply State.setData_canon | apply canon_ite | simp only [State.canon_mk] | split)

theorem State.wantHeaders_canon (img : Image) (n : Nat) : ∀ s : State, s.Canonical → (State.wantHeaders s img n).Canonical := by
  induction n with
  | zero => exact fun s h => h
  | succ n ih =>
    intro s h
    have hr := State.readCursor_canon s img h
    unfold State.wantHeaders
    dsimp only
    generalize s.readCursor img = r at hr ⊢
    split
    · exact h
    · split
      · exact ih _ (State.nextMb_canon _ _ h)
      · split
        · exact hr
        · split
          · exact ih _ (State.putWorking_canon _ _ _ hr)
          · split
            · exact ih _ (State.putWorking_canon _ _ _ (State.count_canon _ _ hr))
            · split
              · exact ih _ (State.abandonShard_canon _ _ _ (State.countN_canon _ _ _ hr))
              · exact State.roceIssue_canon _ _ _ _ _ _ _ _ _ (State.setData_canon _ _ (State.putWorking_canon _ _ _ hr))


theorem State.wantBodies_canon (img : Image) (n : Nat) : ∀ s : State, s.Canonical → (State.wantBodies s img n).Canonical := by
  induction n with
  | zero => exact fun s h => h
  | succ n ih =>
    intro s h
    unfold State.wantBodies
    dsimp only
    split
    · split
      · exact h
      · split
        · exact ih _ (State.setData_canon _ _ (State.raceDone_canon _ _ h))
        · exact State.roceIssue_canon _ _ _ _ _ _ _ _ _ (State.setData_canon _ _ h)
    · exact State.setData_canon _ _ h
    · exact h

theorem State.dataPump_canon (s : State) (h_s : s.Canonical) :
    (State.dataPump s).Canonical := by
  unfold State.dataPump
  repeat' (with_reducible first | assumption | apply State.wantBodies_canon | apply State.wantHeaders_canon | apply canon_ite | simp only [State.canon_mk] | split)

theorem State.dataStart_canon (s : State) (h_s : s.Canonical) :
    (State.dataStart s).Canonical := by
  unfold State.dataStart
  repeat' (with_reducible first | assumption | (intro _) | apply State.dataPump_canon | apply canon_ite | simp only [State.canon_mk] | dsimp only | split)

theorem State.headerIn_canon (s : State) (img : Image) (bs : List Byte) (h_s : s.Canonical) :
    (State.headerIn s img bs).Canonical := by
  unfold State.headerIn
  repeat' (with_reducible first | assumption | apply State.count_canon | apply State.putWorking_canon | apply State.setData_canon | apply canon_ite | simp only [State.canon_mk] | split)

theorem State.bodyIn_canon (s : State) (img : Image) (bs : List Byte) (h_s : s.Canonical) :
    (State.bodyIn s img bs).Canonical := by
  unfold State.bodyIn
  repeat' (with_reducible first | assumption | (intro _) | apply State.deposit_canon | apply State.touch_canon | apply State.countN_canon | apply State.raceDone_canon | apply State.setData_canon | apply canon_ite | apply Out.canon_ite | apply Out.canon_andThen | apply Out.canon_mk_go | apply Out.canon_mk_stop | apply Out.canon_mk_wait | simp only [State.canon_mk] | (apply Out.canon_go; assumption) | (apply Out.canon_stop; assumption) | dsimp only | split)

theorem State.dataArrive_canon (s : State) (bs : List Byte) (h_s : s.Canonical) :
    (State.dataArrive s bs).Canonical := by
  unfold State.dataArrive
  repeat' (with_reducible first | assumption | apply State.headerIn_canon | apply State.dataPump_canon | apply State.bodyIn_canon | apply canon_ite | simp only [State.canon_mk] | split)

theorem State.abandonBodies_canon (s : State) (img : Image) (h_s : s.Canonical) :
    (State.abandonBodies s img).Canonical := by
  unfold State.abandonBodies
  repeat' (with_reducible first | assumption | (intro _) | apply State.count_canon | apply State.putWorking_canon | apply State.setData_canon | apply canon_ite | apply canon_foldl | simp only [State.canon_mk] | dsimp only | split)

theorem State.dataRetry_canon (s : State) (n : Nat) (q : Qp) (r : Req) (h_s : s.Canonical) :
    (State.dataRetry s n q r).Canonical := by
  unfold State.dataRetry
  repeat' (with_reducible first | assumption | (intro _) | apply State.count_canon | apply State.setData_canon | apply State.setQp_canon | apply State.roceSend_canon | apply State.abandonShard_canon | apply State.dataPump_canon | apply State.abandonBodies_canon | apply canon_ite | simp only [State.canon_mk] | dsimp only | split)

/-! ### Runtime -/

theorem State.leaveContext_canon (s : State) (h_s : s.Canonical) :
    (State.leaveContext s).Canonical := by
  unfold State.leaveContext
  repeat' (with_reducible first | assumption | apply State.setLending_canon | apply canon_ite | simp only [State.canon_mk] | split)

theorem State.boundaryStop_canon (s : State) (img : Image) (h_s : s.Canonical) :
    optCanon (State.boundaryStop s img) := by
  unfold State.boundaryStop
  repeat' (with_reducible first | assumption | apply State.endJob_canon | apply State.leaveContext_canon | apply State.opMove_canon | apply canon_ite | apply optCanon_some | apply optCanon_none | simp only [State.canon_mk] | split)

theorem State.writeBlock_canon (s : State) (img : Image) (h_s : s.Canonical) :
    (State.writeBlock s img).Canonical := by
  unfold State.writeBlock
  repeat' (with_reducible first | assumption | apply State.pokes_canon | apply canon_ite | simp only [State.canon_mk] | split)

theorem State.readBlock_canon (s : State) (img : Image) (h_s : s.Canonical) :
    (State.readBlock s img).Canonical := by
  unfold State.readBlock
  repeat' (with_reducible first | assumption | apply canon_ite | simp only [State.canon_mk] | split)

theorem State.startCycles_canon (s : State) (img : Image) (h_s : s.Canonical) :
    (State.startCycles s img).Canonical := by
  unfold State.startCycles
  repeat' (with_reducible first | assumption | (intro _) | apply State.setPortPos_canon | apply canon_ite | apply canon_foldl | simp only [State.canon_mk] | dsimp only | split)

theorem State.startBodies_canon (s : State) (img : Image) (h_s : s.Canonical) :
    (State.startBodies s img).Canonical := by
  unfold State.startBodies
  repeat' (with_reducible first | assumption | (intro _) | apply State.setStream_canon | apply canon_ite | apply canon_foldl | simp only [State.canon_mk] | dsimp only | split)

theorem State.zeroDigests_canon (s : State) (img : Image) (h_s : s.Canonical) :
    (State.zeroDigests s img).Canonical := by
  unfold State.zeroDigests
  repeat' (with_reducible first | assumption | (intro _) | apply State.zeroRange_canon | apply canon_ite | apply canon_foldl | simp only [State.canon_mk] | dsimp only | split)

theorem State.wheelBegin_canon (s : State) (img : Image) (h_s : s.Canonical) :
    (State.wheelBegin s img).Canonical := by
  unfold State.wheelBegin
  repeat' (with_reducible first | assumption | apply State.wheelCounted_canon | apply State.weirFill_canon | apply State.enterSend_canon | apply State.wheelDrain_canon | apply canon_ite | simp only [State.canon_mk] | split)

theorem State.admitStep_canon (s : State) (img : Image) (h_s : s.Canonical) :
    (State.admitStep s img).Canonical := by
  unfold State.admitStep
  repeat' (with_reducible first | assumption | (intro _) | apply State.pokes_canon | apply State.zeroDigests_canon | apply State.digestHeld_canon | apply State.startCycles_canon | apply State.startBodies_canon | apply State.setLending_canon | apply State.moved_canon | apply State.wheelBegin_canon | apply State.dataStart_canon | apply canon_ite | apply canon_foldl | simp only [State.canon_mk] | dsimp only | split)

theorem State.readHistories_canon (s : State) (img : Image) (h_s : s.Canonical) :
    (State.readHistories s img).Canonical := by
  unfold State.readHistories
  repeat' (with_reducible first | assumption | (intro _) | apply State.readRange_canon | apply canon_ite | apply canon_foldl | simp only [State.canon_mk] | dsimp only | split)

theorem State.stepAdmit_canon (s : State) (h_s : s.Canonical) :
    (State.stepAdmit s).Canonical := by
  unfold State.stepAdmit
  repeat' (with_reducible first | assumption | apply State.lostAtBoundary_canon | apply State.boundaryStop_canon | apply State.readHistories_canon | apply State.touch_canon | apply State.admitStep_canon | apply canon_ite | simp only [State.canon_mk] | (apply opt_canon_some; assumption) | split)

theorem State.sendDigests_canon (s : State) (img : Image) (h_s : s.Canonical) :
    (State.sendDigests s img).Canonical := by
  unfold State.sendDigests
  repeat' (with_reducible first | assumption | (intro _) | apply State.portFrame_canon | apply State.neighbour_canon | apply canon_ite | apply canon_foldl | simp only [State.canon_mk] | dsimp only | split)

theorem State.commitExchange_canon (s : State) (h_s : s.Canonical) :
    (State.commitExchange s).Canonical := by
  unfold State.commitExchange
  repeat' (with_reducible first | assumption | apply State.sendDigests_canon | apply State.keepRecord_canon | apply State.sendRecord_canon | apply State.wheelDrain_canon | apply canon_ite | simp only [State.canon_mk] | split)

theorem State.stepScale_canon (s : State) (img : Image) (ovf : Bool) (h_s : s.Canonical) :
    (State.stepScale s img ovf).Canonical := by
  unfold State.stepScale
  repeat' (with_reducible first | assumption | apply State.count_canon | apply State.raise_canon | apply canon_ite | simp only [State.canon_mk] | split)

theorem State.stepEpochs_canon (s : State) (img : Image) (h_s : s.Canonical) :
    (State.stepEpochs s img).Canonical := by
  unfold State.stepEpochs
  repeat' (with_reducible first | assumption | (intro _) | apply State.pokes_canon | apply canon_ite | apply canon_foldl | simp only [State.canon_mk] | dsimp only | split)

theorem State.stepHistories_canon (s : State) (img : Image) (h_s : s.Canonical) :
    (State.stepHistories s img).Canonical := by
  unfold State.stepHistories
  repeat' (with_reducible first | assumption | (intro _) | apply State.readHistories_canon | apply State.poke_canon | apply State.pokes_canon | apply canon_ite | apply canon_foldl | simp only [State.canon_mk] | dsimp only | split)

theorem State.stepIndex_canon (s : State) (img : Image) (step : Nat) (h_s : s.Canonical) :
    (State.stepIndex s img step).Canonical := by
  unfold State.stepIndex
  repeat' (with_reducible first | assumption | (intro _) | apply State.pokes_canon | apply canon_ite | apply canon_foldl | simp only [State.canon_mk] | dsimp only | split)

theorem State.stepStats_canon (s : State) (img : Image) (v : Votes) (h_s : s.Canonical) :
    (State.stepStats s img v).Canonical := by
  unfold State.stepStats
  repeat' (with_reducible first | assumption | (intro _) | apply canon_ite | simp only [State.canon_mk] | dsimp only | split)

theorem State.commit_canon (s : State) (img : Image) (v : Votes) (h_s : s.Canonical) :
    (State.commit s img v).Canonical := by
  unfold State.commit
  repeat' (with_reducible first | assumption | apply State.stepScale_canon | apply State.pokes_canon | apply State.stepEpochs_canon | apply State.stepHistories_canon | apply State.stepIndex_canon | apply State.stepStats_canon | apply canon_ite | simp only [State.canon_mk] | split)

theorem State.skip_canon (s : State) (img : Image) (v : Votes) (causes : BitVec 3) (h_s : s.Canonical) :
    (State.skip s img v causes).Canonical := by
  unfold State.skip
  repeat' (with_reducible first | assumption | apply State.stepScale_canon | apply State.count_canon | apply canon_ite | simp only [State.canon_mk] | split)

theorem State.wheelMarkers_canon (s : State) (img : Image) (h_s : s.Canonical) :
    (State.wheelMarkers s img).Canonical := by
  unfold State.wheelMarkers
  repeat' (with_reducible first | assumption | (intro _) | apply State.padPort_canon | apply canon_ite | apply canon_foldl | simp only [State.canon_mk] | dsimp only | split)

theorem State.stepOver_canon (s : State) (img : Image) (h_s : s.Canonical) :
    (State.stepOver s img).Canonical := by
  unfold State.stepOver
  repeat' (with_reducible first | assumption | apply State.writeBlock_canon | apply State.wheelMarkers_canon | apply State.refreshAll_canon | apply State.opProgress_canon | apply State.moved_canon | apply State.lostAtBoundary_canon | apply State.boundaryStop_canon | apply canon_ite | simp only [State.canon_mk] | (apply opt_canon_some; assumption) | split)

theorem State.readIndex_canon (s : State) (img : Image) (h_s : s.Canonical) :
    (State.readIndex s img).Canonical := by
  unfold State.readIndex
  repeat' (with_reducible first | assumption | (intro _) | apply State.unlessFailed_canon | apply State.readOwn_canon | apply canon_ite | apply canon_foldl | simp only [State.canon_mk] | dsimp only | split)

theorem State.commitDecision_canon (s : State) (h_s : s.Canonical) :
    (State.commitDecision s).Canonical := by
  unfold State.commitDecision
  repeat' (with_reducible first | assumption | (intro _) | apply State.unlessFailed_canon | apply State.readIndex_canon | apply State.commit_canon | apply State.stepOver_canon | apply State.skip_canon | apply State.touch_canon | apply canon_ite | simp only [State.canon_mk] | dsimp only | split)

theorem State.idle_canon (s : State) (h_s : s.Canonical) :
    (State.idle s).Canonical := by
  unfold State.idle
  repeat' (with_reducible first | assumption | apply State.dataPump_canon | apply State.wheelDrain_canon | apply canon_ite | simp only [State.canon_mk] | split)

/-! ### Snapshot -/

theorem State.snapSuspend_canon (s : State) (h_s : s.Canonical) :
    (State.snapSuspend s).Canonical := by
  unfold State.snapSuspend
  repeat' (with_reducible first | assumption | apply State.opMove_canon | apply canon_ite | simp only [State.canon_mk] | split)

theorem State.snapOpened_canon (s : State) (h_s : s.Canonical) :
    (State.snapOpened s).Canonical := by
  unfold State.snapOpened
  repeat' (with_reducible first | assumption | apply State.snapSuspend_canon | apply canon_ite | simp only [State.canon_mk] | split)

theorem State.snapshotOpen_canon (s : State) (h_s : s.Canonical) :
    (State.snapshotOpen s).Canonical := by
  unfold State.snapshotOpen
  repeat' (with_reducible first | assumption | apply State.idle_canon | apply State.snapOpen_canon | apply State.opProgress_canon | apply State.snapOpened_canon | apply State.millsFound_canon | apply canon_ite | simp only [State.canon_mk] | split)

theorem State.firstTouch_canon (s : State) (page : Nat) (h_s : s.Canonical) :
    (State.firstTouch s page).Canonical := by
  unfold State.firstTouch
  repeat' (with_reducible first | assumption | (intro _) | apply State.copyPage_canon | apply State.setBitmap_canon | apply State.unprotect_canon | apply State.count_canon | apply State.wheelDrain_canon | apply State.millsFound_canon | apply canon_ite | simp only [State.canon_mk] | dsimp only | split)

theorem State.releasePage_canon (s : State) (i : Nat) (h_s : s.Canonical) :
    (State.releasePage s i).Canonical := by
  unfold State.releasePage
  repeat' (with_reducible first | assumption | apply State.setPage_canon | apply State.unprotect_canon | apply canon_ite | simp only [State.canon_mk] | split)

theorem State.pageAcked_canon (s : State) (h_s : s.Canonical) :
    (State.pageAcked s).Canonical := by
  unfold State.pageAcked
  repeat' (with_reducible first | assumption | apply State.idle_canon | apply State.releasePage_canon | apply State.opProgress_canon | apply State.snapStart_canon | apply State.snapPump_canon | apply State.millsFound_canon | apply canon_ite | simp only [State.canon_mk] | split)

theorem State.snapshotSeal_canon (s : State) (h_s : s.Canonical) :
    (State.snapshotSeal s).Canonical := by
  unfold State.snapshotSeal
  repeat' (with_reducible first | assumption | apply State.pokes_canon | apply State.roceIssue_canon | apply canon_ite | simp only [State.canon_mk] | split)

theorem State.snapshotClose_canon (s : State) (h_s : s.Canonical) :
    (State.snapshotClose s).Canonical := by
  unfold State.snapshotClose
  repeat' (with_reducible first | assumption | (intro _) | apply State.clearBitmaps_canon | apply State.count_canon | apply State.snapIdle_canon | apply State.opMove_canon | apply canon_ite | simp only [State.canon_mk] | dsimp only | split)

theorem State.snapshotFail_canon (s : State) (h_s : s.Canonical) :
    (State.snapshotFail s).Canonical := by
  unfold State.snapshotFail
  repeat' (with_reducible first | assumption | apply State.idle_canon | apply State.snapFail_canon | apply State.wheelDrain_canon | apply canon_ite | simp only [State.canon_mk] | split)

theorem State.snapCancel_canon (s : State) (h : Word32) (h_s : s.Canonical) :
    (State.snapCancel s h).Canonical := by
  unfold State.snapCancel
  repeat' (with_reducible first | assumption | apply State.opMove_canon | apply State.snapFail_canon | apply State.wheelDrain_canon | apply canon_ite | simp only [State.canon_mk] | split)

/-! ### Restore -/

theorem State.restProgress_canon (s : State) (h_s : s.Canonical) :
    (State.restProgress s).Canonical := by
  unfold State.restProgress
  repeat' (with_reducible first | assumption | apply State.opProgress_canon | apply canon_ite | simp only [State.canon_mk] | split)

theorem State.restEnd_canon (s : State) (code : Nat) (h_s : s.Canonical) :
    (State.restEnd s code).Canonical := by
  unfold State.restEnd
  repeat' (with_reducible first | assumption | apply State.setQp_canon | apply State.opMove_canon | apply canon_ite | simp only [State.canon_mk] | split)

theorem State.restRead_canon (s : State) (h_s : s.Canonical) :
    (State.restRead s).Canonical := by
  unfold State.restRead
  repeat' (with_reducible first | assumption | apply State.count_canon | apply State.roceIssue_canon | apply canon_ite | simp only [State.canon_mk] | split)

theorem State.restNext_canon (s : State) (h_s : s.Canonical) :
    (State.restNext s).Canonical := by
  unfold State.restNext
  repeat' (with_reducible first | assumption | apply State.restEnd_canon | apply State.opMove_canon | apply State.restRead_canon | apply canon_ite | simp only [State.canon_mk] | split)

theorem State.tableIn_canon (s : State) (bs : List Byte) (h_s : s.Canonical) :
    (State.tableIn s bs).Canonical := by
  unfold State.tableIn
  repeat' (with_reducible first | assumption | apply State.restEnd_canon | apply State.count_canon | apply State.restNext_canon | apply State.restProgress_canon | apply canon_ite | simp only [State.canon_mk] | split)

theorem State.engineWrite_canon (s : State) (img : Image) (a : Nat) (bs : List Byte) (h_s : s.Canonical) :
    (State.engineWrite s img a bs).Canonical := by
  unfold State.engineWrite
  repeat' (with_reducible first | assumption | (intro _) | apply State.countDenied_canon | apply State.poke_canon | apply canon_ite | apply canon_foldl | simp only [State.canon_mk] | dsimp only | split)

theorem State.pageIn_canon (s : State) (bs : List Byte) (h_s : s.Canonical) :
    (State.pageIn s bs).Canonical := by
  unfold State.pageIn
  repeat' (with_reducible first | assumption | apply State.restEnd_canon | apply State.engineWrite_canon | apply State.restProgress_canon | apply State.restNext_canon | apply State.count_canon | apply canon_ite | simp only [State.canon_mk] | split)

theorem State.restorePage_canon (s : State) (data : List Byte) (h_s : s.Canonical) :
    (State.restorePage s data).Canonical := by
  unfold State.restorePage
  repeat' (with_reducible first | assumption | apply State.setQp_canon | apply State.pageIn_canon | apply canon_ite | simp only [State.canon_mk] | split)

theorem State.restState_canon (s : State) (img : Image) (h_s : s.Canonical) :
    (State.restState s img).Canonical := by
  unfold State.restState
  repeat' (with_reducible first | assumption | apply State.readBlock_canon | apply State.pokes_canon | apply canon_ite | simp only [State.canon_mk] | split)

theorem State.restoreDone_canon (s : State) (h_s : s.Canonical) :
    (State.restoreDone s).Canonical := by
  unfold State.restoreDone
  repeat' (with_reducible first | assumption | apply State.count_canon | apply State.restState_canon | apply State.restEnd_canon | apply canon_ite | simp only [State.canon_mk] | split)

theorem State.restStart_canon (s : State) (block : List Byte) (h_s : s.Canonical) :
    (State.restStart s block).Canonical := by
  unfold State.restStart
  repeat' (with_reducible first | assumption | apply State.idle_canon | apply State.restEnd_canon | apply State.openQp_canon | apply State.restRead_canon | apply canon_ite | simp only [State.canon_mk] | split)

theorem restoreRun_canon (payload : List Byte) (v : State) (h_v : v.Canonical) :
    (restoreRun payload v).st.Canonical := by
  unfold restoreRun
  repeat' (with_reducible first | assumption | apply State.wake_canon | apply answer_canon | apply State.millerRead_canon | apply State.newOp_canon | apply LeatAns.mk3_canon | apply State.restStart_canon | apply canon_ite | simp only [State.canon_mk] | split)

theorem State.restoreCmd_canon (s : State) (h : LeatHdr) (payload : List Byte) (h_s : s.Canonical) :
    (State.restoreCmd s h payload).Canonical := by
  unfold State.restoreCmd
  repeat' (with_reducible first | assumption | apply State.request_canon | apply restoreRun_canon | apply canon_ite | simp only [State.canon_mk] | split)

/-! ### Load -/

theorem State.loadVerdict_canon (s : State) (h : Word32) (bs : List Byte) (x4 : Option Bad) (h_s : s.Canonical) :
    (State.loadVerdict s h bs x4).Canonical := by
  unfold State.loadVerdict
  repeat' (with_reducible first | assumption | apply State.opMove_canon | apply State.opProgress_canon | apply canon_ite | simp only [State.canon_mk] | split)

theorem imageLoadRun_canon (payload : List Byte) (v : State) (h_v : v.Canonical) :
    (imageLoadRun payload v).st.Canonical := by
  unfold imageLoadRun
  repeat' (with_reducible first | assumption | apply State.wake_canon | apply answer_canon | apply State.millerRead_canon | apply State.newOp_canon | apply LeatAns.mk3_canon | apply State.loadVerdict_canon | apply canon_ite | simp only [State.canon_mk] | split)

theorem State.imageLoad_canon (s : State) (h : LeatHdr) (payload : List Byte) (h_s : s.Canonical) :
    (State.imageLoad s h payload).Canonical := by
  unfold State.imageLoad
  repeat' (with_reducible first | assumption | apply State.request_canon | apply imageLoadRun_canon | apply canon_ite | simp only [State.canon_mk] | split)

theorem State.loadTestMill_canon (s : State) (pass : Bool) (m : Nat) (h_s : s.Canonical) :
    (State.loadTestMill s pass m).Canonical := by
  unfold State.loadTestMill
  repeat' (with_reducible first | assumption | apply State.setMill_canon | apply State.count_canon | apply canon_ite | simp only [State.canon_mk] | split)

theorem State.loadTest_canon (s : State) (bits : BitVec 152) (h_s : s.Canonical) :
    (State.loadTest s bits).Canonical := by
  unfold State.loadTest
  repeat' (with_reducible first | assumption | (intro _) | apply State.suspect_canon | apply State.loadTestMill_canon | apply canon_ite | apply canon_foldl | simp only [State.canon_mk] | dsimp only | split)

theorem State.endSuspended_canon (s : State) (h_s : s.Canonical) :
    (State.endSuspended s).Canonical := by
  unfold State.endSuspended
  repeat' (with_reducible first | assumption | apply State.endJob_canon | apply canon_ite | simp only [State.canon_mk] | split)

theorem State.loadStores_canon (s : State) (img : Image) (h_s : s.Canonical) :
    (State.loadStores s img).Canonical := by
  unfold State.loadStores
  repeat' (with_reducible first | assumption | (intro _) | apply State.zeroRange_canon | apply canon_ite | apply canon_foldl | apply Out.canon_ite | apply Out.canon_andThen | apply Out.canon_mk_go | apply Out.canon_mk_stop | apply Out.canon_mk_wait | apply fst_canon_ite | apply canon_foldl_fst | apply Out.fst_canon_ite | apply Out.canon_foldl | apply KStep.canon_next | apply KStep.canon_wait | apply KStep.canon_stop | apply optCanon_some | apply optCanon_none | apply exceptCanon_ok | apply exceptCanon_error | simp only [State.canon_mk] | (apply Out.canon_go; assumption) | (apply Out.canon_stop; assumption) | (apply Except.canon_ok; assumption) | (apply opt_canon_some; assumption) | dsimp only | simp only [State.canon_iff] | apply And.intro | apply State.Canonical.mem | apply State.Canonical.syn | apply State.Canonical.kettle | apply State.Canonical.flash | apply NMap.wf_nil | apply NMap.wf_set | apply NMap.wf_clearRange | apply NMap.wf_foldl | apply flashWrite_wf | apply eraseFw_wf | apply programFw_wf | apply ordAppend_wf | split)

theorem State.install_canon (s : State) (img : Image) (bits : BitVec 152) (h_s : s.Canonical) :
    (State.install s img bits).Canonical := by
  unfold State.install
  repeat' (with_reducible first | assumption | apply State.endSuspended_canon | apply State.uninstall_canon | apply State.loadTest_canon | apply State.loadStores_canon | apply canon_ite | simp only [State.canon_mk] | split)

theorem State.imageInstall_canon (s : State) (bits : BitVec 152) (h_s : s.Canonical) :
    (State.imageInstall s bits).Canonical := by
  unfold State.imageInstall
  repeat' (with_reducible first | assumption | apply State.install_canon | apply State.opMove_canon | apply canon_ite | simp only [State.canon_mk] | split)

theorem State.loadCancel_canon (s : State) (h : Word32) (h_s : s.Canonical) :
    (State.loadCancel s h).Canonical := by
  unfold State.loadCancel
  repeat' (with_reducible first | assumption | apply State.opMove_canon | apply canon_ite | simp only [State.canon_mk] | split)

/-! ### Jobs -/

theorem State.startStreams_canon (s : State) (img : Image) (h_s : s.Canonical) :
    (State.startStreams s img).Canonical := by
  unfold State.startStreams
  repeat' (with_reducible first | assumption | (intro _) | apply State.setStream_canon | apply State.padStream_canon | apply canon_ite | apply canon_foldl | simp only [State.canon_mk] | dsimp only | split)

theorem State.startContext_canon (s : State) (img : Image) (table : Nat) (h_s : s.Canonical) :
    (State.startContext s img table).Canonical := by
  unfold State.startContext
  repeat' (with_reducible first | assumption | (intro _) | apply State.startStreams_canon | apply State.wheelMarkers_canon | apply canon_ite | apply canon_foldl | simp only [State.canon_mk] | dsimp only | split)

theorem State.zeroEpochs_canon (s : State) (img : Image) (h_s : s.Canonical) :
    (State.zeroEpochs s img).Canonical := by
  unfold State.zeroEpochs
  repeat' (with_reducible first | assumption | (intro _) | apply State.pokes_canon | apply canon_ite | apply canon_foldl | simp only [State.canon_mk] | dsimp only | split)

theorem State.initHistories_canon (s : State) (img : Image) (h_s : s.Canonical) :
    (State.initHistories s img).Canonical := by
  unfold State.initHistories
  repeat' (with_reducible first | assumption | (intro _) | apply State.pokes_canon | apply canon_ite | apply canon_foldl | simp only [State.canon_mk] | dsimp only | split)

theorem State.initIndex_canon (s : State) (img : Image) (h_s : s.Canonical) :
    (State.initIndex s img).Canonical := by
  unfold State.initIndex
  repeat' (with_reducible first | assumption | (intro _) | apply State.zeroRange_canon | apply State.pokes_canon | apply canon_ite | apply canon_foldl | simp only [State.canon_mk] | dsimp only | split)

theorem State.freshState_canon (s : State) (img : Image) (seed : Nat) (h_s : s.Canonical) :
    (State.freshState s img seed).Canonical := by
  unfold State.freshState
  repeat' (with_reducible first | assumption | apply State.pokes_canon | apply State.zeroEpochs_canon | apply State.initHistories_canon | apply State.initIndex_canon | apply canon_ite | simp only [State.canon_mk] | split)

theorem State.continueState_canon (s : State) (img : Image) (h_s : s.Canonical) :
    (State.continueState s img).Canonical := by
  unfold State.continueState
  repeat' (with_reducible first | assumption | apply State.readBlock_canon | apply State.pokes_canon | apply canon_ite | simp only [State.canon_mk] | split)

theorem State.atStart_canon (s : State) (img : Image) (b : JobBlock) (h_s : s.Canonical) :
    (State.atStart s img b).Canonical := by
  unfold State.atStart
  repeat' (with_reducible first | assumption | apply State.continueState_canon | apply State.initIndex_canon | apply canon_ite | simp only [State.canon_mk] | split)

theorem State.claimPage_canon (s : State) (page : Nat) (h_s : s.Canonical) :
    optCanon (State.claimPage s page) := by
  unfold State.claimPage
  repeat' (with_reducible first | assumption | apply State.copyPage_canon | apply State.setBitmap_canon | apply State.unprotect_canon | apply State.count_canon | apply State.millsFound_canon | apply canon_ite | apply optCanon_some | apply optCanon_none | simp only [State.canon_mk] | split)

theorem State.claimPages_canon (ps : List Nat) : ∀ s : State, s.Canonical → optCanon (State.claimPages s ps) := by
  induction ps with
  | nil => exact fun s h => optCanon_some h
  | cons p ps ih =>
    intro s h
    have hp := State.claimPage_canon s p h
    unfold State.claimPages
    cases e : s.claimPage p with
    | none => exact optCanon_none
    | some t => exact ih t (hp.some t e)

theorem State.openQps_canon (s : State) (x2 : Nat) (x3 : List (List Byte)) (h_s : s.Canonical) :
    (State.openQps s x2 x3).Canonical := by
  fun_induction State.openQps s x2 x3
  all_goals repeat' (with_reducible first | assumption | (intro _) | (apply_assumption) | apply State.idle_canon | apply State.openQp_canon | apply canon_ite | simp only [State.canon_mk] | split)

theorem State.jobBegin_canon (s : State) (img : Image) (b : JobBlock) (h_s : s.Canonical) :
    (State.jobBegin s img b).1.Canonical := by
  unfold State.jobBegin
  repeat' (with_reducible first | assumption | apply State.ownerReset_canon | apply State.newOp_canon | apply State.continueState_canon | apply State.freshState_canon | apply State.openQps_canon | apply State.startContext_canon | apply State.opProgress_canon | apply canon_ite | apply fst_canon_ite | apply canon_foldl_fst | simp only [State.canon_mk] | split)

theorem State.jobJudge_canon (s : State) (b : JobBlock) (h_s : s.Canonical) :
    (State.jobJudge s b).st.Canonical := by
  unfold State.jobJudge
  repeat' (with_reducible first | assumption | apply LeatAns.mk3_canon | apply State.claimPages_canon | apply answer_canon | apply State.jobBegin_canon | apply canon_ite | simp only [State.canon_mk] | (apply opt_canon_some; assumption) | split)

theorem jobStartRun_canon (payload : List Byte) (v : State) (h_v : v.Canonical) :
    (jobStartRun payload v).st.Canonical := by
  unfold jobStartRun
  repeat' (with_reducible first | assumption | apply State.wake_canon | apply answer_canon | apply State.millerRead_canon | apply State.jobJudge_canon | apply canon_ite | simp only [State.canon_mk] | split)

theorem State.jobStart_canon (s : State) (h : LeatHdr) (payload : List Byte) (h_s : s.Canonical) :
    (State.jobStart s h payload).Canonical := by
  unfold State.jobStart
  repeat' (with_reducible first | assumption | apply State.request_canon | apply jobStartRun_canon | apply canon_ite | simp only [State.canon_mk] | split)

theorem State.triggerHost_canon (s : State) (h_s : s.Canonical) :
    (State.triggerHost s).1.Canonical := by
  unfold State.triggerHost
  repeat' (with_reducible first | assumption | apply State.snapTrigger_canon | apply State.newOp_canon | apply State.opMove_canon | apply canon_ite | apply fst_canon_ite | apply canon_foldl_fst | simp only [State.canon_mk] | split)

theorem snapshotRun_canon (v : State) (h_v : v.Canonical) :
    (snapshotRun v).st.Canonical := by
  unfold snapshotRun
  repeat' (with_reducible first | assumption | apply State.wake_canon | apply answer_canon | apply State.triggerHost_canon | apply LeatAns.mk3_canon | apply canon_ite | simp only [State.canon_mk] | split)

theorem State.snapshotCmd_canon (s : State) (h : LeatHdr) (payload : List Byte) (h_s : s.Canonical) :
    (State.snapshotCmd s h payload).Canonical := by
  unfold State.snapshotCmd
  repeat' (with_reducible first | assumption | apply State.request_canon | apply snapshotRun_canon | apply canon_ite | simp only [State.canon_mk] | split)

theorem State.suspendJob_canon (s : State) (o : Op) (immediate : Bool) (at_ : Nat) (h_s : s.Canonical) :
    optCanon (State.suspendJob s o immediate at_) := by
  unfold State.suspendJob
  repeat' (with_reducible first | assumption | apply State.opMove_canon | apply State.ownerReset_canon | apply canon_ite | apply optCanon_some | apply optCanon_none | simp only [State.canon_mk] | split)

theorem State.suspendOp_canon (s : State) (o : Op) (immediate : Bool) (at_ : Nat) (h_s : s.Canonical) :
    optCanon (State.suspendOp s o immediate at_) := by
  unfold State.suspendOp
  repeat' (with_reducible first | assumption | apply State.suspendJob_canon | apply State.opMove_canon | apply State.scrub_canon | apply State.idle_canon | apply State.snapSuspend_canon | apply canon_ite | apply optCanon_some | apply optCanon_none | simp only [State.canon_mk] | (apply opt_canon_some; assumption) | split)

theorem opCommand_canon (handle : Nat) (run : State → Op → Option State) (s : State) (h_run : ∀ t u, t.Canonical → optCanon (run t u)) (h_s : s.Canonical) :
    (opCommand handle run s).st.Canonical := by
  unfold opCommand
  repeat' (with_reducible first | assumption | (intro _) | apply answer_canon | apply h_run | apply canon_ite | apply canon_foldl | apply Out.canon_ite | apply Out.canon_andThen | apply Out.canon_mk_go | apply Out.canon_mk_stop | apply Out.canon_mk_wait | apply fst_canon_ite | apply canon_foldl_fst | apply Out.fst_canon_ite | apply Out.canon_foldl | apply KStep.canon_next | apply KStep.canon_wait | apply KStep.canon_stop | apply optCanon_some | apply optCanon_none | apply exceptCanon_ok | apply exceptCanon_error | simp only [State.canon_mk] | (apply Out.canon_go; assumption) | (apply Out.canon_stop; assumption) | (apply Except.canon_ok; assumption) | (apply opt_canon_some; assumption) | dsimp only | simp only [State.canon_iff] | apply And.intro | apply State.Canonical.mem | apply State.Canonical.syn | apply State.Canonical.kettle | apply State.Canonical.flash | apply NMap.wf_nil | apply NMap.wf_set | apply NMap.wf_clearRange | apply NMap.wf_foldl | apply flashWrite_wf | apply eraseFw_wf | apply programFw_wf | apply ordAppend_wf | split)

theorem State.opSuspend_canon (s : State) (h : LeatHdr) (payload : List Byte) (h_s : s.Canonical) :
    (State.opSuspend s h payload).Canonical := by
  unfold State.opSuspend
  repeat' (with_reducible first | assumption | (intro _) | apply State.request_canon | apply opCommand_canon | apply State.suspendOp_canon | apply canon_ite | simp only [State.canon_mk] | (apply opt_canon_some; assumption) | dsimp only | split)

theorem State.clearSkips_canon (s : State) (img : Image) (h_s : s.Canonical) :
    (State.clearSkips s img).Canonical := by
  unfold State.clearSkips
  repeat' (with_reducible first | assumption | apply State.poke_canon | apply canon_ite | simp only [State.canon_mk] | split)

theorem State.resumeJob_canon (s : State) (img : Image) (o : Op) (h_s : s.Canonical) :
    (State.resumeJob s img o).Canonical := by
  unfold State.resumeJob
  repeat' (with_reducible first | assumption | apply State.startContext_canon | apply State.clearSkips_canon | apply State.moved_canon | apply State.opMove_canon | apply canon_ite | simp only [State.canon_mk] | split)

theorem State.resumeSnap_canon (s : State) (o : Op) (h_s : s.Canonical) :
    (State.resumeSnap s o).Canonical := by
  unfold State.resumeSnap
  repeat' (with_reducible first | assumption | apply State.opMove_canon | apply State.idle_canon | apply State.snapStart_canon | apply State.snapPump_canon | apply State.millsFound_canon | apply canon_ite | simp only [State.canon_mk] | split)

theorem State.resumeOp_canon (s : State) (o : Op) (h_s : s.Canonical) :
    exceptCanon (State.resumeOp s o) := by
  unfold State.resumeOp
  repeat' (with_reducible first | assumption | apply State.opMove_canon | apply State.claimPages_canon | apply State.resumeJob_canon | apply State.restRead_canon | apply State.resumeSnap_canon | apply canon_ite | apply exceptCanon_ok | apply exceptCanon_error | simp only [State.canon_mk] | (apply opt_canon_some; assumption) | split)

theorem opResumeRun_canon (payload : List Byte) (s : State) (h_s : s.Canonical) :
    (opResumeRun payload s).st.Canonical := by
  unfold opResumeRun
  repeat' (with_reducible first | assumption | apply answer_canon | apply State.resumeOp_canon | apply canon_ite | simp only [State.canon_mk] | (apply Except.canon_ok; assumption) | split)

theorem State.opResume_canon (s : State) (h : LeatHdr) (payload : List Byte) (h_s : s.Canonical) :
    (State.opResume s h payload).Canonical := by
  unfold State.opResume
  repeat' (with_reducible first | assumption | apply State.request_canon | apply opResumeRun_canon | apply canon_ite | simp only [State.canon_mk] | split)

theorem State.cancelOp_canon (s : State) (o : Op) (h_s : s.Canonical) :
    optCanon (State.cancelOp s o) := by
  unfold State.cancelOp
  repeat' (with_reducible first | assumption | apply State.opMove_canon | apply State.ownerReset_canon | apply State.endJob_canon | apply State.loadCancel_canon | apply State.snapCancel_canon | apply State.restEnd_canon | apply State.scrub_canon | apply State.selfTest_canon | apply canon_ite | apply optCanon_some | apply optCanon_none | simp only [State.canon_mk] | split)

theorem State.opCancel_canon (s : State) (h : LeatHdr) (payload : List Byte) (h_s : s.Canonical) :
    (State.opCancel s h payload).Canonical := by
  unfold State.opCancel
  repeat' (with_reducible first | assumption | (intro _) | apply State.request_canon | apply opCommand_canon | apply State.cancelOp_canon | apply canon_ite | apply canon_foldl | apply Out.canon_ite | apply Out.canon_andThen | apply Out.canon_mk_go | apply Out.canon_mk_stop | apply Out.canon_mk_wait | apply fst_canon_ite | apply canon_foldl_fst | apply Out.fst_canon_ite | apply Out.canon_foldl | simp only [State.canon_mk] | (apply Out.canon_go; assumption) | (apply Out.canon_stop; assumption) | (apply opt_canon_some; assumption) | dsimp only | split)

theorem opQueryRun_canon (payload : List Byte) (s : State) (h_s : s.Canonical) :
    (opQueryRun payload s).st.Canonical := by
  unfold opQueryRun
  repeat' (with_reducible first | assumption | apply answer_canon | apply LeatAns.mk3_canon | apply canon_ite | simp only [State.canon_mk] | split)

theorem State.opQuery_canon (s : State) (h : LeatHdr) (payload : List Byte) (h_s : s.Canonical) :
    (State.opQuery s h payload).Canonical := by
  unfold State.opQuery
  repeat' (with_reducible first | assumption | apply State.request_canon | apply opQueryRun_canon | apply canon_ite | simp only [State.canon_mk] | split)

theorem digestCheckRun_canon (s : State) (h_s : s.Canonical) :
    (digestCheckRun s).st.Canonical := by
  unfold digestCheckRun
  repeat' (with_reducible first | assumption | apply answer_canon | apply canon_ite | simp only [State.canon_mk] | split)

theorem State.digestCheck_canon (s : State) (h : LeatHdr) (payload : List Byte) (h_s : s.Canonical) :
    (State.digestCheck s h payload).Canonical := by
  unfold State.digestCheck
  repeat' (with_reducible first | assumption | apply State.request_canon | apply digestCheckRun_canon | apply canon_ite | simp only [State.canon_mk] | split)

theorem State.restartWheel_canon (s : State) (img : Image) (h_s : s.Canonical) :
    (State.restartWheel s img).Canonical := by
  unfold State.restartWheel
  repeat' (with_reducible first | assumption | (intro _) | apply State.wheelLeave_canon | apply State.count_canon | apply State.enterSend_canon | apply canon_ite | simp only [State.canon_mk] | dsimp only | split)

theorem State.resendRecords_canon (s : State) (img : Image) (h_s : s.Canonical) :
    (State.resendRecords s img).Canonical := by
  unfold State.resendRecords
  repeat' (with_reducible first | assumption | (intro _) | apply State.sendRecord_canon | apply canon_ite | apply canon_foldl | simp only [State.canon_mk] | dsimp only | split)

theorem State.readmit_canon (s : State) (img : Image) (f : Nat) (sp : Nat) (h_s : s.Canonical) :
    (State.readmit s img f sp).Canonical := by
  unfold State.readmit
  repeat' (with_reducible first | assumption | apply State.restartWheel_canon | apply State.resendRecords_canon | apply State.wheelDrain_canon | apply canon_ite | simp only [State.canon_mk] | split)

theorem takeoverRun_canon (payload : List Byte) (s : State) (h_s : s.Canonical) :
    (takeoverRun payload s).st.Canonical := by
  unfold takeoverRun
  repeat' (with_reducible first | assumption | apply answer_canon | apply State.readmit_canon | apply canon_ite | simp only [State.canon_mk] | split)

theorem State.takeover_canon (s : State) (h : LeatHdr) (payload : List Byte) (h_s : s.Canonical) :
    (State.takeover s h payload).Canonical := by
  unfold State.takeover
  repeat' (with_reducible first | assumption | apply State.request_canon | apply takeoverRun_canon | apply canon_ite | simp only [State.canon_mk] | split)

/-! ### Roce -/

theorem State.rxOn_canon (s : State) (q : Qp) (n : Nat) (h_s : s.Canonical) :
    (State.rxOn s q n).Canonical := by
  unfold State.rxOn
  repeat' (with_reducible first | assumption | apply State.countN_canon | apply canon_ite | simp only [State.canon_mk] | split)

theorem State.unexpectedOn_canon (s : State) (q : Qp) (h_s : s.Canonical) :
    (State.unexpectedOn s q).Canonical := by
  unfold State.unexpectedOn
  repeat' (with_reducible first | assumption | apply State.rxOn_canon | apply State.count_canon | apply canon_ite | simp only [State.canon_mk] | split)

theorem State.deliver_canon (s : State) (r : Req) (data : List Byte) (h_s : s.Canonical) :
    (State.deliver s r data).Canonical := by
  unfold State.deliver
  repeat' (with_reducible first | assumption | apply State.dataArrive_canon | apply State.tableIn_canon | apply State.pageIn_canon | apply canon_ite | simp only [State.canon_mk] | split)

theorem State.readResponse_canon (s : State) (n : Nat) (psn : BitVec 24) (data : List Byte) (h_s : s.Canonical) :
    (State.readResponse s n psn data).Canonical := by
  unfold State.readResponse
  repeat' (with_reducible first | assumption | apply State.deliver_canon | apply State.rxOn_canon | apply State.setQp_canon | apply State.unexpectedOn_canon | apply canon_ite | simp only [State.canon_mk] | split)

theorem State.roceAck_canon (s : State) (n : Nat) (psn : BitVec 24) (h_s : s.Canonical) :
    (State.roceAck s n psn).Canonical := by
  unfold State.roceAck
  repeat' (with_reducible first | assumption | (intro _) | apply State.rxOn_canon | apply State.setQp_canon | apply State.unexpectedOn_canon | apply canon_ite | simp only [State.canon_mk] | dsimp only | split)

theorem State.resendNow_canon (s : State) (n : Nat) (q : Qp) (rs : List Req) (h_s : s.Canonical) :
    (State.resendNow s n q rs).Canonical := by
  unfold State.resendNow
  repeat' (with_reducible first | assumption | (intro _) | apply State.setQp_canon | apply State.roceResend_canon | apply canon_ite | simp only [State.canon_mk] | dsimp only | split)

theorem State.seqNak_canon (s : State) (n : Nat) (psn : BitVec 24) (h_s : s.Canonical) :
    (State.seqNak s n psn).Canonical := by
  unfold State.seqNak
  repeat' (with_reducible first | assumption | (intro _) | apply State.unexpectedOn_canon | apply State.rxOn_canon | apply State.resendNow_canon | apply canon_ite | simp only [State.canon_mk] | dsimp only | split)

theorem State.rnrNak_canon (s : State) (n : Nat) (psn : BitVec 24) (h_s : s.Canonical) :
    (State.rnrNak s n psn).Canonical := by
  unfold State.rnrNak
  repeat' (with_reducible first | assumption | (intro _) | apply State.unexpectedOn_canon | apply State.rxOn_canon | apply State.setQp_canon | apply canon_ite | simp only [State.canon_mk] | dsimp only | split)

theorem State.rnrResend_canon (s : State) (n : Nat) (h_s : s.Canonical) :
    (State.rnrResend s n).Canonical := by
  unfold State.rnrResend
  repeat' (with_reducible first | assumption | apply State.resendNow_canon | apply canon_ite | simp only [State.canon_mk] | split)

theorem State.retrySend_canon (s : State) (n : Nat) (q : Qp) (r : Req) (h_s : s.Canonical) :
    (State.retrySend s n q r).Canonical := by
  unfold State.retrySend
  repeat' (with_reducible first | assumption | (intro _) | apply State.setQp_canon | apply State.count_canon | apply State.roceSend_canon | apply canon_ite | simp only [State.canon_mk] | dsimp only | split)

theorem State.timedOut_canon (s : State) (n : Nat) (q : Qp) (r : Req) (h_s : s.Canonical) :
    (State.timedOut s n q r).Canonical := by
  unfold State.timedOut
  repeat' (with_reducible first | assumption | apply State.count_canon | apply State.dataRetry_canon | apply State.retrySend_canon | apply State.restEnd_canon | apply State.snapFail_canon | apply State.wheelDrain_canon | apply canon_ite | simp only [State.canon_mk] | split)

theorem State.roceTimeout_canon (s : State) (n : Nat) (psn : BitVec 24) (h_s : s.Canonical) :
    (State.roceTimeout s n psn).Canonical := by
  unfold State.roceTimeout
  repeat' (with_reducible first | assumption | apply State.timedOut_canon | apply canon_ite | simp only [State.canon_mk] | split)

theorem State.dataFetchRetry_canon (s : State) (psn : BitVec 24) (h_s : s.Canonical) :
    (State.dataFetchRetry s psn).Canonical := by
  unfold State.dataFetchRetry
  repeat' (with_reducible first | assumption | apply State.dataRetry_canon | apply canon_ite | simp only [State.canon_mk] | split)

theorem State.roceUnexpected_canon (s : State) (p : Fin 2) (n : Nat) (psn : BitVec 24) (h_s : s.Canonical) :
    (State.roceUnexpected s p n psn).Canonical := by
  unfold State.roceUnexpected
  repeat' (with_reducible first | assumption | apply State.rx_canon | apply State.count_canon | apply canon_ite | simp only [State.canon_mk] | split)

theorem State.cnp_canon (s : State) (n : Nat) (h_s : s.Canonical) :
    (State.cnp s n).Canonical := by
  unfold State.cnp
  repeat' (with_reducible first | assumption | apply State.rxOn_canon | apply State.count_canon | apply State.setQp_canon | apply canon_ite | simp only [State.canon_mk] | split)

theorem State.rateRecovery_canon (s : State) (n : Nat) (h_s : s.Canonical) :
    (State.rateRecovery s n).Canonical := by
  unfold State.rateRecovery
  repeat' (with_reducible first | assumption | apply State.setQp_canon | apply canon_ite | simp only [State.canon_mk] | split)

/-! ### Step -/

theorem State.withFetchWord_canon (s : State) (nbits : Nat) (w : Nat) (h_s : s.Canonical) :
    (State.withFetchWord s nbits w).Canonical := by
  unfold State.withFetchWord
  repeat' (with_reducible first | assumption | (intro _) | apply canon_ite | apply canon_foldl | apply Out.canon_ite | apply Out.canon_andThen | apply Out.canon_mk_go | apply Out.canon_mk_stop | apply Out.canon_mk_wait | apply fst_canon_ite | apply canon_foldl_fst | apply Out.fst_canon_ite | apply Out.canon_foldl | simp only [State.canon_mk] | (apply Out.canon_go; assumption) | (apply Out.canon_stop; assumption) | dsimp only | split)

end Sys2Proof.Machine
end

