-- ==== Sys2Proof/Laws/State.lean ====
section
/-! SUPPORT. The fields of the state that each plain update leaves as they are, one lemma per field and update, true by rfl. -/
namespace Sys2Proof.Machine

@[simp] theorem State.countN_pending (s : State) (off n : Nat) : (s.countN off n).pending = s.pending := rfl
@[simp] theorem State.countN_fresh (s : State) (off n : Nat) : (s.countN off n).fresh = s.fresh := rfl
@[simp] theorem State.countN_out (s : State) (off n : Nat) : (s.countN off n).out = s.out := rfl
@[simp] theorem State.countN_pwr (s : State) (off n : Nat) : (s.countN off n).pwr = s.pwr := rfl
@[simp] theorem State.countN_clk (s : State) (off n : Nat) : (s.countN off n).clk = s.clk := rfl
@[simp] theorem State.countN_time (s : State) (off n : Nat) : (s.countN off n).time = s.time := rfl
@[simp] theorem State.countN_nv (s : State) (off n : Nat) : (s.countN off n).nv = s.nv := rfl
@[simp] theorem State.countN_boot (s : State) (off n : Nat) : (s.countN off n).boot = s.boot := rfl
@[simp] theorem State.countN_eth (s : State) (off n : Nat) : (s.countN off n).eth = s.eth := rfl
@[simp] theorem State.countN_leat (s : State) (off n : Nat) : (s.countN off n).leat = s.leat := rfl
@[simp] theorem State.countN_ops (s : State) (off n : Nat) : (s.countN off n).ops = s.ops := rfl
@[simp] theorem State.countN_opSerial (s : State) (off n : Nat) : (s.countN off n).opSerial = s.opSerial := rfl
@[simp] theorem State.countN_work (s : State) (off n : Nat) : (s.countN off n).work = s.work := rfl
@[simp] theorem State.countN_qps (s : State) (off n : Nat) : (s.countN off n).qps = s.qps := rfl
@[simp] theorem State.countN_sec (s : State) (off n : Nat) : (s.countN off n).sec = s.sec := rfl
@[simp] theorem State.countN_smb (s : State) (off n : Nat) : (s.countN off n).smb = s.smb := rfl
@[simp] theorem State.countN_tap (s : State) (off n : Nat) : (s.countN off n).tap = s.tap := rfl
@[simp] theorem State.countN_tests (s : State) (off n : Nat) : (s.countN off n).tests = s.tests := rfl
@[simp] theorem State.countN_fwLen (s : State) (off n : Nat) : (s.countN off n).fwLen = s.fwLen := rfl
@[simp] theorem State.countN_base (s : State) (off n : Nat) : (s.countN off n).base = s.base := rfl
@[simp] theorem State.countN_mirror (s : State) (off n : Nat) : (s.countN off n).mirror = s.mirror := rfl
@[simp] theorem State.countN_ctrClear (s : State) (off n : Nat) : (s.countN off n).ctrClear = s.ctrClear := rfl
@[simp] theorem State.countN_mills (s : State) (off n : Nat) : (s.countN off n).mills = s.mills := rfl
@[simp] theorem State.countN_mem (s : State) (off n : Nat) : (s.countN off n).mem = s.mem := rfl
@[simp] theorem State.countN_syn (s : State) (off n : Nat) : (s.countN off n).syn = s.syn := rfl
@[simp] theorem State.countN_kettle (s : State) (off n : Nat) : (s.countN off n).kettle = s.kettle := rfl
@[simp] theorem State.countN_kettleSyn (s : State) (off n : Nat) : (s.countN off n).kettleSyn = s.kettleSyn := rfl
@[simp] theorem State.countN_memctl (s : State) (off n : Nat) : (s.countN off n).memctl = s.memctl := rfl
@[simp] theorem State.countN_banks (s : State) (off n : Nat) : (s.countN off n).banks = s.banks := rfl
@[simp] theorem State.countN_races (s : State) (off n : Nat) : (s.countN off n).races = s.races := rfl
@[simp] theorem State.countN_feeds (s : State) (off n : Nat) : (s.countN off n).feeds = s.feeds := rfl
@[simp] theorem State.countN_ports (s : State) (off n : Nat) : (s.countN off n).ports = s.ports := rfl
@[simp] theorem State.countN_folds (s : State) (off n : Nat) : (s.countN off n).folds = s.folds := rfl
@[simp] theorem State.countN_due (s : State) (off n : Nat) : (s.countN off n).due = s.due := rfl
@[simp] theorem State.countN_noc (s : State) (off n : Nat) : (s.countN off n).noc = s.noc := rfl
@[simp] theorem State.countN_streams (s : State) (off n : Nat) : (s.countN off n).streams = s.streams := rfl
@[simp] theorem State.countN_shapes (s : State) (off n : Nat) : (s.countN off n).shapes = s.shapes := rfl
@[simp] theorem State.countN_tenters (s : State) (off n : Nat) : (s.countN off n).tenters = s.tenters := rfl
@[simp] theorem State.countN_carders (s : State) (off n : Nat) : (s.countN off n).carders = s.carders := rfl
@[simp] theorem State.countN_image (s : State) (off n : Nat) : (s.countN off n).image = s.image := rfl
@[simp] theorem State.countN_loading (s : State) (off n : Nat) : (s.countN off n).loading = s.loading := rfl
@[simp] theorem State.countN_img (s : State) (off n : Nat) : (s.countN off n).img = s.img := rfl
@[simp] theorem State.countN_shapeLog (s : State) (off n : Nat) : (s.countN off n).shapeLog = s.shapeLog := rfl
@[simp] theorem State.countN_weirs (s : State) (off n : Nat) : (s.countN off n).weirs = s.weirs := rfl
@[simp] theorem State.countN_weirLog (s : State) (off n : Nat) : (s.countN off n).weirLog = s.weirLog := rfl
@[simp] theorem State.countN_deadLog (s : State) (off n : Nat) : (s.countN off n).deadLog = s.deadLog := rfl
@[simp] theorem State.countN_ctx (s : State) (off n : Nat) : (s.countN off n).ctx = s.ctx := rfl
@[simp] theorem State.countN_flume (s : State) (off n : Nat) : (s.countN off n).flume = s.flume := rfl
@[simp] theorem State.countN_wheel (s : State) (off n : Nat) : (s.countN off n).wheel = s.wheel := rfl
@[simp] theorem State.countN_run (s : State) (off n : Nat) : (s.countN off n).run = s.run := rfl
@[simp] theorem State.countN_snap (s : State) (off n : Nat) : (s.countN off n).snap = s.snap := rfl
@[simp] theorem State.countN_restore (s : State) (off n : Nat) : (s.countN off n).restore = s.restore := rfl
@[simp] theorem State.countN_health (s : State) (off n : Nat) : (s.countN off n).health = s.health := rfl
@[simp] theorem State.count_pending (s : State) (off : Nat) : (s.count off).pending = s.pending := rfl
@[simp] theorem State.count_fresh (s : State) (off : Nat) : (s.count off).fresh = s.fresh := rfl
@[simp] theorem State.count_out (s : State) (off : Nat) : (s.count off).out = s.out := rfl
@[simp] theorem State.count_pwr (s : State) (off : Nat) : (s.count off).pwr = s.pwr := rfl
@[simp] theorem State.count_clk (s : State) (off : Nat) : (s.count off).clk = s.clk := rfl
@[simp] theorem State.count_time (s : State) (off : Nat) : (s.count off).time = s.time := rfl
@[simp] theorem State.count_nv (s : State) (off : Nat) : (s.count off).nv = s.nv := rfl
@[simp] theorem State.count_boot (s : State) (off : Nat) : (s.count off).boot = s.boot := rfl
@[simp] theorem State.count_eth (s : State) (off : Nat) : (s.count off).eth = s.eth := rfl
@[simp] theorem State.count_leat (s : State) (off : Nat) : (s.count off).leat = s.leat := rfl
@[simp] theorem State.count_ops (s : State) (off : Nat) : (s.count off).ops = s.ops := rfl
@[simp] theorem State.count_opSerial (s : State) (off : Nat) : (s.count off).opSerial = s.opSerial := rfl
@[simp] theorem State.count_work (s : State) (off : Nat) : (s.count off).work = s.work := rfl
@[simp] theorem State.count_qps (s : State) (off : Nat) : (s.count off).qps = s.qps := rfl
@[simp] theorem State.count_sec (s : State) (off : Nat) : (s.count off).sec = s.sec := rfl
@[simp] theorem State.count_smb (s : State) (off : Nat) : (s.count off).smb = s.smb := rfl
@[simp] theorem State.count_tap (s : State) (off : Nat) : (s.count off).tap = s.tap := rfl
@[simp] theorem State.count_tests (s : State) (off : Nat) : (s.count off).tests = s.tests := rfl
@[simp] theorem State.count_fwLen (s : State) (off : Nat) : (s.count off).fwLen = s.fwLen := rfl
@[simp] theorem State.count_base (s : State) (off : Nat) : (s.count off).base = s.base := rfl
@[simp] theorem State.count_mirror (s : State) (off : Nat) : (s.count off).mirror = s.mirror := rfl
@[simp] theorem State.count_ctrClear (s : State) (off : Nat) : (s.count off).ctrClear = s.ctrClear := rfl
@[simp] theorem State.count_mills (s : State) (off : Nat) : (s.count off).mills = s.mills := rfl
@[simp] theorem State.count_mem (s : State) (off : Nat) : (s.count off).mem = s.mem := rfl
@[simp] theorem State.count_syn (s : State) (off : Nat) : (s.count off).syn = s.syn := rfl
@[simp] theorem State.count_kettle (s : State) (off : Nat) : (s.count off).kettle = s.kettle := rfl
@[simp] theorem State.count_kettleSyn (s : State) (off : Nat) : (s.count off).kettleSyn = s.kettleSyn := rfl
@[simp] theorem State.count_memctl (s : State) (off : Nat) : (s.count off).memctl = s.memctl := rfl
@[simp] theorem State.count_banks (s : State) (off : Nat) : (s.count off).banks = s.banks := rfl
@[simp] theorem State.count_races (s : State) (off : Nat) : (s.count off).races = s.races := rfl
@[simp] theorem State.count_feeds (s : State) (off : Nat) : (s.count off).feeds = s.feeds := rfl
@[simp] theorem State.count_ports (s : State) (off : Nat) : (s.count off).ports = s.ports := rfl
@[simp] theorem State.count_folds (s : State) (off : Nat) : (s.count off).folds = s.folds := rfl
@[simp] theorem State.count_due (s : State) (off : Nat) : (s.count off).due = s.due := rfl
@[simp] theorem State.count_noc (s : State) (off : Nat) : (s.count off).noc = s.noc := rfl
@[simp] theorem State.count_streams (s : State) (off : Nat) : (s.count off).streams = s.streams := rfl
@[simp] theorem State.count_shapes (s : State) (off : Nat) : (s.count off).shapes = s.shapes := rfl
@[simp] theorem State.count_tenters (s : State) (off : Nat) : (s.count off).tenters = s.tenters := rfl
@[simp] theorem State.count_carders (s : State) (off : Nat) : (s.count off).carders = s.carders := rfl
@[simp] theorem State.count_image (s : State) (off : Nat) : (s.count off).image = s.image := rfl
@[simp] theorem State.count_loading (s : State) (off : Nat) : (s.count off).loading = s.loading := rfl
@[simp] theorem State.count_img (s : State) (off : Nat) : (s.count off).img = s.img := rfl
@[simp] theorem State.count_shapeLog (s : State) (off : Nat) : (s.count off).shapeLog = s.shapeLog := rfl
@[simp] theorem State.count_weirs (s : State) (off : Nat) : (s.count off).weirs = s.weirs := rfl
@[simp] theorem State.count_weirLog (s : State) (off : Nat) : (s.count off).weirLog = s.weirLog := rfl
@[simp] theorem State.count_deadLog (s : State) (off : Nat) : (s.count off).deadLog = s.deadLog := rfl
@[simp] theorem State.count_ctx (s : State) (off : Nat) : (s.count off).ctx = s.ctx := rfl
@[simp] theorem State.count_flume (s : State) (off : Nat) : (s.count off).flume = s.flume := rfl
@[simp] theorem State.count_wheel (s : State) (off : Nat) : (s.count off).wheel = s.wheel := rfl
@[simp] theorem State.count_run (s : State) (off : Nat) : (s.count off).run = s.run := rfl
@[simp] theorem State.count_snap (s : State) (off : Nat) : (s.count off).snap = s.snap := rfl
@[simp] theorem State.count_restore (s : State) (off : Nat) : (s.count off).restore = s.restore := rfl
@[simp] theorem State.count_health (s : State) (off : Nat) : (s.count off).health = s.health := rfl
@[simp] theorem State.emit_pending (s : State) (o : Output) : (s.emit o).pending = s.pending := rfl
@[simp] theorem State.emit_fresh (s : State) (o : Output) : (s.emit o).fresh = s.fresh := rfl
@[simp] theorem State.emit_pwr (s : State) (o : Output) : (s.emit o).pwr = s.pwr := rfl
@[simp] theorem State.emit_clk (s : State) (o : Output) : (s.emit o).clk = s.clk := rfl
@[simp] theorem State.emit_time (s : State) (o : Output) : (s.emit o).time = s.time := rfl
@[simp] theorem State.emit_nv (s : State) (o : Output) : (s.emit o).nv = s.nv := rfl
@[simp] theorem State.emit_boot (s : State) (o : Output) : (s.emit o).boot = s.boot := rfl
@[simp] theorem State.emit_eth (s : State) (o : Output) : (s.emit o).eth = s.eth := rfl
@[simp] theorem State.emit_leat (s : State) (o : Output) : (s.emit o).leat = s.leat := rfl
@[simp] theorem State.emit_ops (s : State) (o : Output) : (s.emit o).ops = s.ops := rfl
@[simp] theorem State.emit_opSerial (s : State) (o : Output) : (s.emit o).opSerial = s.opSerial := rfl
@[simp] theorem State.emit_work (s : State) (o : Output) : (s.emit o).work = s.work := rfl
@[simp] theorem State.emit_qps (s : State) (o : Output) : (s.emit o).qps = s.qps := rfl
@[simp] theorem State.emit_sec (s : State) (o : Output) : (s.emit o).sec = s.sec := rfl
@[simp] theorem State.emit_smb (s : State) (o : Output) : (s.emit o).smb = s.smb := rfl
@[simp] theorem State.emit_tap (s : State) (o : Output) : (s.emit o).tap = s.tap := rfl
@[simp] theorem State.emit_tests (s : State) (o : Output) : (s.emit o).tests = s.tests := rfl
@[simp] theorem State.emit_fwLen (s : State) (o : Output) : (s.emit o).fwLen = s.fwLen := rfl
@[simp] theorem State.emit_cnt (s : State) (o : Output) : (s.emit o).cnt = s.cnt := rfl
@[simp] theorem State.emit_base (s : State) (o : Output) : (s.emit o).base = s.base := rfl
@[simp] theorem State.emit_mirror (s : State) (o : Output) : (s.emit o).mirror = s.mirror := rfl
@[simp] theorem State.emit_ctrClear (s : State) (o : Output) : (s.emit o).ctrClear = s.ctrClear := rfl
@[simp] theorem State.emit_mills (s : State) (o : Output) : (s.emit o).mills = s.mills := rfl
@[simp] theorem State.emit_mem (s : State) (o : Output) : (s.emit o).mem = s.mem := rfl
@[simp] theorem State.emit_syn (s : State) (o : Output) : (s.emit o).syn = s.syn := rfl
@[simp] theorem State.emit_kettle (s : State) (o : Output) : (s.emit o).kettle = s.kettle := rfl
@[simp] theorem State.emit_kettleSyn (s : State) (o : Output) : (s.emit o).kettleSyn = s.kettleSyn := rfl
@[simp] theorem State.emit_memctl (s : State) (o : Output) : (s.emit o).memctl = s.memctl := rfl
@[simp] theorem State.emit_banks (s : State) (o : Output) : (s.emit o).banks = s.banks := rfl
@[simp] theorem State.emit_races (s : State) (o : Output) : (s.emit o).races = s.races := rfl
@[simp] theorem State.emit_feeds (s : State) (o : Output) : (s.emit o).feeds = s.feeds := rfl
@[simp] theorem State.emit_ports (s : State) (o : Output) : (s.emit o).ports = s.ports := rfl
@[simp] theorem State.emit_folds (s : State) (o : Output) : (s.emit o).folds = s.folds := rfl
@[simp] theorem State.emit_due (s : State) (o : Output) : (s.emit o).due = s.due := rfl
@[simp] theorem State.emit_noc (s : State) (o : Output) : (s.emit o).noc = s.noc := rfl
@[simp] theorem State.emit_streams (s : State) (o : Output) : (s.emit o).streams = s.streams := rfl
@[simp] theorem State.emit_shapes (s : State) (o : Output) : (s.emit o).shapes = s.shapes := rfl
@[simp] theorem State.emit_tenters (s : State) (o : Output) : (s.emit o).tenters = s.tenters := rfl
@[simp] theorem State.emit_carders (s : State) (o : Output) : (s.emit o).carders = s.carders := rfl
@[simp] theorem State.emit_image (s : State) (o : Output) : (s.emit o).image = s.image := rfl
@[simp] theorem State.emit_loading (s : State) (o : Output) : (s.emit o).loading = s.loading := rfl
@[simp] theorem State.emit_img (s : State) (o : Output) : (s.emit o).img = s.img := rfl
@[simp] theorem State.emit_shapeLog (s : State) (o : Output) : (s.emit o).shapeLog = s.shapeLog := rfl
@[simp] theorem State.emit_weirs (s : State) (o : Output) : (s.emit o).weirs = s.weirs := rfl
@[simp] theorem State.emit_weirLog (s : State) (o : Output) : (s.emit o).weirLog = s.weirLog := rfl
@[simp] theorem State.emit_deadLog (s : State) (o : Output) : (s.emit o).deadLog = s.deadLog := rfl
@[simp] theorem State.emit_ctx (s : State) (o : Output) : (s.emit o).ctx = s.ctx := rfl
@[simp] theorem State.emit_flume (s : State) (o : Output) : (s.emit o).flume = s.flume := rfl
@[simp] theorem State.emit_wheel (s : State) (o : Output) : (s.emit o).wheel = s.wheel := rfl
@[simp] theorem State.emit_run (s : State) (o : Output) : (s.emit o).run = s.run := rfl
@[simp] theorem State.emit_snap (s : State) (o : Output) : (s.emit o).snap = s.snap := rfl
@[simp] theorem State.emit_restore (s : State) (o : Output) : (s.emit o).restore = s.restore := rfl
@[simp] theorem State.emit_health (s : State) (o : Output) : (s.emit o).health = s.health := rfl
@[simp] theorem State.rx_pending (s : State) (p : Fin 2) : (s.rx p).pending = s.pending := rfl
@[simp] theorem State.rx_fresh (s : State) (p : Fin 2) : (s.rx p).fresh = s.fresh := rfl
@[simp] theorem State.rx_out (s : State) (p : Fin 2) : (s.rx p).out = s.out := rfl
@[simp] theorem State.rx_pwr (s : State) (p : Fin 2) : (s.rx p).pwr = s.pwr := rfl
@[simp] theorem State.rx_clk (s : State) (p : Fin 2) : (s.rx p).clk = s.clk := rfl
@[simp] theorem State.rx_time (s : State) (p : Fin 2) : (s.rx p).time = s.time := rfl
@[simp] theorem State.rx_nv (s : State) (p : Fin 2) : (s.rx p).nv = s.nv := rfl
@[simp] theorem State.rx_boot (s : State) (p : Fin 2) : (s.rx p).boot = s.boot := rfl
@[simp] theorem State.rx_eth (s : State) (p : Fin 2) : (s.rx p).eth = s.eth := rfl
@[simp] theorem State.rx_leat (s : State) (p : Fin 2) : (s.rx p).leat = s.leat := rfl
@[simp] theorem State.rx_ops (s : State) (p : Fin 2) : (s.rx p).ops = s.ops := rfl
@[simp] theorem State.rx_opSerial (s : State) (p : Fin 2) : (s.rx p).opSerial = s.opSerial := rfl
@[simp] theorem State.rx_work (s : State) (p : Fin 2) : (s.rx p).work = s.work := rfl
@[simp] theorem State.rx_qps (s : State) (p : Fin 2) : (s.rx p).qps = s.qps := rfl
@[simp] theorem State.rx_sec (s : State) (p : Fin 2) : (s.rx p).sec = s.sec := rfl
@[simp] theorem State.rx_smb (s : State) (p : Fin 2) : (s.rx p).smb = s.smb := rfl
@[simp] theorem State.rx_tap (s : State) (p : Fin 2) : (s.rx p).tap = s.tap := rfl
@[simp] theorem State.rx_tests (s : State) (p : Fin 2) : (s.rx p).tests = s.tests := rfl
@[simp] theorem State.rx_fwLen (s : State) (p : Fin 2) : (s.rx p).fwLen = s.fwLen := rfl
@[simp] theorem State.rx_base (s : State) (p : Fin 2) : (s.rx p).base = s.base := rfl
@[simp] theorem State.rx_mirror (s : State) (p : Fin 2) : (s.rx p).mirror = s.mirror := rfl
@[simp] theorem State.rx_ctrClear (s : State) (p : Fin 2) : (s.rx p).ctrClear = s.ctrClear := rfl
@[simp] theorem State.rx_mills (s : State) (p : Fin 2) : (s.rx p).mills = s.mills := rfl
@[simp] theorem State.rx_mem (s : State) (p : Fin 2) : (s.rx p).mem = s.mem := rfl
@[simp] theorem State.rx_syn (s : State) (p : Fin 2) : (s.rx p).syn = s.syn := rfl
@[simp] theorem State.rx_kettle (s : State) (p : Fin 2) : (s.rx p).kettle = s.kettle := rfl
@[simp] theorem State.rx_kettleSyn (s : State) (p : Fin 2) : (s.rx p).kettleSyn = s.kettleSyn := rfl
@[simp] theorem State.rx_memctl (s : State) (p : Fin 2) : (s.rx p).memctl = s.memctl := rfl
@[simp] theorem State.rx_banks (s : State) (p : Fin 2) : (s.rx p).banks = s.banks := rfl
@[simp] theorem State.rx_races (s : State) (p : Fin 2) : (s.rx p).races = s.races := rfl
@[simp] theorem State.rx_feeds (s : State) (p : Fin 2) : (s.rx p).feeds = s.feeds := rfl
@[simp] theorem State.rx_ports (s : State) (p : Fin 2) : (s.rx p).ports = s.ports := rfl
@[simp] theorem State.rx_folds (s : State) (p : Fin 2) : (s.rx p).folds = s.folds := rfl
@[simp] theorem State.rx_due (s : State) (p : Fin 2) : (s.rx p).due = s.due := rfl
@[simp] theorem State.rx_noc (s : State) (p : Fin 2) : (s.rx p).noc = s.noc := rfl
@[simp] theorem State.rx_streams (s : State) (p : Fin 2) : (s.rx p).streams = s.streams := rfl
@[simp] theorem State.rx_shapes (s : State) (p : Fin 2) : (s.rx p).shapes = s.shapes := rfl
@[simp] theorem State.rx_tenters (s : State) (p : Fin 2) : (s.rx p).tenters = s.tenters := rfl
@[simp] theorem State.rx_carders (s : State) (p : Fin 2) : (s.rx p).carders = s.carders := rfl
@[simp] theorem State.rx_image (s : State) (p : Fin 2) : (s.rx p).image = s.image := rfl
@[simp] theorem State.rx_loading (s : State) (p : Fin 2) : (s.rx p).loading = s.loading := rfl
@[simp] theorem State.rx_img (s : State) (p : Fin 2) : (s.rx p).img = s.img := rfl
@[simp] theorem State.rx_shapeLog (s : State) (p : Fin 2) : (s.rx p).shapeLog = s.shapeLog := rfl
@[simp] theorem State.rx_weirs (s : State) (p : Fin 2) : (s.rx p).weirs = s.weirs := rfl
@[simp] theorem State.rx_weirLog (s : State) (p : Fin 2) : (s.rx p).weirLog = s.weirLog := rfl
@[simp] theorem State.rx_deadLog (s : State) (p : Fin 2) : (s.rx p).deadLog = s.deadLog := rfl
@[simp] theorem State.rx_ctx (s : State) (p : Fin 2) : (s.rx p).ctx = s.ctx := rfl
@[simp] theorem State.rx_flume (s : State) (p : Fin 2) : (s.rx p).flume = s.flume := rfl
@[simp] theorem State.rx_wheel (s : State) (p : Fin 2) : (s.rx p).wheel = s.wheel := rfl
@[simp] theorem State.rx_run (s : State) (p : Fin 2) : (s.rx p).run = s.run := rfl
@[simp] theorem State.rx_snap (s : State) (p : Fin 2) : (s.rx p).snap = s.snap := rfl
@[simp] theorem State.rx_restore (s : State) (p : Fin 2) : (s.rx p).restore = s.restore := rfl
@[simp] theorem State.rx_health (s : State) (p : Fin 2) : (s.rx p).health = s.health := rfl
@[simp] theorem State.tx_pending (s : State) (p : Fin 2) : (s.tx p).pending = s.pending := rfl
@[simp] theorem State.tx_fresh (s : State) (p : Fin 2) : (s.tx p).fresh = s.fresh := rfl
@[simp] theorem State.tx_out (s : State) (p : Fin 2) : (s.tx p).out = s.out := rfl
@[simp] theorem State.tx_pwr (s : State) (p : Fin 2) : (s.tx p).pwr = s.pwr := rfl
@[simp] theorem State.tx_clk (s : State) (p : Fin 2) : (s.tx p).clk = s.clk := rfl
@[simp] theorem State.tx_time (s : State) (p : Fin 2) : (s.tx p).time = s.time := rfl
@[simp] theorem State.tx_nv (s : State) (p : Fin 2) : (s.tx p).nv = s.nv := rfl
@[simp] theorem State.tx_boot (s : State) (p : Fin 2) : (s.tx p).boot = s.boot := rfl
@[simp] theorem State.tx_eth (s : State) (p : Fin 2) : (s.tx p).eth = s.eth := rfl
@[simp] theorem State.tx_leat (s : State) (p : Fin 2) : (s.tx p).leat = s.leat := rfl
@[simp] theorem State.tx_ops (s : State) (p : Fin 2) : (s.tx p).ops = s.ops := rfl
@[simp] theorem State.tx_opSerial (s : State) (p : Fin 2) : (s.tx p).opSerial = s.opSerial := rfl
@[simp] theorem State.tx_work (s : State) (p : Fin 2) : (s.tx p).work = s.work := rfl
@[simp] theorem State.tx_qps (s : State) (p : Fin 2) : (s.tx p).qps = s.qps := rfl
@[simp] theorem State.tx_sec (s : State) (p : Fin 2) : (s.tx p).sec = s.sec := rfl
@[simp] theorem State.tx_smb (s : State) (p : Fin 2) : (s.tx p).smb = s.smb := rfl
@[simp] theorem State.tx_tap (s : State) (p : Fin 2) : (s.tx p).tap = s.tap := rfl
@[simp] theorem State.tx_tests (s : State) (p : Fin 2) : (s.tx p).tests = s.tests := rfl
@[simp] theorem State.tx_fwLen (s : State) (p : Fin 2) : (s.tx p).fwLen = s.fwLen := rfl
@[simp] theorem State.tx_base (s : State) (p : Fin 2) : (s.tx p).base = s.base := rfl
@[simp] theorem State.tx_mirror (s : State) (p : Fin 2) : (s.tx p).mirror = s.mirror := rfl
@[simp] theorem State.tx_ctrClear (s : State) (p : Fin 2) : (s.tx p).ctrClear = s.ctrClear := rfl
@[simp] theorem State.tx_mills (s : State) (p : Fin 2) : (s.tx p).mills = s.mills := rfl
@[simp] theorem State.tx_mem (s : State) (p : Fin 2) : (s.tx p).mem = s.mem := rfl
@[simp] theorem State.tx_syn (s : State) (p : Fin 2) : (s.tx p).syn = s.syn := rfl
@[simp] theorem State.tx_kettle (s : State) (p : Fin 2) : (s.tx p).kettle = s.kettle := rfl
@[simp] theorem State.tx_kettleSyn (s : State) (p : Fin 2) : (s.tx p).kettleSyn = s.kettleSyn := rfl
@[simp] theorem State.tx_memctl (s : State) (p : Fin 2) : (s.tx p).memctl = s.memctl := rfl
@[simp] theorem State.tx_banks (s : State) (p : Fin 2) : (s.tx p).banks = s.banks := rfl
@[simp] theorem State.tx_races (s : State) (p : Fin 2) : (s.tx p).races = s.races := rfl
@[simp] theorem State.tx_feeds (s : State) (p : Fin 2) : (s.tx p).feeds = s.feeds := rfl
@[simp] theorem State.tx_ports (s : State) (p : Fin 2) : (s.tx p).ports = s.ports := rfl
@[simp] theorem State.tx_folds (s : State) (p : Fin 2) : (s.tx p).folds = s.folds := rfl
@[simp] theorem State.tx_due (s : State) (p : Fin 2) : (s.tx p).due = s.due := rfl
@[simp] theorem State.tx_noc (s : State) (p : Fin 2) : (s.tx p).noc = s.noc := rfl
@[simp] theorem State.tx_streams (s : State) (p : Fin 2) : (s.tx p).streams = s.streams := rfl
@[simp] theorem State.tx_shapes (s : State) (p : Fin 2) : (s.tx p).shapes = s.shapes := rfl
@[simp] theorem State.tx_tenters (s : State) (p : Fin 2) : (s.tx p).tenters = s.tenters := rfl
@[simp] theorem State.tx_carders (s : State) (p : Fin 2) : (s.tx p).carders = s.carders := rfl
@[simp] theorem State.tx_image (s : State) (p : Fin 2) : (s.tx p).image = s.image := rfl
@[simp] theorem State.tx_loading (s : State) (p : Fin 2) : (s.tx p).loading = s.loading := rfl
@[simp] theorem State.tx_img (s : State) (p : Fin 2) : (s.tx p).img = s.img := rfl
@[simp] theorem State.tx_shapeLog (s : State) (p : Fin 2) : (s.tx p).shapeLog = s.shapeLog := rfl
@[simp] theorem State.tx_weirs (s : State) (p : Fin 2) : (s.tx p).weirs = s.weirs := rfl
@[simp] theorem State.tx_weirLog (s : State) (p : Fin 2) : (s.tx p).weirLog = s.weirLog := rfl
@[simp] theorem State.tx_deadLog (s : State) (p : Fin 2) : (s.tx p).deadLog = s.deadLog := rfl
@[simp] theorem State.tx_ctx (s : State) (p : Fin 2) : (s.tx p).ctx = s.ctx := rfl
@[simp] theorem State.tx_flume (s : State) (p : Fin 2) : (s.tx p).flume = s.flume := rfl
@[simp] theorem State.tx_wheel (s : State) (p : Fin 2) : (s.tx p).wheel = s.wheel := rfl
@[simp] theorem State.tx_run (s : State) (p : Fin 2) : (s.tx p).run = s.run := rfl
@[simp] theorem State.tx_snap (s : State) (p : Fin 2) : (s.tx p).snap = s.snap := rfl
@[simp] theorem State.tx_restore (s : State) (p : Fin 2) : (s.tx p).restore = s.restore := rfl
@[simp] theorem State.tx_health (s : State) (p : Fin 2) : (s.tx p).health = s.health := rfl
@[simp] theorem State.setAlert_pending (s : State) (b : Nat) : (s.setAlert b).pending = s.pending := rfl
@[simp] theorem State.setAlert_fresh (s : State) (b : Nat) : (s.setAlert b).fresh = s.fresh := rfl
@[simp] theorem State.setAlert_out (s : State) (b : Nat) : (s.setAlert b).out = s.out := rfl
@[simp] theorem State.setAlert_clk (s : State) (b : Nat) : (s.setAlert b).clk = s.clk := rfl
@[simp] theorem State.setAlert_time (s : State) (b : Nat) : (s.setAlert b).time = s.time := rfl
@[simp] theorem State.setAlert_nv (s : State) (b : Nat) : (s.setAlert b).nv = s.nv := rfl
@[simp] theorem State.setAlert_boot (s : State) (b : Nat) : (s.setAlert b).boot = s.boot := rfl
@[simp] theorem State.setAlert_eth (s : State) (b : Nat) : (s.setAlert b).eth = s.eth := rfl
@[simp] theorem State.setAlert_leat (s : State) (b : Nat) : (s.setAlert b).leat = s.leat := rfl
@[simp] theorem State.setAlert_ops (s : State) (b : Nat) : (s.setAlert b).ops = s.ops := rfl
@[simp] theorem State.setAlert_opSerial (s : State) (b : Nat) : (s.setAlert b).opSerial = s.opSerial := rfl
@[simp] theorem State.setAlert_work (s : State) (b : Nat) : (s.setAlert b).work = s.work := rfl
@[simp] theorem State.setAlert_qps (s : State) (b : Nat) : (s.setAlert b).qps = s.qps := rfl
@[simp] theorem State.setAlert_sec (s : State) (b : Nat) : (s.setAlert b).sec = s.sec := rfl
@[simp] theorem State.setAlert_smb (s : State) (b : Nat) : (s.setAlert b).smb = s.smb := rfl
@[simp] theorem State.setAlert_tap (s : State) (b : Nat) : (s.setAlert b).tap = s.tap := rfl
@[simp] theorem State.setAlert_tests (s : State) (b : Nat) : (s.setAlert b).tests = s.tests := rfl
@[simp] theorem State.setAlert_fwLen (s : State) (b : Nat) : (s.setAlert b).fwLen = s.fwLen := rfl
@[simp] theorem State.setAlert_cnt (s : State) (b : Nat) : (s.setAlert b).cnt = s.cnt := rfl
@[simp] theorem State.setAlert_base (s : State) (b : Nat) : (s.setAlert b).base = s.base := rfl
@[simp] theorem State.setAlert_mirror (s : State) (b : Nat) : (s.setAlert b).mirror = s.mirror := rfl
@[simp] theorem State.setAlert_ctrClear (s : State) (b : Nat) : (s.setAlert b).ctrClear = s.ctrClear := rfl
@[simp] theorem State.setAlert_mills (s : State) (b : Nat) : (s.setAlert b).mills = s.mills := rfl
@[simp] theorem State.setAlert_mem (s : State) (b : Nat) : (s.setAlert b).mem = s.mem := rfl
@[simp] theorem State.setAlert_syn (s : State) (b : Nat) : (s.setAlert b).syn = s.syn := rfl
@[simp] theorem State.setAlert_kettle (s : State) (b : Nat) : (s.setAlert b).kettle = s.kettle := rfl
@[simp] theorem State.setAlert_kettleSyn (s : State) (b : Nat) : (s.setAlert b).kettleSyn = s.kettleSyn := rfl
@[simp] theorem State.setAlert_memctl (s : State) (b : Nat) : (s.setAlert b).memctl = s.memctl := rfl
@[simp] theorem State.setAlert_banks (s : State) (b : Nat) : (s.setAlert b).banks = s.banks := rfl
@[simp] theorem State.setAlert_races (s : State) (b : Nat) : (s.setAlert b).races = s.races := rfl
@[simp] theorem State.setAlert_feeds (s : State) (b : Nat) : (s.setAlert b).feeds = s.feeds := rfl
@[simp] theorem State.setAlert_ports (s : State) (b : Nat) : (s.setAlert b).ports = s.ports := rfl
@[simp] theorem State.setAlert_folds (s : State) (b : Nat) : (s.setAlert b).folds = s.folds := rfl
@[simp] theorem State.setAlert_due (s : State) (b : Nat) : (s.setAlert b).due = s.due := rfl
@[simp] theorem State.setAlert_noc (s : State) (b : Nat) : (s.setAlert b).noc = s.noc := rfl
@[simp] theorem State.setAlert_streams (s : State) (b : Nat) : (s.setAlert b).streams = s.streams := rfl
@[simp] theorem State.setAlert_shapes (s : State) (b : Nat) : (s.setAlert b).shapes = s.shapes := rfl
@[simp] theorem State.setAlert_tenters (s : State) (b : Nat) : (s.setAlert b).tenters = s.tenters := rfl
@[simp] theorem State.setAlert_carders (s : State) (b : Nat) : (s.setAlert b).carders = s.carders := rfl
@[simp] theorem State.setAlert_image (s : State) (b : Nat) : (s.setAlert b).image = s.image := rfl
@[simp] theorem State.setAlert_loading (s : State) (b : Nat) : (s.setAlert b).loading = s.loading := rfl
@[simp] theorem State.setAlert_img (s : State) (b : Nat) : (s.setAlert b).img = s.img := rfl
@[simp] theorem State.setAlert_shapeLog (s : State) (b : Nat) : (s.setAlert b).shapeLog = s.shapeLog := rfl
@[simp] theorem State.setAlert_weirs (s : State) (b : Nat) : (s.setAlert b).weirs = s.weirs := rfl
@[simp] theorem State.setAlert_weirLog (s : State) (b : Nat) : (s.setAlert b).weirLog = s.weirLog := rfl
@[simp] theorem State.setAlert_deadLog (s : State) (b : Nat) : (s.setAlert b).deadLog = s.deadLog := rfl
@[simp] theorem State.setAlert_ctx (s : State) (b : Nat) : (s.setAlert b).ctx = s.ctx := rfl
@[simp] theorem State.setAlert_flume (s : State) (b : Nat) : (s.setAlert b).flume = s.flume := rfl
@[simp] theorem State.setAlert_wheel (s : State) (b : Nat) : (s.setAlert b).wheel = s.wheel := rfl
@[simp] theorem State.setAlert_run (s : State) (b : Nat) : (s.setAlert b).run = s.run := rfl
@[simp] theorem State.setAlert_snap (s : State) (b : Nat) : (s.setAlert b).snap = s.snap := rfl
@[simp] theorem State.setAlert_restore (s : State) (b : Nat) : (s.setAlert b).restore = s.restore := rfl
@[simp] theorem State.setAlert_health (s : State) (b : Nat) : (s.setAlert b).health = s.health := rfl
@[simp] theorem State.markSent_pending (s : State) (q : Nat) : (s.markSent q).pending = s.pending := rfl
@[simp] theorem State.markSent_fresh (s : State) (q : Nat) : (s.markSent q).fresh = s.fresh := rfl
@[simp] theorem State.markSent_out (s : State) (q : Nat) : (s.markSent q).out = s.out := rfl
@[simp] theorem State.markSent_pwr (s : State) (q : Nat) : (s.markSent q).pwr = s.pwr := rfl
@[simp] theorem State.markSent_clk (s : State) (q : Nat) : (s.markSent q).clk = s.clk := rfl
@[simp] theorem State.markSent_time (s : State) (q : Nat) : (s.markSent q).time = s.time := rfl
@[simp] theorem State.markSent_nv (s : State) (q : Nat) : (s.markSent q).nv = s.nv := rfl
@[simp] theorem State.markSent_boot (s : State) (q : Nat) : (s.markSent q).boot = s.boot := rfl
@[simp] theorem State.markSent_eth (s : State) (q : Nat) : (s.markSent q).eth = s.eth := rfl
@[simp] theorem State.markSent_ops (s : State) (q : Nat) : (s.markSent q).ops = s.ops := rfl
@[simp] theorem State.markSent_opSerial (s : State) (q : Nat) : (s.markSent q).opSerial = s.opSerial := rfl
@[simp] theorem State.markSent_work (s : State) (q : Nat) : (s.markSent q).work = s.work := rfl
@[simp] theorem State.markSent_qps (s : State) (q : Nat) : (s.markSent q).qps = s.qps := rfl
@[simp] theorem State.markSent_sec (s : State) (q : Nat) : (s.markSent q).sec = s.sec := rfl
@[simp] theorem State.markSent_smb (s : State) (q : Nat) : (s.markSent q).smb = s.smb := rfl
@[simp] theorem State.markSent_tap (s : State) (q : Nat) : (s.markSent q).tap = s.tap := rfl
@[simp] theorem State.markSent_tests (s : State) (q : Nat) : (s.markSent q).tests = s.tests := rfl
@[simp] theorem State.markSent_fwLen (s : State) (q : Nat) : (s.markSent q).fwLen = s.fwLen := rfl
@[simp] theorem State.markSent_cnt (s : State) (q : Nat) : (s.markSent q).cnt = s.cnt := rfl
@[simp] theorem State.markSent_base (s : State) (q : Nat) : (s.markSent q).base = s.base := rfl
@[simp] theorem State.markSent_mirror (s : State) (q : Nat) : (s.markSent q).mirror = s.mirror := rfl
@[simp] theorem State.markSent_ctrClear (s : State) (q : Nat) : (s.markSent q).ctrClear = s.ctrClear := rfl
@[simp] theorem State.markSent_mills (s : State) (q : Nat) : (s.markSent q).mills = s.mills := rfl
@[simp] theorem State.markSent_mem (s : State) (q : Nat) : (s.markSent q).mem = s.mem := rfl
@[simp] theorem State.markSent_syn (s : State) (q : Nat) : (s.markSent q).syn = s.syn := rfl
@[simp] theorem State.markSent_kettle (s : State) (q : Nat) : (s.markSent q).kettle = s.kettle := rfl
@[simp] theorem State.markSent_kettleSyn (s : State) (q : Nat) : (s.markSent q).kettleSyn = s.kettleSyn := rfl
@[simp] theorem State.markSent_memctl (s : State) (q : Nat) : (s.markSent q).memctl = s.memctl := rfl
@[simp] theorem State.markSent_banks (s : State) (q : Nat) : (s.markSent q).banks = s.banks := rfl
@[simp] theorem State.markSent_races (s : State) (q : Nat) : (s.markSent q).races = s.races := rfl
@[simp] theorem State.markSent_feeds (s : State) (q : Nat) : (s.markSent q).feeds = s.feeds := rfl
@[simp] theorem State.markSent_ports (s : State) (q : Nat) : (s.markSent q).ports = s.ports := rfl
@[simp] theorem State.markSent_folds (s : State) (q : Nat) : (s.markSent q).folds = s.folds := rfl
@[simp] theorem State.markSent_due (s : State) (q : Nat) : (s.markSent q).due = s.due := rfl
@[simp] theorem State.markSent_noc (s : State) (q : Nat) : (s.markSent q).noc = s.noc := rfl
@[simp] theorem State.markSent_streams (s : State) (q : Nat) : (s.markSent q).streams = s.streams := rfl
@[simp] theorem State.markSent_shapes (s : State) (q : Nat) : (s.markSent q).shapes = s.shapes := rfl
@[simp] theorem State.markSent_tenters (s : State) (q : Nat) : (s.markSent q).tenters = s.tenters := rfl
@[simp] theorem State.markSent_carders (s : State) (q : Nat) : (s.markSent q).carders = s.carders := rfl
@[simp] theorem State.markSent_image (s : State) (q : Nat) : (s.markSent q).image = s.image := rfl
@[simp] theorem State.markSent_loading (s : State) (q : Nat) : (s.markSent q).loading = s.loading := rfl
@[simp] theorem State.markSent_img (s : State) (q : Nat) : (s.markSent q).img = s.img := rfl
@[simp] theorem State.markSent_shapeLog (s : State) (q : Nat) : (s.markSent q).shapeLog = s.shapeLog := rfl
@[simp] theorem State.markSent_weirs (s : State) (q : Nat) : (s.markSent q).weirs = s.weirs := rfl
@[simp] theorem State.markSent_weirLog (s : State) (q : Nat) : (s.markSent q).weirLog = s.weirLog := rfl
@[simp] theorem State.markSent_deadLog (s : State) (q : Nat) : (s.markSent q).deadLog = s.deadLog := rfl
@[simp] theorem State.markSent_ctx (s : State) (q : Nat) : (s.markSent q).ctx = s.ctx := rfl
@[simp] theorem State.markSent_flume (s : State) (q : Nat) : (s.markSent q).flume = s.flume := rfl
@[simp] theorem State.markSent_wheel (s : State) (q : Nat) : (s.markSent q).wheel = s.wheel := rfl
@[simp] theorem State.markSent_run (s : State) (q : Nat) : (s.markSent q).run = s.run := rfl
@[simp] theorem State.markSent_snap (s : State) (q : Nat) : (s.markSent q).snap = s.snap := rfl
@[simp] theorem State.markSent_restore (s : State) (q : Nat) : (s.markSent q).restore = s.restore := rfl
@[simp] theorem State.markSent_health (s : State) (q : Nat) : (s.markSent q).health = s.health := rfl
@[simp] theorem State.setPort_pending (s : State) (p : Nat) (e : Eth) : (s.setPort p e).pending = s.pending := rfl
@[simp] theorem State.setPort_fresh (s : State) (p : Nat) (e : Eth) : (s.setPort p e).fresh = s.fresh := rfl
@[simp] theorem State.setPort_out (s : State) (p : Nat) (e : Eth) : (s.setPort p e).out = s.out := rfl
@[simp] theorem State.setPort_pwr (s : State) (p : Nat) (e : Eth) : (s.setPort p e).pwr = s.pwr := rfl
@[simp] theorem State.setPort_clk (s : State) (p : Nat) (e : Eth) : (s.setPort p e).clk = s.clk := rfl
@[simp] theorem State.setPort_time (s : State) (p : Nat) (e : Eth) : (s.setPort p e).time = s.time := rfl
@[simp] theorem State.setPort_nv (s : State) (p : Nat) (e : Eth) : (s.setPort p e).nv = s.nv := rfl
@[simp] theorem State.setPort_boot (s : State) (p : Nat) (e : Eth) : (s.setPort p e).boot = s.boot := rfl
@[simp] theorem State.setPort_leat (s : State) (p : Nat) (e : Eth) : (s.setPort p e).leat = s.leat := rfl
@[simp] theorem State.setPort_ops (s : State) (p : Nat) (e : Eth) : (s.setPort p e).ops = s.ops := rfl
@[simp] theorem State.setPort_opSerial (s : State) (p : Nat) (e : Eth) : (s.setPort p e).opSerial = s.opSerial := rfl
@[simp] theorem State.setPort_work (s : State) (p : Nat) (e : Eth) : (s.setPort p e).work = s.work := rfl
@[simp] theorem State.setPort_qps (s : State) (p : Nat) (e : Eth) : (s.setPort p e).qps = s.qps := rfl
@[simp] theorem State.setPort_sec (s : State) (p : Nat) (e : Eth) : (s.setPort p e).sec = s.sec := rfl
@[simp] theorem State.setPort_smb (s : State) (p : Nat) (e : Eth) : (s.setPort p e).smb = s.smb := rfl
@[simp] theorem State.setPort_tap (s : State) (p : Nat) (e : Eth) : (s.setPort p e).tap = s.tap := rfl
@[simp] theorem State.setPort_tests (s : State) (p : Nat) (e : Eth) : (s.setPort p e).tests = s.tests := rfl
@[simp] theorem State.setPort_fwLen (s : State) (p : Nat) (e : Eth) : (s.setPort p e).fwLen = s.fwLen := rfl
@[simp] theorem State.setPort_cnt (s : State) (p : Nat) (e : Eth) : (s.setPort p e).cnt = s.cnt := rfl
@[simp] theorem State.setPort_base (s : State) (p : Nat) (e : Eth) : (s.setPort p e).base = s.base := rfl
@[simp] theorem State.setPort_mirror (s : State) (p : Nat) (e : Eth) : (s.setPort p e).mirror = s.mirror := rfl
@[simp] theorem State.setPort_ctrClear (s : State) (p : Nat) (e : Eth) : (s.setPort p e).ctrClear = s.ctrClear := rfl
@[simp] theorem State.setPort_mills (s : State) (p : Nat) (e : Eth) : (s.setPort p e).mills = s.mills := rfl
@[simp] theorem State.setPort_mem (s : State) (p : Nat) (e : Eth) : (s.setPort p e).mem = s.mem := rfl
@[simp] theorem State.setPort_syn (s : State) (p : Nat) (e : Eth) : (s.setPort p e).syn = s.syn := rfl
@[simp] theorem State.setPort_kettle (s : State) (p : Nat) (e : Eth) : (s.setPort p e).kettle = s.kettle := rfl
@[simp] theorem State.setPort_kettleSyn (s : State) (p : Nat) (e : Eth) : (s.setPort p e).kettleSyn = s.kettleSyn := rfl
@[simp] theorem State.setPort_memctl (s : State) (p : Nat) (e : Eth) : (s.setPort p e).memctl = s.memctl := rfl
@[simp] theorem State.setPort_banks (s : State) (p : Nat) (e : Eth) : (s.setPort p e).banks = s.banks := rfl
@[simp] theorem State.setPort_races (s : State) (p : Nat) (e : Eth) : (s.setPort p e).races = s.races := rfl
@[simp] theorem State.setPort_feeds (s : State) (p : Nat) (e : Eth) : (s.setPort p e).feeds = s.feeds := rfl
@[simp] theorem State.setPort_ports (s : State) (p : Nat) (e : Eth) : (s.setPort p e).ports = s.ports := rfl
@[simp] theorem State.setPort_folds (s : State) (p : Nat) (e : Eth) : (s.setPort p e).folds = s.folds := rfl
@[simp] theorem State.setPort_due (s : State) (p : Nat) (e : Eth) : (s.setPort p e).due = s.due := rfl
@[simp] theorem State.setPort_noc (s : State) (p : Nat) (e : Eth) : (s.setPort p e).noc = s.noc := rfl
@[simp] theorem State.setPort_streams (s : State) (p : Nat) (e : Eth) : (s.setPort p e).streams = s.streams := rfl
@[simp] theorem State.setPort_shapes (s : State) (p : Nat) (e : Eth) : (s.setPort p e).shapes = s.shapes := rfl
@[simp] theorem State.setPort_tenters (s : State) (p : Nat) (e : Eth) : (s.setPort p e).tenters = s.tenters := rfl
@[simp] theorem State.setPort_carders (s : State) (p : Nat) (e : Eth) : (s.setPort p e).carders = s.carders := rfl
@[simp] theorem State.setPort_image (s : State) (p : Nat) (e : Eth) : (s.setPort p e).image = s.image := rfl
@[simp] theorem State.setPort_loading (s : State) (p : Nat) (e : Eth) : (s.setPort p e).loading = s.loading := rfl
@[simp] theorem State.setPort_img (s : State) (p : Nat) (e : Eth) : (s.setPort p e).img = s.img := rfl
@[simp] theorem State.setPort_shapeLog (s : State) (p : Nat) (e : Eth) : (s.setPort p e).shapeLog = s.shapeLog := rfl
@[simp] theorem State.setPort_weirs (s : State) (p : Nat) (e : Eth) : (s.setPort p e).weirs = s.weirs := rfl
@[simp] theorem State.setPort_weirLog (s : State) (p : Nat) (e : Eth) : (s.setPort p e).weirLog = s.weirLog := rfl
@[simp] theorem State.setPort_deadLog (s : State) (p : Nat) (e : Eth) : (s.setPort p e).deadLog = s.deadLog := rfl
@[simp] theorem State.setPort_ctx (s : State) (p : Nat) (e : Eth) : (s.setPort p e).ctx = s.ctx := rfl
@[simp] theorem State.setPort_flume (s : State) (p : Nat) (e : Eth) : (s.setPort p e).flume = s.flume := rfl
@[simp] theorem State.setPort_wheel (s : State) (p : Nat) (e : Eth) : (s.setPort p e).wheel = s.wheel := rfl
@[simp] theorem State.setPort_run (s : State) (p : Nat) (e : Eth) : (s.setPort p e).run = s.run := rfl
@[simp] theorem State.setPort_snap (s : State) (p : Nat) (e : Eth) : (s.setPort p e).snap = s.snap := rfl
@[simp] theorem State.setPort_restore (s : State) (p : Nat) (e : Eth) : (s.setPort p e).restore = s.restore := rfl
@[simp] theorem State.setPort_health (s : State) (p : Nat) (e : Eth) : (s.setPort p e).health = s.health := rfl
@[simp] theorem State.setFport_pending (s : State) (p : Nat) (q : FlumePort) : (s.setFport p q).pending = s.pending := rfl
@[simp] theorem State.setFport_fresh (s : State) (p : Nat) (q : FlumePort) : (s.setFport p q).fresh = s.fresh := rfl
@[simp] theorem State.setFport_out (s : State) (p : Nat) (q : FlumePort) : (s.setFport p q).out = s.out := rfl
@[simp] theorem State.setFport_pwr (s : State) (p : Nat) (q : FlumePort) : (s.setFport p q).pwr = s.pwr := rfl
@[simp] theorem State.setFport_clk (s : State) (p : Nat) (q : FlumePort) : (s.setFport p q).clk = s.clk := rfl
@[simp] theorem State.setFport_time (s : State) (p : Nat) (q : FlumePort) : (s.setFport p q).time = s.time := rfl
@[simp] theorem State.setFport_nv (s : State) (p : Nat) (q : FlumePort) : (s.setFport p q).nv = s.nv := rfl
@[simp] theorem State.setFport_boot (s : State) (p : Nat) (q : FlumePort) : (s.setFport p q).boot = s.boot := rfl
@[simp] theorem State.setFport_eth (s : State) (p : Nat) (q : FlumePort) : (s.setFport p q).eth = s.eth := rfl
@[simp] theorem State.setFport_leat (s : State) (p : Nat) (q : FlumePort) : (s.setFport p q).leat = s.leat := rfl
@[simp] theorem State.setFport_ops (s : State) (p : Nat) (q : FlumePort) : (s.setFport p q).ops = s.ops := rfl
@[simp] theorem State.setFport_opSerial (s : State) (p : Nat) (q : FlumePort) : (s.setFport p q).opSerial = s.opSerial := rfl
@[simp] theorem State.setFport_work (s : State) (p : Nat) (q : FlumePort) : (s.setFport p q).work = s.work := rfl
@[simp] theorem State.setFport_qps (s : State) (p : Nat) (q : FlumePort) : (s.setFport p q).qps = s.qps := rfl
@[simp] theorem State.setFport_sec (s : State) (p : Nat) (q : FlumePort) : (s.setFport p q).sec = s.sec := rfl
@[simp] theorem State.setFport_smb (s : State) (p : Nat) (q : FlumePort) : (s.setFport p q).smb = s.smb := rfl
@[simp] theorem State.setFport_tap (s : State) (p : Nat) (q : FlumePort) : (s.setFport p q).tap = s.tap := rfl
@[simp] theorem State.setFport_tests (s : State) (p : Nat) (q : FlumePort) : (s.setFport p q).tests = s.tests := rfl
@[simp] theorem State.setFport_fwLen (s : State) (p : Nat) (q : FlumePort) : (s.setFport p q).fwLen = s.fwLen := rfl
@[simp] theorem State.setFport_cnt (s : State) (p : Nat) (q : FlumePort) : (s.setFport p q).cnt = s.cnt := rfl
@[simp] theorem State.setFport_base (s : State) (p : Nat) (q : FlumePort) : (s.setFport p q).base = s.base := rfl
@[simp] theorem State.setFport_mirror (s : State) (p : Nat) (q : FlumePort) : (s.setFport p q).mirror = s.mirror := rfl
@[simp] theorem State.setFport_ctrClear (s : State) (p : Nat) (q : FlumePort) : (s.setFport p q).ctrClear = s.ctrClear := rfl
@[simp] theorem State.setFport_mills (s : State) (p : Nat) (q : FlumePort) : (s.setFport p q).mills = s.mills := rfl
@[simp] theorem State.setFport_mem (s : State) (p : Nat) (q : FlumePort) : (s.setFport p q).mem = s.mem := rfl
@[simp] theorem State.setFport_syn (s : State) (p : Nat) (q : FlumePort) : (s.setFport p q).syn = s.syn := rfl
@[simp] theorem State.setFport_kettle (s : State) (p : Nat) (q : FlumePort) : (s.setFport p q).kettle = s.kettle := rfl
@[simp] theorem State.setFport_kettleSyn (s : State) (p : Nat) (q : FlumePort) : (s.setFport p q).kettleSyn = s.kettleSyn := rfl
@[simp] theorem State.setFport_memctl (s : State) (p : Nat) (q : FlumePort) : (s.setFport p q).memctl = s.memctl := rfl
@[simp] theorem State.setFport_banks (s : State) (p : Nat) (q : FlumePort) : (s.setFport p q).banks = s.banks := rfl
@[simp] theorem State.setFport_races (s : State) (p : Nat) (q : FlumePort) : (s.setFport p q).races = s.races := rfl
@[simp] theorem State.setFport_feeds (s : State) (p : Nat) (q : FlumePort) : (s.setFport p q).feeds = s.feeds := rfl
@[simp] theorem State.setFport_ports (s : State) (p : Nat) (q : FlumePort) : (s.setFport p q).ports = s.ports := rfl
@[simp] theorem State.setFport_folds (s : State) (p : Nat) (q : FlumePort) : (s.setFport p q).folds = s.folds := rfl
@[simp] theorem State.setFport_due (s : State) (p : Nat) (q : FlumePort) : (s.setFport p q).due = s.due := rfl
@[simp] theorem State.setFport_noc (s : State) (p : Nat) (q : FlumePort) : (s.setFport p q).noc = s.noc := rfl
@[simp] theorem State.setFport_streams (s : State) (p : Nat) (q : FlumePort) : (s.setFport p q).streams = s.streams := rfl
@[simp] theorem State.setFport_shapes (s : State) (p : Nat) (q : FlumePort) : (s.setFport p q).shapes = s.shapes := rfl
@[simp] theorem State.setFport_tenters (s : State) (p : Nat) (q : FlumePort) : (s.setFport p q).tenters = s.tenters := rfl
@[simp] theorem State.setFport_carders (s : State) (p : Nat) (q : FlumePort) : (s.setFport p q).carders = s.carders := rfl
@[simp] theorem State.setFport_image (s : State) (p : Nat) (q : FlumePort) : (s.setFport p q).image = s.image := rfl
@[simp] theorem State.setFport_loading (s : State) (p : Nat) (q : FlumePort) : (s.setFport p q).loading = s.loading := rfl
@[simp] theorem State.setFport_img (s : State) (p : Nat) (q : FlumePort) : (s.setFport p q).img = s.img := rfl
@[simp] theorem State.setFport_shapeLog (s : State) (p : Nat) (q : FlumePort) : (s.setFport p q).shapeLog = s.shapeLog := rfl
@[simp] theorem State.setFport_weirs (s : State) (p : Nat) (q : FlumePort) : (s.setFport p q).weirs = s.weirs := rfl
@[simp] theorem State.setFport_weirLog (s : State) (p : Nat) (q : FlumePort) : (s.setFport p q).weirLog = s.weirLog := rfl
@[simp] theorem State.setFport_deadLog (s : State) (p : Nat) (q : FlumePort) : (s.setFport p q).deadLog = s.deadLog := rfl
@[simp] theorem State.setFport_ctx (s : State) (p : Nat) (q : FlumePort) : (s.setFport p q).ctx = s.ctx := rfl
@[simp] theorem State.setFport_wheel (s : State) (p : Nat) (q : FlumePort) : (s.setFport p q).wheel = s.wheel := rfl
@[simp] theorem State.setFport_run (s : State) (p : Nat) (q : FlumePort) : (s.setFport p q).run = s.run := rfl
@[simp] theorem State.setFport_snap (s : State) (p : Nat) (q : FlumePort) : (s.setFport p q).snap = s.snap := rfl
@[simp] theorem State.setFport_restore (s : State) (p : Nat) (q : FlumePort) : (s.setFport p q).restore = s.restore := rfl
@[simp] theorem State.setFport_health (s : State) (p : Nat) (q : FlumePort) : (s.setFport p q).health = s.health := rfl
@[simp] theorem State.putSession_pending (s : State) (x : Session) : (s.putSession x).pending = s.pending := rfl
@[simp] theorem State.putSession_fresh (s : State) (x : Session) : (s.putSession x).fresh = s.fresh := rfl
@[simp] theorem State.putSession_out (s : State) (x : Session) : (s.putSession x).out = s.out := rfl
@[simp] theorem State.putSession_pwr (s : State) (x : Session) : (s.putSession x).pwr = s.pwr := rfl
@[simp] theorem State.putSession_clk (s : State) (x : Session) : (s.putSession x).clk = s.clk := rfl
@[simp] theorem State.putSession_time (s : State) (x : Session) : (s.putSession x).time = s.time := rfl
@[simp] theorem State.putSession_nv (s : State) (x : Session) : (s.putSession x).nv = s.nv := rfl
@[simp] theorem State.putSession_boot (s : State) (x : Session) : (s.putSession x).boot = s.boot := rfl
@[simp] theorem State.putSession_eth (s : State) (x : Session) : (s.putSession x).eth = s.eth := rfl
@[simp] theorem State.putSession_ops (s : State) (x : Session) : (s.putSession x).ops = s.ops := rfl
@[simp] theorem State.putSession_opSerial (s : State) (x : Session) : (s.putSession x).opSerial = s.opSerial := rfl
@[simp] theorem State.putSession_work (s : State) (x : Session) : (s.putSession x).work = s.work := rfl
@[simp] theorem State.putSession_qps (s : State) (x : Session) : (s.putSession x).qps = s.qps := rfl
@[simp] theorem State.putSession_sec (s : State) (x : Session) : (s.putSession x).sec = s.sec := rfl
@[simp] theorem State.putSession_smb (s : State) (x : Session) : (s.putSession x).smb = s.smb := rfl
@[simp] theorem State.putSession_tap (s : State) (x : Session) : (s.putSession x).tap = s.tap := rfl
@[simp] theorem State.putSession_tests (s : State) (x : Session) : (s.putSession x).tests = s.tests := rfl
@[simp] theorem State.putSession_fwLen (s : State) (x : Session) : (s.putSession x).fwLen = s.fwLen := rfl
@[simp] theorem State.putSession_cnt (s : State) (x : Session) : (s.putSession x).cnt = s.cnt := rfl
@[simp] theorem State.putSession_base (s : State) (x : Session) : (s.putSession x).base = s.base := rfl
@[simp] theorem State.putSession_mirror (s : State) (x : Session) : (s.putSession x).mirror = s.mirror := rfl
@[simp] theorem State.putSession_ctrClear (s : State) (x : Session) : (s.putSession x).ctrClear = s.ctrClear := rfl
@[simp] theorem State.putSession_mills (s : State) (x : Session) : (s.putSession x).mills = s.mills := rfl
@[simp] theorem State.putSession_mem (s : State) (x : Session) : (s.putSession x).mem = s.mem := rfl
@[simp] theorem State.putSession_syn (s : State) (x : Session) : (s.putSession x).syn = s.syn := rfl
@[simp] theorem State.putSession_kettle (s : State) (x : Session) : (s.putSession x).kettle = s.kettle := rfl
@[simp] theorem State.putSession_kettleSyn (s : State) (x : Session) : (s.putSession x).kettleSyn = s.kettleSyn := rfl
@[simp] theorem State.putSession_memctl (s : State) (x : Session) : (s.putSession x).memctl = s.memctl := rfl
@[simp] theorem State.putSession_banks (s : State) (x : Session) : (s.putSession x).banks = s.banks := rfl
@[simp] theorem State.putSession_races (s : State) (x : Session) : (s.putSession x).races = s.races := rfl
@[simp] theorem State.putSession_feeds (s : State) (x : Session) : (s.putSession x).feeds = s.feeds := rfl
@[simp] theorem State.putSession_ports (s : State) (x : Session) : (s.putSession x).ports = s.ports := rfl
@[simp] theorem State.putSession_folds (s : State) (x : Session) : (s.putSession x).folds = s.folds := rfl
@[simp] theorem State.putSession_due (s : State) (x : Session) : (s.putSession x).due = s.due := rfl
@[simp] theorem State.putSession_noc (s : State) (x : Session) : (s.putSession x).noc = s.noc := rfl
@[simp] theorem State.putSession_streams (s : State) (x : Session) : (s.putSession x).streams = s.streams := rfl
@[simp] theorem State.putSession_shapes (s : State) (x : Session) : (s.putSession x).shapes = s.shapes := rfl
@[simp] theorem State.putSession_tenters (s : State) (x : Session) : (s.putSession x).tenters = s.tenters := rfl
@[simp] theorem State.putSession_carders (s : State) (x : Session) : (s.putSession x).carders = s.carders := rfl
@[simp] theorem State.putSession_image (s : State) (x : Session) : (s.putSession x).image = s.image := rfl
@[simp] theorem State.putSession_loading (s : State) (x : Session) : (s.putSession x).loading = s.loading := rfl
@[simp] theorem State.putSession_img (s : State) (x : Session) : (s.putSession x).img = s.img := rfl
@[simp] theorem State.putSession_shapeLog (s : State) (x : Session) : (s.putSession x).shapeLog = s.shapeLog := rfl
@[simp] theorem State.putSession_weirs (s : State) (x : Session) : (s.putSession x).weirs = s.weirs := rfl
@[simp] theorem State.putSession_weirLog (s : State) (x : Session) : (s.putSession x).weirLog = s.weirLog := rfl
@[simp] theorem State.putSession_deadLog (s : State) (x : Session) : (s.putSession x).deadLog = s.deadLog := rfl
@[simp] theorem State.putSession_ctx (s : State) (x : Session) : (s.putSession x).ctx = s.ctx := rfl
@[simp] theorem State.putSession_flume (s : State) (x : Session) : (s.putSession x).flume = s.flume := rfl
@[simp] theorem State.putSession_wheel (s : State) (x : Session) : (s.putSession x).wheel = s.wheel := rfl
@[simp] theorem State.putSession_run (s : State) (x : Session) : (s.putSession x).run = s.run := rfl
@[simp] theorem State.putSession_snap (s : State) (x : Session) : (s.putSession x).snap = s.snap := rfl
@[simp] theorem State.putSession_restore (s : State) (x : Session) : (s.putSession x).restore = s.restore := rfl
@[simp] theorem State.putSession_health (s : State) (x : Session) : (s.putSession x).health = s.health := rfl
@[simp] theorem State.closeSessions_pending (s : State) (l : List Word32) : (s.closeSessions l).pending = s.pending := rfl
@[simp] theorem State.closeSessions_fresh (s : State) (l : List Word32) : (s.closeSessions l).fresh = s.fresh := rfl
@[simp] theorem State.closeSessions_out (s : State) (l : List Word32) : (s.closeSessions l).out = s.out := rfl
@[simp] theorem State.closeSessions_pwr (s : State) (l : List Word32) : (s.closeSessions l).pwr = s.pwr := rfl
@[simp] theorem State.closeSessions_clk (s : State) (l : List Word32) : (s.closeSessions l).clk = s.clk := rfl
@[simp] theorem State.closeSessions_time (s : State) (l : List Word32) : (s.closeSessions l).time = s.time := rfl
@[simp] theorem State.closeSessions_nv (s : State) (l : List Word32) : (s.closeSessions l).nv = s.nv := rfl
@[simp] theorem State.closeSessions_boot (s : State) (l : List Word32) : (s.closeSessions l).boot = s.boot := rfl
@[simp] theorem State.closeSessions_eth (s : State) (l : List Word32) : (s.closeSessions l).eth = s.eth := rfl
@[simp] theorem State.closeSessions_ops (s : State) (l : List Word32) : (s.closeSessions l).ops = s.ops := rfl
@[simp] theorem State.closeSessions_opSerial (s : State) (l : List Word32) : (s.closeSessions l).opSerial = s.opSerial := rfl
@[simp] theorem State.closeSessions_work (s : State) (l : List Word32) : (s.closeSessions l).work = s.work := rfl
@[simp] theorem State.closeSessions_qps (s : State) (l : List Word32) : (s.closeSessions l).qps = s.qps := rfl
@[simp] theorem State.closeSessions_sec (s : State) (l : List Word32) : (s.closeSessions l).sec = s.sec := rfl
@[simp] theorem State.closeSessions_smb (s : State) (l : List Word32) : (s.closeSessions l).smb = s.smb := rfl
@[simp] theorem State.closeSessions_tap (s : State) (l : List Word32) : (s.closeSessions l).tap = s.tap := rfl
@[simp] theorem State.closeSessions_tests (s : State) (l : List Word32) : (s.closeSessions l).tests = s.tests := rfl
@[simp] theorem State.closeSessions_fwLen (s : State) (l : List Word32) : (s.closeSessions l).fwLen = s.fwLen := rfl
@[simp] theorem State.closeSessions_cnt (s : State) (l : List Word32) : (s.closeSessions l).cnt = s.cnt := rfl
@[simp] theorem State.closeSessions_base (s : State) (l : List Word32) : (s.closeSessions l).base = s.base := rfl
@[simp] theorem State.closeSessions_mirror (s : State) (l : List Word32) : (s.closeSessions l).mirror = s.mirror := rfl
@[simp] theorem State.closeSessions_ctrClear (s : State) (l : List Word32) : (s.closeSessions l).ctrClear = s.ctrClear := rfl
@[simp] theorem State.closeSessions_mills (s : State) (l : List Word32) : (s.closeSessions l).mills = s.mills := rfl
@[simp] theorem State.closeSessions_mem (s : State) (l : List Word32) : (s.closeSessions l).mem = s.mem := rfl
@[simp] theorem State.closeSessions_syn (s : State) (l : List Word32) : (s.closeSessions l).syn = s.syn := rfl
@[simp] theorem State.closeSessions_kettle (s : State) (l : List Word32) : (s.closeSessions l).kettle = s.kettle := rfl
@[simp] theorem State.closeSessions_kettleSyn (s : State) (l : List Word32) : (s.closeSessions l).kettleSyn = s.kettleSyn := rfl
@[simp] theorem State.closeSessions_memctl (s : State) (l : List Word32) : (s.closeSessions l).memctl = s.memctl := rfl
@[simp] theorem State.closeSessions_banks (s : State) (l : List Word32) : (s.closeSessions l).banks = s.banks := rfl
@[simp] theorem State.closeSessions_races (s : State) (l : List Word32) : (s.closeSessions l).races = s.races := rfl
@[simp] theorem State.closeSessions_feeds (s : State) (l : List Word32) : (s.closeSessions l).feeds = s.feeds := rfl
@[simp] theorem State.closeSessions_ports (s : State) (l : List Word32) : (s.closeSessions l).ports = s.ports := rfl
@[simp] theorem State.closeSessions_folds (s : State) (l : List Word32) : (s.closeSessions l).folds = s.folds := rfl
@[simp] theorem State.closeSessions_due (s : State) (l : List Word32) : (s.closeSessions l).due = s.due := rfl
@[simp] theorem State.closeSessions_noc (s : State) (l : List Word32) : (s.closeSessions l).noc = s.noc := rfl
@[simp] theorem State.closeSessions_streams (s : State) (l : List Word32) : (s.closeSessions l).streams = s.streams := rfl
@[simp] theorem State.closeSessions_shapes (s : State) (l : List Word32) : (s.closeSessions l).shapes = s.shapes := rfl
@[simp] theorem State.closeSessions_tenters (s : State) (l : List Word32) : (s.closeSessions l).tenters = s.tenters := rfl
@[simp] theorem State.closeSessions_carders (s : State) (l : List Word32) : (s.closeSessions l).carders = s.carders := rfl
@[simp] theorem State.closeSessions_image (s : State) (l : List Word32) : (s.closeSessions l).image = s.image := rfl
@[simp] theorem State.closeSessions_loading (s : State) (l : List Word32) : (s.closeSessions l).loading = s.loading := rfl
@[simp] theorem State.closeSessions_img (s : State) (l : List Word32) : (s.closeSessions l).img = s.img := rfl
@[simp] theorem State.closeSessions_shapeLog (s : State) (l : List Word32) : (s.closeSessions l).shapeLog = s.shapeLog := rfl
@[simp] theorem State.closeSessions_weirs (s : State) (l : List Word32) : (s.closeSessions l).weirs = s.weirs := rfl
@[simp] theorem State.closeSessions_weirLog (s : State) (l : List Word32) : (s.closeSessions l).weirLog = s.weirLog := rfl
@[simp] theorem State.closeSessions_deadLog (s : State) (l : List Word32) : (s.closeSessions l).deadLog = s.deadLog := rfl
@[simp] theorem State.closeSessions_ctx (s : State) (l : List Word32) : (s.closeSessions l).ctx = s.ctx := rfl
@[simp] theorem State.closeSessions_flume (s : State) (l : List Word32) : (s.closeSessions l).flume = s.flume := rfl
@[simp] theorem State.closeSessions_wheel (s : State) (l : List Word32) : (s.closeSessions l).wheel = s.wheel := rfl
@[simp] theorem State.closeSessions_run (s : State) (l : List Word32) : (s.closeSessions l).run = s.run := rfl
@[simp] theorem State.closeSessions_snap (s : State) (l : List Word32) : (s.closeSessions l).snap = s.snap := rfl
@[simp] theorem State.closeSessions_restore (s : State) (l : List Word32) : (s.closeSessions l).restore = s.restore := rfl
@[simp] theorem State.closeSessions_health (s : State) (l : List Word32) : (s.closeSessions l).health = s.health := rfl
@[simp] theorem State.setCtrl_pending (s : State) (n : Nat) (c : ClkCtrl) : (s.setCtrl n c).pending = s.pending := rfl
@[simp] theorem State.setCtrl_fresh (s : State) (n : Nat) (c : ClkCtrl) : (s.setCtrl n c).fresh = s.fresh := rfl
@[simp] theorem State.setCtrl_out (s : State) (n : Nat) (c : ClkCtrl) : (s.setCtrl n c).out = s.out := rfl
@[simp] theorem State.setCtrl_pwr (s : State) (n : Nat) (c : ClkCtrl) : (s.setCtrl n c).pwr = s.pwr := rfl
@[simp] theorem State.setCtrl_time (s : State) (n : Nat) (c : ClkCtrl) : (s.setCtrl n c).time = s.time := rfl
@[simp] theorem State.setCtrl_nv (s : State) (n : Nat) (c : ClkCtrl) : (s.setCtrl n c).nv = s.nv := rfl
@[simp] theorem State.setCtrl_boot (s : State) (n : Nat) (c : ClkCtrl) : (s.setCtrl n c).boot = s.boot := rfl
@[simp] theorem State.setCtrl_eth (s : State) (n : Nat) (c : ClkCtrl) : (s.setCtrl n c).eth = s.eth := rfl
@[simp] theorem State.setCtrl_leat (s : State) (n : Nat) (c : ClkCtrl) : (s.setCtrl n c).leat = s.leat := rfl
@[simp] theorem State.setCtrl_ops (s : State) (n : Nat) (c : ClkCtrl) : (s.setCtrl n c).ops = s.ops := rfl
@[simp] theorem State.setCtrl_opSerial (s : State) (n : Nat) (c : ClkCtrl) : (s.setCtrl n c).opSerial = s.opSerial := rfl
@[simp] theorem State.setCtrl_work (s : State) (n : Nat) (c : ClkCtrl) : (s.setCtrl n c).work = s.work := rfl
@[simp] theorem State.setCtrl_qps (s : State) (n : Nat) (c : ClkCtrl) : (s.setCtrl n c).qps = s.qps := rfl
@[simp] theorem State.setCtrl_sec (s : State) (n : Nat) (c : ClkCtrl) : (s.setCtrl n c).sec = s.sec := rfl
@[simp] theorem State.setCtrl_smb (s : State) (n : Nat) (c : ClkCtrl) : (s.setCtrl n c).smb = s.smb := rfl
@[simp] theorem State.setCtrl_tap (s : State) (n : Nat) (c : ClkCtrl) : (s.setCtrl n c).tap = s.tap := rfl
@[simp] theorem State.setCtrl_tests (s : State) (n : Nat) (c : ClkCtrl) : (s.setCtrl n c).tests = s.tests := rfl
@[simp] theorem State.setCtrl_fwLen (s : State) (n : Nat) (c : ClkCtrl) : (s.setCtrl n c).fwLen = s.fwLen := rfl
@[simp] theorem State.setCtrl_cnt (s : State) (n : Nat) (c : ClkCtrl) : (s.setCtrl n c).cnt = s.cnt := rfl
@[simp] theorem State.setCtrl_base (s : State) (n : Nat) (c : ClkCtrl) : (s.setCtrl n c).base = s.base := rfl
@[simp] theorem State.setCtrl_mirror (s : State) (n : Nat) (c : ClkCtrl) : (s.setCtrl n c).mirror = s.mirror := rfl
@[simp] theorem State.setCtrl_ctrClear (s : State) (n : Nat) (c : ClkCtrl) : (s.setCtrl n c).ctrClear = s.ctrClear := rfl
@[simp] theorem State.setCtrl_mills (s : State) (n : Nat) (c : ClkCtrl) : (s.setCtrl n c).mills = s.mills := rfl
@[simp] theorem State.setCtrl_mem (s : State) (n : Nat) (c : ClkCtrl) : (s.setCtrl n c).mem = s.mem := rfl
@[simp] theorem State.setCtrl_syn (s : State) (n : Nat) (c : ClkCtrl) : (s.setCtrl n c).syn = s.syn := rfl
@[simp] theorem State.setCtrl_kettle (s : State) (n : Nat) (c : ClkCtrl) : (s.setCtrl n c).kettle = s.kettle := rfl
@[simp] theorem State.setCtrl_kettleSyn (s : State) (n : Nat) (c : ClkCtrl) : (s.setCtrl n c).kettleSyn = s.kettleSyn := rfl
@[simp] theorem State.setCtrl_memctl (s : State) (n : Nat) (c : ClkCtrl) : (s.setCtrl n c).memctl = s.memctl := rfl
@[simp] theorem State.setCtrl_banks (s : State) (n : Nat) (c : ClkCtrl) : (s.setCtrl n c).banks = s.banks := rfl
@[simp] theorem State.setCtrl_races (s : State) (n : Nat) (c : ClkCtrl) : (s.setCtrl n c).races = s.races := rfl
@[simp] theorem State.setCtrl_feeds (s : State) (n : Nat) (c : ClkCtrl) : (s.setCtrl n c).feeds = s.feeds := rfl
@[simp] theorem State.setCtrl_ports (s : State) (n : Nat) (c : ClkCtrl) : (s.setCtrl n c).ports = s.ports := rfl
@[simp] theorem State.setCtrl_folds (s : State) (n : Nat) (c : ClkCtrl) : (s.setCtrl n c).folds = s.folds := rfl
@[simp] theorem State.setCtrl_due (s : State) (n : Nat) (c : ClkCtrl) : (s.setCtrl n c).due = s.due := rfl
@[simp] theorem State.setCtrl_noc (s : State) (n : Nat) (c : ClkCtrl) : (s.setCtrl n c).noc = s.noc := rfl
@[simp] theorem State.setCtrl_streams (s : State) (n : Nat) (c : ClkCtrl) : (s.setCtrl n c).streams = s.streams := rfl
@[simp] theorem State.setCtrl_shapes (s : State) (n : Nat) (c : ClkCtrl) : (s.setCtrl n c).shapes = s.shapes := rfl
@[simp] theorem State.setCtrl_tenters (s : State) (n : Nat) (c : ClkCtrl) : (s.setCtrl n c).tenters = s.tenters := rfl
@[simp] theorem State.setCtrl_carders (s : State) (n : Nat) (c : ClkCtrl) : (s.setCtrl n c).carders = s.carders := rfl
@[simp] theorem State.setCtrl_image (s : State) (n : Nat) (c : ClkCtrl) : (s.setCtrl n c).image = s.image := rfl
@[simp] theorem State.setCtrl_loading (s : State) (n : Nat) (c : ClkCtrl) : (s.setCtrl n c).loading = s.loading := rfl
@[simp] theorem State.setCtrl_img (s : State) (n : Nat) (c : ClkCtrl) : (s.setCtrl n c).img = s.img := rfl
@[simp] theorem State.setCtrl_shapeLog (s : State) (n : Nat) (c : ClkCtrl) : (s.setCtrl n c).shapeLog = s.shapeLog := rfl
@[simp] theorem State.setCtrl_weirs (s : State) (n : Nat) (c : ClkCtrl) : (s.setCtrl n c).weirs = s.weirs := rfl
@[simp] theorem State.setCtrl_weirLog (s : State) (n : Nat) (c : ClkCtrl) : (s.setCtrl n c).weirLog = s.weirLog := rfl
@[simp] theorem State.setCtrl_deadLog (s : State) (n : Nat) (c : ClkCtrl) : (s.setCtrl n c).deadLog = s.deadLog := rfl
@[simp] theorem State.setCtrl_ctx (s : State) (n : Nat) (c : ClkCtrl) : (s.setCtrl n c).ctx = s.ctx := rfl
@[simp] theorem State.setCtrl_flume (s : State) (n : Nat) (c : ClkCtrl) : (s.setCtrl n c).flume = s.flume := rfl
@[simp] theorem State.setCtrl_wheel (s : State) (n : Nat) (c : ClkCtrl) : (s.setCtrl n c).wheel = s.wheel := rfl
@[simp] theorem State.setCtrl_run (s : State) (n : Nat) (c : ClkCtrl) : (s.setCtrl n c).run = s.run := rfl
@[simp] theorem State.setCtrl_snap (s : State) (n : Nat) (c : ClkCtrl) : (s.setCtrl n c).snap = s.snap := rfl
@[simp] theorem State.setCtrl_restore (s : State) (n : Nat) (c : ClkCtrl) : (s.setCtrl n c).restore = s.restore := rfl
@[simp] theorem State.setCtrl_health (s : State) (n : Nat) (c : ClkCtrl) : (s.setCtrl n c).health = s.health := rfl
@[simp] theorem State.clearOne_pending (s : State) (off : Nat) : (s.clearOne off).pending = s.pending := rfl
@[simp] theorem State.clearOne_fresh (s : State) (off : Nat) : (s.clearOne off).fresh = s.fresh := rfl
@[simp] theorem State.clearOne_out (s : State) (off : Nat) : (s.clearOne off).out = s.out := rfl
@[simp] theorem State.clearOne_pwr (s : State) (off : Nat) : (s.clearOne off).pwr = s.pwr := rfl
@[simp] theorem State.clearOne_clk (s : State) (off : Nat) : (s.clearOne off).clk = s.clk := rfl
@[simp] theorem State.clearOne_time (s : State) (off : Nat) : (s.clearOne off).time = s.time := rfl
@[simp] theorem State.clearOne_nv (s : State) (off : Nat) : (s.clearOne off).nv = s.nv := rfl
@[simp] theorem State.clearOne_boot (s : State) (off : Nat) : (s.clearOne off).boot = s.boot := rfl
@[simp] theorem State.clearOne_eth (s : State) (off : Nat) : (s.clearOne off).eth = s.eth := rfl
@[simp] theorem State.clearOne_leat (s : State) (off : Nat) : (s.clearOne off).leat = s.leat := rfl
@[simp] theorem State.clearOne_ops (s : State) (off : Nat) : (s.clearOne off).ops = s.ops := rfl
@[simp] theorem State.clearOne_opSerial (s : State) (off : Nat) : (s.clearOne off).opSerial = s.opSerial := rfl
@[simp] theorem State.clearOne_work (s : State) (off : Nat) : (s.clearOne off).work = s.work := rfl
@[simp] theorem State.clearOne_qps (s : State) (off : Nat) : (s.clearOne off).qps = s.qps := rfl
@[simp] theorem State.clearOne_sec (s : State) (off : Nat) : (s.clearOne off).sec = s.sec := rfl
@[simp] theorem State.clearOne_smb (s : State) (off : Nat) : (s.clearOne off).smb = s.smb := rfl
@[simp] theorem State.clearOne_tap (s : State) (off : Nat) : (s.clearOne off).tap = s.tap := rfl
@[simp] theorem State.clearOne_tests (s : State) (off : Nat) : (s.clearOne off).tests = s.tests := rfl
@[simp] theorem State.clearOne_fwLen (s : State) (off : Nat) : (s.clearOne off).fwLen = s.fwLen := rfl
@[simp] theorem State.clearOne_cnt (s : State) (off : Nat) : (s.clearOne off).cnt = s.cnt := rfl
@[simp] theorem State.clearOne_ctrClear (s : State) (off : Nat) : (s.clearOne off).ctrClear = s.ctrClear := rfl
@[simp] theorem State.clearOne_mills (s : State) (off : Nat) : (s.clearOne off).mills = s.mills := rfl
@[simp] theorem State.clearOne_mem (s : State) (off : Nat) : (s.clearOne off).mem = s.mem := rfl
@[simp] theorem State.clearOne_syn (s : State) (off : Nat) : (s.clearOne off).syn = s.syn := rfl
@[simp] theorem State.clearOne_kettle (s : State) (off : Nat) : (s.clearOne off).kettle = s.kettle := rfl
@[simp] theorem State.clearOne_kettleSyn (s : State) (off : Nat) : (s.clearOne off).kettleSyn = s.kettleSyn := rfl
@[simp] theorem State.clearOne_memctl (s : State) (off : Nat) : (s.clearOne off).memctl = s.memctl := rfl
@[simp] theorem State.clearOne_banks (s : State) (off : Nat) : (s.clearOne off).banks = s.banks := rfl
@[simp] theorem State.clearOne_races (s : State) (off : Nat) : (s.clearOne off).races = s.races := rfl
@[simp] theorem State.clearOne_feeds (s : State) (off : Nat) : (s.clearOne off).feeds = s.feeds := rfl
@[simp] theorem State.clearOne_ports (s : State) (off : Nat) : (s.clearOne off).ports = s.ports := rfl
@[simp] theorem State.clearOne_folds (s : State) (off : Nat) : (s.clearOne off).folds = s.folds := rfl
@[simp] theorem State.clearOne_due (s : State) (off : Nat) : (s.clearOne off).due = s.due := rfl
@[simp] theorem State.clearOne_noc (s : State) (off : Nat) : (s.clearOne off).noc = s.noc := rfl
@[simp] theorem State.clearOne_streams (s : State) (off : Nat) : (s.clearOne off).streams = s.streams := rfl
@[simp] theorem State.clearOne_shapes (s : State) (off : Nat) : (s.clearOne off).shapes = s.shapes := rfl
@[simp] theorem State.clearOne_tenters (s : State) (off : Nat) : (s.clearOne off).tenters = s.tenters := rfl
@[simp] theorem State.clearOne_carders (s : State) (off : Nat) : (s.clearOne off).carders = s.carders := rfl
@[simp] theorem State.clearOne_image (s : State) (off : Nat) : (s.clearOne off).image = s.image := rfl
@[simp] theorem State.clearOne_loading (s : State) (off : Nat) : (s.clearOne off).loading = s.loading := rfl
@[simp] theorem State.clearOne_img (s : State) (off : Nat) : (s.clearOne off).img = s.img := rfl
@[simp] theorem State.clearOne_shapeLog (s : State) (off : Nat) : (s.clearOne off).shapeLog = s.shapeLog := rfl
@[simp] theorem State.clearOne_weirs (s : State) (off : Nat) : (s.clearOne off).weirs = s.weirs := rfl
@[simp] theorem State.clearOne_weirLog (s : State) (off : Nat) : (s.clearOne off).weirLog = s.weirLog := rfl
@[simp] theorem State.clearOne_deadLog (s : State) (off : Nat) : (s.clearOne off).deadLog = s.deadLog := rfl
@[simp] theorem State.clearOne_ctx (s : State) (off : Nat) : (s.clearOne off).ctx = s.ctx := rfl
@[simp] theorem State.clearOne_flume (s : State) (off : Nat) : (s.clearOne off).flume = s.flume := rfl
@[simp] theorem State.clearOne_wheel (s : State) (off : Nat) : (s.clearOne off).wheel = s.wheel := rfl
@[simp] theorem State.clearOne_run (s : State) (off : Nat) : (s.clearOne off).run = s.run := rfl
@[simp] theorem State.clearOne_snap (s : State) (off : Nat) : (s.clearOne off).snap = s.snap := rfl
@[simp] theorem State.clearOne_restore (s : State) (off : Nat) : (s.clearOne off).restore = s.restore := rfl
@[simp] theorem State.clearOne_health (s : State) (off : Nat) : (s.clearOne off).health = s.health := rfl
@[simp] theorem State.opProgress_pending (s : State) (h : Word32) (p : Nat) : (s.opProgress h p).pending = s.pending := rfl
@[simp] theorem State.opProgress_fresh (s : State) (h : Word32) (p : Nat) : (s.opProgress h p).fresh = s.fresh := rfl
@[simp] theorem State.opProgress_out (s : State) (h : Word32) (p : Nat) : (s.opProgress h p).out = s.out := rfl
@[simp] theorem State.opProgress_pwr (s : State) (h : Word32) (p : Nat) : (s.opProgress h p).pwr = s.pwr := rfl
@[simp] theorem State.opProgress_clk (s : State) (h : Word32) (p : Nat) : (s.opProgress h p).clk = s.clk := rfl
@[simp] theorem State.opProgress_time (s : State) (h : Word32) (p : Nat) : (s.opProgress h p).time = s.time := rfl
@[simp] theorem State.opProgress_nv (s : State) (h : Word32) (p : Nat) : (s.opProgress h p).nv = s.nv := rfl
@[simp] theorem State.opProgress_boot (s : State) (h : Word32) (p : Nat) : (s.opProgress h p).boot = s.boot := rfl
@[simp] theorem State.opProgress_eth (s : State) (h : Word32) (p : Nat) : (s.opProgress h p).eth = s.eth := rfl
@[simp] theorem State.opProgress_leat (s : State) (h : Word32) (p : Nat) : (s.opProgress h p).leat = s.leat := rfl
@[simp] theorem State.opProgress_opSerial (s : State) (h : Word32) (p : Nat) : (s.opProgress h p).opSerial = s.opSerial := rfl
@[simp] theorem State.opProgress_work (s : State) (h : Word32) (p : Nat) : (s.opProgress h p).work = s.work := rfl
@[simp] theorem State.opProgress_qps (s : State) (h : Word32) (p : Nat) : (s.opProgress h p).qps = s.qps := rfl
@[simp] theorem State.opProgress_sec (s : State) (h : Word32) (p : Nat) : (s.opProgress h p).sec = s.sec := rfl
@[simp] theorem State.opProgress_smb (s : State) (h : Word32) (p : Nat) : (s.opProgress h p).smb = s.smb := rfl
@[simp] theorem State.opProgress_tap (s : State) (h : Word32) (p : Nat) : (s.opProgress h p).tap = s.tap := rfl
@[simp] theorem State.opProgress_tests (s : State) (h : Word32) (p : Nat) : (s.opProgress h p).tests = s.tests := rfl
@[simp] theorem State.opProgress_fwLen (s : State) (h : Word32) (p : Nat) : (s.opProgress h p).fwLen = s.fwLen := rfl
@[simp] theorem State.opProgress_cnt (s : State) (h : Word32) (p : Nat) : (s.opProgress h p).cnt = s.cnt := rfl
@[simp] theorem State.opProgress_base (s : State) (h : Word32) (p : Nat) : (s.opProgress h p).base = s.base := rfl
@[simp] theorem State.opProgress_mirror (s : State) (h : Word32) (p : Nat) : (s.opProgress h p).mirror = s.mirror := rfl
@[simp] theorem State.opProgress_ctrClear (s : State) (h : Word32) (p : Nat) : (s.opProgress h p).ctrClear = s.ctrClear := rfl
@[simp] theorem State.opProgress_mills (s : State) (h : Word32) (p : Nat) : (s.opProgress h p).mills = s.mills := rfl
@[simp] theorem State.opProgress_mem (s : State) (h : Word32) (p : Nat) : (s.opProgress h p).mem = s.mem := rfl
@[simp] theorem State.opProgress_syn (s : State) (h : Word32) (p : Nat) : (s.opProgress h p).syn = s.syn := rfl
@[simp] theorem State.opProgress_kettle (s : State) (h : Word32) (p : Nat) : (s.opProgress h p).kettle = s.kettle := rfl
@[simp] theorem State.opProgress_kettleSyn (s : State) (h : Word32) (p : Nat) : (s.opProgress h p).kettleSyn = s.kettleSyn := rfl
@[simp] theorem State.opProgress_memctl (s : State) (h : Word32) (p : Nat) : (s.opProgress h p).memctl = s.memctl := rfl
@[simp] theorem State.opProgress_banks (s : State) (h : Word32) (p : Nat) : (s.opProgress h p).banks = s.banks := rfl
@[simp] theorem State.opProgress_races (s : State) (h : Word32) (p : Nat) : (s.opProgress h p).races = s.races := rfl
@[simp] theorem State.opProgress_feeds (s : State) (h : Word32) (p : Nat) : (s.opProgress h p).feeds = s.feeds := rfl
@[simp] theorem State.opProgress_ports (s : State) (h : Word32) (p : Nat) : (s.opProgress h p).ports = s.ports := rfl
@[simp] theorem State.opProgress_folds (s : State) (h : Word32) (p : Nat) : (s.opProgress h p).folds = s.folds := rfl
@[simp] theorem State.opProgress_due (s : State) (h : Word32) (p : Nat) : (s.opProgress h p).due = s.due := rfl
@[simp] theorem State.opProgress_noc (s : State) (h : Word32) (p : Nat) : (s.opProgress h p).noc = s.noc := rfl
@[simp] theorem State.opProgress_streams (s : State) (h : Word32) (p : Nat) : (s.opProgress h p).streams = s.streams := rfl
@[simp] theorem State.opProgress_shapes (s : State) (h : Word32) (p : Nat) : (s.opProgress h p).shapes = s.shapes := rfl
@[simp] theorem State.opProgress_tenters (s : State) (h : Word32) (p : Nat) : (s.opProgress h p).tenters = s.tenters := rfl
@[simp] theorem State.opProgress_carders (s : State) (h : Word32) (p : Nat) : (s.opProgress h p).carders = s.carders := rfl
@[simp] theorem State.opProgress_image (s : State) (h : Word32) (p : Nat) : (s.opProgress h p).image = s.image := rfl
@[simp] theorem State.opProgress_loading (s : State) (h : Word32) (p : Nat) : (s.opProgress h p).loading = s.loading := rfl
@[simp] theorem State.opProgress_img (s : State) (h : Word32) (p : Nat) : (s.opProgress h p).img = s.img := rfl
@[simp] theorem State.opProgress_shapeLog (s : State) (h : Word32) (p : Nat) : (s.opProgress h p).shapeLog = s.shapeLog := rfl
@[simp] theorem State.opProgress_weirs (s : State) (h : Word32) (p : Nat) : (s.opProgress h p).weirs = s.weirs := rfl
@[simp] theorem State.opProgress_weirLog (s : State) (h : Word32) (p : Nat) : (s.opProgress h p).weirLog = s.weirLog := rfl
@[simp] theorem State.opProgress_deadLog (s : State) (h : Word32) (p : Nat) : (s.opProgress h p).deadLog = s.deadLog := rfl
@[simp] theorem State.opProgress_ctx (s : State) (h : Word32) (p : Nat) : (s.opProgress h p).ctx = s.ctx := rfl
@[simp] theorem State.opProgress_flume (s : State) (h : Word32) (p : Nat) : (s.opProgress h p).flume = s.flume := rfl
@[simp] theorem State.opProgress_wheel (s : State) (h : Word32) (p : Nat) : (s.opProgress h p).wheel = s.wheel := rfl
@[simp] theorem State.opProgress_run (s : State) (h : Word32) (p : Nat) : (s.opProgress h p).run = s.run := rfl
@[simp] theorem State.opProgress_snap (s : State) (h : Word32) (p : Nat) : (s.opProgress h p).snap = s.snap := rfl
@[simp] theorem State.opProgress_restore (s : State) (h : Word32) (p : Nat) : (s.opProgress h p).restore = s.restore := rfl
@[simp] theorem State.opProgress_health (s : State) (h : Word32) (p : Nat) : (s.opProgress h p).health = s.health := rfl
@[simp] theorem State.zeroRange_pending (s : State) (a n : Nat) : (s.zeroRange a n).pending = s.pending := rfl
@[simp] theorem State.zeroRange_fresh (s : State) (a n : Nat) : (s.zeroRange a n).fresh = s.fresh := rfl
@[simp] theorem State.zeroRange_out (s : State) (a n : Nat) : (s.zeroRange a n).out = s.out := rfl
@[simp] theorem State.zeroRange_pwr (s : State) (a n : Nat) : (s.zeroRange a n).pwr = s.pwr := rfl
@[simp] theorem State.zeroRange_clk (s : State) (a n : Nat) : (s.zeroRange a n).clk = s.clk := rfl
@[simp] theorem State.zeroRange_time (s : State) (a n : Nat) : (s.zeroRange a n).time = s.time := rfl
@[simp] theorem State.zeroRange_nv (s : State) (a n : Nat) : (s.zeroRange a n).nv = s.nv := rfl
@[simp] theorem State.zeroRange_boot (s : State) (a n : Nat) : (s.zeroRange a n).boot = s.boot := rfl
@[simp] theorem State.zeroRange_eth (s : State) (a n : Nat) : (s.zeroRange a n).eth = s.eth := rfl
@[simp] theorem State.zeroRange_leat (s : State) (a n : Nat) : (s.zeroRange a n).leat = s.leat := rfl
@[simp] theorem State.zeroRange_ops (s : State) (a n : Nat) : (s.zeroRange a n).ops = s.ops := rfl
@[simp] theorem State.zeroRange_opSerial (s : State) (a n : Nat) : (s.zeroRange a n).opSerial = s.opSerial := rfl
@[simp] theorem State.zeroRange_work (s : State) (a n : Nat) : (s.zeroRange a n).work = s.work := rfl
@[simp] theorem State.zeroRange_qps (s : State) (a n : Nat) : (s.zeroRange a n).qps = s.qps := rfl
@[simp] theorem State.zeroRange_sec (s : State) (a n : Nat) : (s.zeroRange a n).sec = s.sec := rfl
@[simp] theorem State.zeroRange_smb (s : State) (a n : Nat) : (s.zeroRange a n).smb = s.smb := rfl
@[simp] theorem State.zeroRange_tap (s : State) (a n : Nat) : (s.zeroRange a n).tap = s.tap := rfl
@[simp] theorem State.zeroRange_tests (s : State) (a n : Nat) : (s.zeroRange a n).tests = s.tests := rfl
@[simp] theorem State.zeroRange_fwLen (s : State) (a n : Nat) : (s.zeroRange a n).fwLen = s.fwLen := rfl
@[simp] theorem State.zeroRange_cnt (s : State) (a n : Nat) : (s.zeroRange a n).cnt = s.cnt := rfl
@[simp] theorem State.zeroRange_base (s : State) (a n : Nat) : (s.zeroRange a n).base = s.base := rfl
@[simp] theorem State.zeroRange_mirror (s : State) (a n : Nat) : (s.zeroRange a n).mirror = s.mirror := rfl
@[simp] theorem State.zeroRange_ctrClear (s : State) (a n : Nat) : (s.zeroRange a n).ctrClear = s.ctrClear := rfl
@[simp] theorem State.zeroRange_mills (s : State) (a n : Nat) : (s.zeroRange a n).mills = s.mills := rfl
@[simp] theorem State.zeroRange_kettle (s : State) (a n : Nat) : (s.zeroRange a n).kettle = s.kettle := rfl
@[simp] theorem State.zeroRange_kettleSyn (s : State) (a n : Nat) : (s.zeroRange a n).kettleSyn = s.kettleSyn := rfl
@[simp] theorem State.zeroRange_memctl (s : State) (a n : Nat) : (s.zeroRange a n).memctl = s.memctl := rfl
@[simp] theorem State.zeroRange_banks (s : State) (a n : Nat) : (s.zeroRange a n).banks = s.banks := rfl
@[simp] theorem State.zeroRange_races (s : State) (a n : Nat) : (s.zeroRange a n).races = s.races := rfl
@[simp] theorem State.zeroRange_feeds (s : State) (a n : Nat) : (s.zeroRange a n).feeds = s.feeds := rfl
@[simp] theorem State.zeroRange_ports (s : State) (a n : Nat) : (s.zeroRange a n).ports = s.ports := rfl
@[simp] theorem State.zeroRange_folds (s : State) (a n : Nat) : (s.zeroRange a n).folds = s.folds := rfl
@[simp] theorem State.zeroRange_due (s : State) (a n : Nat) : (s.zeroRange a n).due = s.due := rfl
@[simp] theorem State.zeroRange_noc (s : State) (a n : Nat) : (s.zeroRange a n).noc = s.noc := rfl
@[simp] theorem State.zeroRange_streams (s : State) (a n : Nat) : (s.zeroRange a n).streams = s.streams := rfl
@[simp] theorem State.zeroRange_shapes (s : State) (a n : Nat) : (s.zeroRange a n).shapes = s.shapes := rfl
@[simp] theorem State.zeroRange_tenters (s : State) (a n : Nat) : (s.zeroRange a n).tenters = s.tenters := rfl
@[simp] theorem State.zeroRange_carders (s : State) (a n : Nat) : (s.zeroRange a n).carders = s.carders := rfl
@[simp] theorem State.zeroRange_image (s : State) (a n : Nat) : (s.zeroRange a n).image = s.image := rfl
@[simp] theorem State.zeroRange_loading (s : State) (a n : Nat) : (s.zeroRange a n).loading = s.loading := rfl
@[simp] theorem State.zeroRange_img (s : State) (a n : Nat) : (s.zeroRange a n).img = s.img := rfl
@[simp] theorem State.zeroRange_shapeLog (s : State) (a n : Nat) : (s.zeroRange a n).shapeLog = s.shapeLog := rfl
@[simp] theorem State.zeroRange_weirs (s : State) (a n : Nat) : (s.zeroRange a n).weirs = s.weirs := rfl
@[simp] theorem State.zeroRange_weirLog (s : State) (a n : Nat) : (s.zeroRange a n).weirLog = s.weirLog := rfl
@[simp] theorem State.zeroRange_deadLog (s : State) (a n : Nat) : (s.zeroRange a n).deadLog = s.deadLog := rfl
@[simp] theorem State.zeroRange_ctx (s : State) (a n : Nat) : (s.zeroRange a n).ctx = s.ctx := rfl
@[simp] theorem State.zeroRange_flume (s : State) (a n : Nat) : (s.zeroRange a n).flume = s.flume := rfl
@[simp] theorem State.zeroRange_wheel (s : State) (a n : Nat) : (s.zeroRange a n).wheel = s.wheel := rfl
@[simp] theorem State.zeroRange_run (s : State) (a n : Nat) : (s.zeroRange a n).run = s.run := rfl
@[simp] theorem State.zeroRange_snap (s : State) (a n : Nat) : (s.zeroRange a n).snap = s.snap := rfl
@[simp] theorem State.zeroRange_restore (s : State) (a n : Nat) : (s.zeroRange a n).restore = s.restore := rfl
@[simp] theorem State.zeroRange_health (s : State) (a n : Nat) : (s.zeroRange a n).health = s.health := rfl

end Sys2Proof.Machine
end

