-- ==== Sys2Proof/Laws/Ops.lean ====
section
/-! SUPPORT. What the shared operations can do, said once: counting, sending, raising an event, answering a Leat request, moving an operation, writing bytes. -/
namespace Sys2Proof.Machine

/-! ### Counters -/

/-- A count adds to one source count and leaves every other. -/
theorem State.source_countN (s : State) (o n k : Nat) :
    (s.countN o n).source k = if k = o then s.source k + n else s.source k := by
  simp only [State.source, State.countN, NMap.get_set]
  split <;> simp_all

theorem State.source_count (s : State) (o k : Nat) :
    (s.count o).source k = if k = o then s.source k + 1 else s.source k := State.source_countN s o 1 k

/-- The counters that an event's message can touch: frames sent on either port, and LEAT_EVENT_LOST. -/
def eventCounters : List Nat := [0x26004, 0x26044, 0x26108]

/-! ### Events (R333) -/

/-- Sending changes the outputs and the frame count alone. -/
theorem State.sendLeat_frame (s : State) (ses : Session) (typ : Byte) (q : Nat) (c : BitVec 16) (st : Nat) (p : List Byte) :
    s.sendLeat ses typ q c st p = { s with
      out := (s.sendLeat ses typ q c st p).out, cnt := (s.sendLeat ses typ q c st p).cnt } := rfl

/-- Raising an event changes Leat, the outputs and counters alone. -/
theorem State.raise_frame (s : State) (code : Nat) (h : Word32) (d : List Nat) :
    s.raise code h d = { s with
      leat := (s.raise code h d).leat, out := (s.raise code h d).out, cnt := (s.raise code h d).cnt } := by
  unfold State.raise
  dsimp only
  split
  · rfl
  · split <;> split <;> rfl

theorem State.raise_source (s : State) (code : Nat) (h : Word32) (d : List Nat) (k : Nat) (hk : k ∉ eventCounters) :
    (s.raise code h d).source k = s.source k := by
  simp only [eventCounters, List.mem_cons, List.not_mem_nil, or_false, not_or] at hk
  have tx : ∀ (t : State) (ses : Session) (e : Event), (t.sendEvent ses e).source k = t.source k := by
    intro t ses e
    have hp : cEth ses.port.val 1 = 0x26004 ∨ cEth ses.port.val 1 = 0x26044 := by
      have := ses.port.isLt; unfold cEth; omega
    simp only [State.sendEvent, State.sendLeat, State.tx, State.source_count]
    rw [if_neg (by rcases hp with hp | hp <;> omega)]; rfl
  unfold State.raise
  dsimp only
  split
  · rfl
  · split <;> split
    · simp only [State.source_count, cLeat]; rw [if_neg (by omega)]; rfl
    · rfl
    · refine (tx _ _ _).trans ?_
      simp only [State.source_count, cLeat]; rw [if_neg (by omega)]; rfl
    · exact (tx _ _ _).trans rfl

/-- After an event has been raised it is queued: new, or the one it merged into. -/
theorem State.raise_hasEvent (s : State) (code : Nat) (h : Word32) (d : List Nat) :
    (s.raise code h d).hasEvent code d := by
  unfold State.raise
  dsimp only
  split
  · rename_i hm
    obtain ⟨e, he, hc⟩ := List.any_eq_true.1 hm
    simp only [Bool.and_eq_true, beq_iff_eq] at hc
    exact ⟨e, he, hc.1, hc.2⟩
  · split <;> split
    all_goals first
      | exact ⟨_, List.mem_append_right _ List.mem_cons_self, rfl, rfl⟩
      | exact ⟨_, List.mem_map.2 ⟨_, List.mem_append_right _ List.mem_cons_self, if_pos rfl⟩, rfl, rfl⟩

/-! ### Reads of stores whose words all have valid checks -/

/-- With no stored check wrong, verifying a range changes nothing and finds nothing. -/
theorem State.verify_clean (s : State) (a n : Nat) (h : s.syn = []) : s.verify a n = (s, []) := by
  simp [State.verify, State.badWords, h, State.verifyWords]
/-- A read is then a use of the cache and nothing more. -/
theorem State.readRange_clean (s : State) (a n : Nat) (h : s.syn = []) : s.readRange a n = s.cacheRange a n true := by
  simp [State.readRange, s.verify_clean a n h, State.ueOutcome]
/-- The Miller then reads the bytes as they stand. -/
theorem State.millerRead_clean (s : State) (a n : Nat) (h : s.syn = []) :
    s.millerRead a n = (s.cacheRange a n true, s.millerBytes a n) := by
  simp [State.millerRead, s.readRange_clean a n h, s.verify_clean a n h]
/-- With no context running the cache sees nothing (R113; log 82). -/
theorem State.cacheRange_idle (s : State) (a n : Nat) (alloc : Bool) (h : s.ctx.active = false) : s.cacheRange a n alloc = s := by
  simp [State.cacheRange, h]
/-- In the data region the Miller reads data. -/
theorem State.millerByte_data (s : State) (a : Nat) (h : a < 0xA800000000) : s.millerByte a = s.byte a := by
  simp [State.millerByte, regionOf, h]
theorem State.millerBytes_data (s : State) (a n : Nat) (h : a + n ≤ 0xA800000000) : s.millerBytes a n = s.bytes a n := by
  simp only [State.millerBytes, State.bytes]
  exact List.map_congr_left fun i hi => s.millerByte_data _ (by have := List.mem_range.1 hi; omega)

end Sys2Proof.Machine
end

