-- ==== Sys2Proof/Laws/Frames.lean ====
section
/-! SUPPORT. The fields that raising an event, sending a datagram, moving an operation and writing bytes leave as they are. -/
namespace Sys2Proof.Machine

/-- Moving an operation changes its record and what an event changes. -/
theorem State.opMove_frame (s : State) (h : Word32) (st : OpState) (status : Nat) :
    s.opMove h st status = { s with
      ops := (s.opMove h st status).ops, leat := (s.opMove h st status).leat
      out := (s.opMove h st status).out, cnt := (s.opMove h st status).cnt } := by
  unfold State.opMove
  split
  · rfl
  · split
    · rfl
    · dsimp only
      split
      · rfl
      · conv => lhs; rw [State.raise_frame]
        rw [State.raise_frame]

/-- Setting one byte changes memory and its syndromes alone. -/
theorem State.setByte_frame (s : State) (a : Nat) (b : Byte) : ∃ m y, s.setByte a b = { s with mem := m, syn := y } :=
  ⟨_, _, rfl⟩
theorem State.setBytes_only (bs : List Byte) : ∀ (s : State) (a : Nat), ∃ m y, s.setBytes a bs = { s with mem := m, syn := y } := by
  induction bs with
  | nil => exact fun s a => ⟨_, _, rfl⟩
  | cons b bs ih =>
    intro s a
    obtain ⟨m, y, h⟩ := ih (s.setByte a b) (a + 1)
    obtain ⟨m', y', h'⟩ := s.setByte_frame a b
    exact ⟨m, y, by show (s.setByte a b).setBytes (a + 1) bs = _; rw [h, h']⟩
theorem State.settle_only (s : State) (w : Nat) : ∃ m y, s.settle w = { s with mem := m, syn := y } := by
  unfold State.settle
  split
  · exact ⟨_, _, rfl⟩
  · obtain ⟨m, y, h⟩ := State.setBytes_only (leBytes 8 (s.word w)) s (8 * w)
    exact ⟨m, NMap.set 0 s.syn w 0, by rw [h]⟩
theorem State.poke_only (s : State) (a : Nat) (b : Byte) : ∃ m y, s.poke a b = { s with mem := m, syn := y } := by
  obtain ⟨m, y, h⟩ := s.settle_only (a / 8)
  obtain ⟨m', y', h'⟩ := (s.settle (a / 8)).setByte_frame a b
  exact ⟨m', y', by show (s.settle (a / 8)).setByte a b = _; rw [h', h]⟩
theorem State.pokes_only (bs : List Byte) : ∀ (s : State) (a : Nat), ∃ m y, s.pokes a bs = { s with mem := m, syn := y } := by
  induction bs with
  | nil => exact fun s a => ⟨_, _, rfl⟩
  | cons b bs ih =>
    intro s a
    obtain ⟨m, y, h⟩ := ih (s.poke a b) (a + 1)
    obtain ⟨m', y', h'⟩ := s.poke_only a b
    exact ⟨m, y, by show (s.poke a b).pokes (a + 1) bs = _; rw [h, h']⟩
/-- Writing bytes changes memory and its syndromes alone. -/
theorem State.pokes_frame (s : State) (a : Nat) (bs : List Byte) :
    s.pokes a bs = { s with mem := (s.pokes a bs).mem, syn := (s.pokes a bs).syn } := by
  obtain ⟨m, y, h⟩ := State.pokes_only bs s a
  rw [h]

@[simp] theorem State.raise_pending (s : State) (c : Nat) (h : Word32) (d : List Nat) : (s.raise c h d).pending = s.pending := by rw [State.raise_frame]
@[simp] theorem State.raise_fresh (s : State) (c : Nat) (h : Word32) (d : List Nat) : (s.raise c h d).fresh = s.fresh := by rw [State.raise_frame]
@[simp] theorem State.raise_pwr (s : State) (c : Nat) (h : Word32) (d : List Nat) : (s.raise c h d).pwr = s.pwr := by rw [State.raise_frame]
@[simp] theorem State.raise_clk (s : State) (c : Nat) (h : Word32) (d : List Nat) : (s.raise c h d).clk = s.clk := by rw [State.raise_frame]
@[simp] theorem State.raise_time (s : State) (c : Nat) (h : Word32) (d : List Nat) : (s.raise c h d).time = s.time := by rw [State.raise_frame]
@[simp] theorem State.raise_nv (s : State) (c : Nat) (h : Word32) (d : List Nat) : (s.raise c h d).nv = s.nv := by rw [State.raise_frame]
@[simp] theorem State.raise_boot (s : State) (c : Nat) (h : Word32) (d : List Nat) : (s.raise c h d).boot = s.boot := by rw [State.raise_frame]
@[simp] theorem State.raise_eth (s : State) (c : Nat) (h : Word32) (d : List Nat) : (s.raise c h d).eth = s.eth := by rw [State.raise_frame]
@[simp] theorem State.raise_ops (s : State) (c : Nat) (h : Word32) (d : List Nat) : (s.raise c h d).ops = s.ops := by rw [State.raise_frame]
@[simp] theorem State.raise_opSerial (s : State) (c : Nat) (h : Word32) (d : List Nat) : (s.raise c h d).opSerial = s.opSerial := by rw [State.raise_frame]
@[simp] theorem State.raise_work (s : State) (c : Nat) (h : Word32) (d : List Nat) : (s.raise c h d).work = s.work := by rw [State.raise_frame]
@[simp] theorem State.raise_qps (s : State) (c : Nat) (h : Word32) (d : List Nat) : (s.raise c h d).qps = s.qps := by rw [State.raise_frame]
@[simp] theorem State.raise_sec (s : State) (c : Nat) (h : Word32) (d : List Nat) : (s.raise c h d).sec = s.sec := by rw [State.raise_frame]
@[simp] theorem State.raise_smb (s : State) (c : Nat) (h : Word32) (d : List Nat) : (s.raise c h d).smb = s.smb := by rw [State.raise_frame]
@[simp] theorem State.raise_tap (s : State) (c : Nat) (h : Word32) (d : List Nat) : (s.raise c h d).tap = s.tap := by rw [State.raise_frame]
@[simp] theorem State.raise_tests (s : State) (c : Nat) (h : Word32) (d : List Nat) : (s.raise c h d).tests = s.tests := by rw [State.raise_frame]
@[simp] theorem State.raise_fwLen (s : State) (c : Nat) (h : Word32) (d : List Nat) : (s.raise c h d).fwLen = s.fwLen := by rw [State.raise_frame]
@[simp] theorem State.raise_base (s : State) (c : Nat) (h : Word32) (d : List Nat) : (s.raise c h d).base = s.base := by rw [State.raise_frame]
@[simp] theorem State.raise_mirror (s : State) (c : Nat) (h : Word32) (d : List Nat) : (s.raise c h d).mirror = s.mirror := by rw [State.raise_frame]
@[simp] theorem State.raise_ctrClear (s : State) (c : Nat) (h : Word32) (d : List Nat) : (s.raise c h d).ctrClear = s.ctrClear := by rw [State.raise_frame]
@[simp] theorem State.raise_mills (s : State) (c : Nat) (h : Word32) (d : List Nat) : (s.raise c h d).mills = s.mills := by rw [State.raise_frame]
@[simp] theorem State.raise_mem (s : State) (c : Nat) (h : Word32) (d : List Nat) : (s.raise c h d).mem = s.mem := by rw [State.raise_frame]
@[simp] theorem State.raise_syn (s : State) (c : Nat) (h : Word32) (d : List Nat) : (s.raise c h d).syn = s.syn := by rw [State.raise_frame]
@[simp] theorem State.raise_kettle (s : State) (c : Nat) (h : Word32) (d : List Nat) : (s.raise c h d).kettle = s.kettle := by rw [State.raise_frame]
@[simp] theorem State.raise_kettleSyn (s : State) (c : Nat) (h : Word32) (d : List Nat) : (s.raise c h d).kettleSyn = s.kettleSyn := by rw [State.raise_frame]
@[simp] theorem State.raise_memctl (s : State) (c : Nat) (h : Word32) (d : List Nat) : (s.raise c h d).memctl = s.memctl := by rw [State.raise_frame]
@[simp] theorem State.raise_banks (s : State) (c : Nat) (h : Word32) (d : List Nat) : (s.raise c h d).banks = s.banks := by rw [State.raise_frame]
@[simp] theorem State.raise_races (s : State) (c : Nat) (h : Word32) (d : List Nat) : (s.raise c h d).races = s.races := by rw [State.raise_frame]
@[simp] theorem State.raise_feeds (s : State) (c : Nat) (h : Word32) (d : List Nat) : (s.raise c h d).feeds = s.feeds := by rw [State.raise_frame]
@[simp] theorem State.raise_ports (s : State) (c : Nat) (h : Word32) (d : List Nat) : (s.raise c h d).ports = s.ports := by rw [State.raise_frame]
@[simp] theorem State.raise_folds (s : State) (c : Nat) (h : Word32) (d : List Nat) : (s.raise c h d).folds = s.folds := by rw [State.raise_frame]
@[simp] theorem State.raise_due (s : State) (c : Nat) (h : Word32) (d : List Nat) : (s.raise c h d).due = s.due := by rw [State.raise_frame]
@[simp] theorem State.raise_noc (s : State) (c : Nat) (h : Word32) (d : List Nat) : (s.raise c h d).noc = s.noc := by rw [State.raise_frame]
@[simp] theorem State.raise_streams (s : State) (c : Nat) (h : Word32) (d : List Nat) : (s.raise c h d).streams = s.streams := by rw [State.raise_frame]
@[simp] theorem State.raise_shapes (s : State) (c : Nat) (h : Word32) (d : List Nat) : (s.raise c h d).shapes = s.shapes := by rw [State.raise_frame]
@[simp] theorem State.raise_tenters (s : State) (c : Nat) (h : Word32) (d : List Nat) : (s.raise c h d).tenters = s.tenters := by rw [State.raise_frame]
@[simp] theorem State.raise_carders (s : State) (c : Nat) (h : Word32) (d : List Nat) : (s.raise c h d).carders = s.carders := by rw [State.raise_frame]
@[simp] theorem State.raise_image (s : State) (c : Nat) (h : Word32) (d : List Nat) : (s.raise c h d).image = s.image := by rw [State.raise_frame]
@[simp] theorem State.raise_loading (s : State) (c : Nat) (h : Word32) (d : List Nat) : (s.raise c h d).loading = s.loading := by rw [State.raise_frame]
@[simp] theorem State.raise_img (s : State) (c : Nat) (h : Word32) (d : List Nat) : (s.raise c h d).img = s.img := by rw [State.raise_frame]
@[simp] theorem State.raise_shapeLog (s : State) (c : Nat) (h : Word32) (d : List Nat) : (s.raise c h d).shapeLog = s.shapeLog := by rw [State.raise_frame]
@[simp] theorem State.raise_weirs (s : State) (c : Nat) (h : Word32) (d : List Nat) : (s.raise c h d).weirs = s.weirs := by rw [State.raise_frame]
@[simp] theorem State.raise_weirLog (s : State) (c : Nat) (h : Word32) (d : List Nat) : (s.raise c h d).weirLog = s.weirLog := by rw [State.raise_frame]
@[simp] theorem State.raise_deadLog (s : State) (c : Nat) (h : Word32) (d : List Nat) : (s.raise c h d).deadLog = s.deadLog := by rw [State.raise_frame]
@[simp] theorem State.raise_ctx (s : State) (c : Nat) (h : Word32) (d : List Nat) : (s.raise c h d).ctx = s.ctx := by rw [State.raise_frame]
@[simp] theorem State.raise_flume (s : State) (c : Nat) (h : Word32) (d : List Nat) : (s.raise c h d).flume = s.flume := by rw [State.raise_frame]
@[simp] theorem State.raise_wheel (s : State) (c : Nat) (h : Word32) (d : List Nat) : (s.raise c h d).wheel = s.wheel := by rw [State.raise_frame]
@[simp] theorem State.raise_run (s : State) (c : Nat) (h : Word32) (d : List Nat) : (s.raise c h d).run = s.run := by rw [State.raise_frame]
@[simp] theorem State.raise_snap (s : State) (c : Nat) (h : Word32) (d : List Nat) : (s.raise c h d).snap = s.snap := by rw [State.raise_frame]
@[simp] theorem State.raise_restore (s : State) (c : Nat) (h : Word32) (d : List Nat) : (s.raise c h d).restore = s.restore := by rw [State.raise_frame]
@[simp] theorem State.raise_health (s : State) (c : Nat) (h : Word32) (d : List Nat) : (s.raise c h d).health = s.health := by rw [State.raise_frame]
@[simp] theorem State.opMove_pending (s : State) (h : Word32) (x : OpState) (n : Nat) : (s.opMove h x n).pending = s.pending := by rw [State.opMove_frame]
@[simp] theorem State.opMove_fresh (s : State) (h : Word32) (x : OpState) (n : Nat) : (s.opMove h x n).fresh = s.fresh := by rw [State.opMove_frame]
@[simp] theorem State.opMove_pwr (s : State) (h : Word32) (x : OpState) (n : Nat) : (s.opMove h x n).pwr = s.pwr := by rw [State.opMove_frame]
@[simp] theorem State.opMove_clk (s : State) (h : Word32) (x : OpState) (n : Nat) : (s.opMove h x n).clk = s.clk := by rw [State.opMove_frame]
@[simp] theorem State.opMove_time (s : State) (h : Word32) (x : OpState) (n : Nat) : (s.opMove h x n).time = s.time := by rw [State.opMove_frame]
@[simp] theorem State.opMove_nv (s : State) (h : Word32) (x : OpState) (n : Nat) : (s.opMove h x n).nv = s.nv := by rw [State.opMove_frame]
@[simp] theorem State.opMove_boot (s : State) (h : Word32) (x : OpState) (n : Nat) : (s.opMove h x n).boot = s.boot := by rw [State.opMove_frame]
@[simp] theorem State.opMove_eth (s : State) (h : Word32) (x : OpState) (n : Nat) : (s.opMove h x n).eth = s.eth := by rw [State.opMove_frame]
@[simp] theorem State.opMove_opSerial (s : State) (h : Word32) (x : OpState) (n : Nat) : (s.opMove h x n).opSerial = s.opSerial := by rw [State.opMove_frame]
@[simp] theorem State.opMove_work (s : State) (h : Word32) (x : OpState) (n : Nat) : (s.opMove h x n).work = s.work := by rw [State.opMove_frame]
@[simp] theorem State.opMove_qps (s : State) (h : Word32) (x : OpState) (n : Nat) : (s.opMove h x n).qps = s.qps := by rw [State.opMove_frame]
@[simp] theorem State.opMove_sec (s : State) (h : Word32) (x : OpState) (n : Nat) : (s.opMove h x n).sec = s.sec := by rw [State.opMove_frame]
@[simp] theorem State.opMove_smb (s : State) (h : Word32) (x : OpState) (n : Nat) : (s.opMove h x n).smb = s.smb := by rw [State.opMove_frame]
@[simp] theorem State.opMove_tap (s : State) (h : Word32) (x : OpState) (n : Nat) : (s.opMove h x n).tap = s.tap := by rw [State.opMove_frame]
@[simp] theorem State.opMove_tests (s : State) (h : Word32) (x : OpState) (n : Nat) : (s.opMove h x n).tests = s.tests := by rw [State.opMove_frame]
@[simp] theorem State.opMove_fwLen (s : State) (h : Word32) (x : OpState) (n : Nat) : (s.opMove h x n).fwLen = s.fwLen := by rw [State.opMove_frame]
@[simp] theorem State.opMove_base (s : State) (h : Word32) (x : OpState) (n : Nat) : (s.opMove h x n).base = s.base := by rw [State.opMove_frame]
@[simp] theorem State.opMove_mirror (s : State) (h : Word32) (x : OpState) (n : Nat) : (s.opMove h x n).mirror = s.mirror := by rw [State.opMove_frame]
@[simp] theorem State.opMove_ctrClear (s : State) (h : Word32) (x : OpState) (n : Nat) : (s.opMove h x n).ctrClear = s.ctrClear := by rw [State.opMove_frame]
@[simp] theorem State.opMove_mills (s : State) (h : Word32) (x : OpState) (n : Nat) : (s.opMove h x n).mills = s.mills := by rw [State.opMove_frame]
@[simp] theorem State.opMove_mem (s : State) (h : Word32) (x : OpState) (n : Nat) : (s.opMove h x n).mem = s.mem := by rw [State.opMove_frame]
@[simp] theorem State.opMove_syn (s : State) (h : Word32) (x : OpState) (n : Nat) : (s.opMove h x n).syn = s.syn := by rw [State.opMove_frame]
@[simp] theorem State.opMove_kettle (s : State) (h : Word32) (x : OpState) (n : Nat) : (s.opMove h x n).kettle = s.kettle := by rw [State.opMove_frame]
@[simp] theorem State.opMove_kettleSyn (s : State) (h : Word32) (x : OpState) (n : Nat) : (s.opMove h x n).kettleSyn = s.kettleSyn := by rw [State.opMove_frame]
@[simp] theorem State.opMove_memctl (s : State) (h : Word32) (x : OpState) (n : Nat) : (s.opMove h x n).memctl = s.memctl := by rw [State.opMove_frame]
@[simp] theorem State.opMove_banks (s : State) (h : Word32) (x : OpState) (n : Nat) : (s.opMove h x n).banks = s.banks := by rw [State.opMove_frame]
@[simp] theorem State.opMove_races (s : State) (h : Word32) (x : OpState) (n : Nat) : (s.opMove h x n).races = s.races := by rw [State.opMove_frame]
@[simp] theorem State.opMove_feeds (s : State) (h : Word32) (x : OpState) (n : Nat) : (s.opMove h x n).feeds = s.feeds := by rw [State.opMove_frame]
@[simp] theorem State.opMove_ports (s : State) (h : Word32) (x : OpState) (n : Nat) : (s.opMove h x n).ports = s.ports := by rw [State.opMove_frame]
@[simp] theorem State.opMove_folds (s : State) (h : Word32) (x : OpState) (n : Nat) : (s.opMove h x n).folds = s.folds := by rw [State.opMove_frame]
@[simp] theorem State.opMove_due (s : State) (h : Word32) (x : OpState) (n : Nat) : (s.opMove h x n).due = s.due := by rw [State.opMove_frame]
@[simp] theorem State.opMove_noc (s : State) (h : Word32) (x : OpState) (n : Nat) : (s.opMove h x n).noc = s.noc := by rw [State.opMove_frame]
@[simp] theorem State.opMove_streams (s : State) (h : Word32) (x : OpState) (n : Nat) : (s.opMove h x n).streams = s.streams := by rw [State.opMove_frame]
@[simp] theorem State.opMove_shapes (s : State) (h : Word32) (x : OpState) (n : Nat) : (s.opMove h x n).shapes = s.shapes := by rw [State.opMove_frame]
@[simp] theorem State.opMove_tenters (s : State) (h : Word32) (x : OpState) (n : Nat) : (s.opMove h x n).tenters = s.tenters := by rw [State.opMove_frame]
@[simp] theorem State.opMove_carders (s : State) (h : Word32) (x : OpState) (n : Nat) : (s.opMove h x n).carders = s.carders := by rw [State.opMove_frame]
@[simp] theorem State.opMove_image (s : State) (h : Word32) (x : OpState) (n : Nat) : (s.opMove h x n).image = s.image := by rw [State.opMove_frame]
@[simp] theorem State.opMove_loading (s : State) (h : Word32) (x : OpState) (n : Nat) : (s.opMove h x n).loading = s.loading := by rw [State.opMove_frame]
@[simp] theorem State.opMove_img (s : State) (h : Word32) (x : OpState) (n : Nat) : (s.opMove h x n).img = s.img := by rw [State.opMove_frame]
@[simp] theorem State.opMove_shapeLog (s : State) (h : Word32) (x : OpState) (n : Nat) : (s.opMove h x n).shapeLog = s.shapeLog := by rw [State.opMove_frame]
@[simp] theorem State.opMove_weirs (s : State) (h : Word32) (x : OpState) (n : Nat) : (s.opMove h x n).weirs = s.weirs := by rw [State.opMove_frame]
@[simp] theorem State.opMove_weirLog (s : State) (h : Word32) (x : OpState) (n : Nat) : (s.opMove h x n).weirLog = s.weirLog := by rw [State.opMove_frame]
@[simp] theorem State.opMove_deadLog (s : State) (h : Word32) (x : OpState) (n : Nat) : (s.opMove h x n).deadLog = s.deadLog := by rw [State.opMove_frame]
@[simp] theorem State.opMove_ctx (s : State) (h : Word32) (x : OpState) (n : Nat) : (s.opMove h x n).ctx = s.ctx := by rw [State.opMove_frame]
@[simp] theorem State.opMove_flume (s : State) (h : Word32) (x : OpState) (n : Nat) : (s.opMove h x n).flume = s.flume := by rw [State.opMove_frame]
@[simp] theorem State.opMove_wheel (s : State) (h : Word32) (x : OpState) (n : Nat) : (s.opMove h x n).wheel = s.wheel := by rw [State.opMove_frame]
@[simp] theorem State.opMove_run (s : State) (h : Word32) (x : OpState) (n : Nat) : (s.opMove h x n).run = s.run := by rw [State.opMove_frame]
@[simp] theorem State.opMove_snap (s : State) (h : Word32) (x : OpState) (n : Nat) : (s.opMove h x n).snap = s.snap := by rw [State.opMove_frame]
@[simp] theorem State.opMove_restore (s : State) (h : Word32) (x : OpState) (n : Nat) : (s.opMove h x n).restore = s.restore := by rw [State.opMove_frame]
@[simp] theorem State.opMove_health (s : State) (h : Word32) (x : OpState) (n : Nat) : (s.opMove h x n).health = s.health := by rw [State.opMove_frame]
@[simp] theorem State.pokes_pending (s : State) (a : Nat) (bs : List Byte) : (s.pokes a bs).pending = s.pending := by rw [State.pokes_frame]
@[simp] theorem State.pokes_fresh (s : State) (a : Nat) (bs : List Byte) : (s.pokes a bs).fresh = s.fresh := by rw [State.pokes_frame]
@[simp] theorem State.pokes_out (s : State) (a : Nat) (bs : List Byte) : (s.pokes a bs).out = s.out := by rw [State.pokes_frame]
@[simp] theorem State.pokes_pwr (s : State) (a : Nat) (bs : List Byte) : (s.pokes a bs).pwr = s.pwr := by rw [State.pokes_frame]
@[simp] theorem State.pokes_clk (s : State) (a : Nat) (bs : List Byte) : (s.pokes a bs).clk = s.clk := by rw [State.pokes_frame]
@[simp] theorem State.pokes_time (s : State) (a : Nat) (bs : List Byte) : (s.pokes a bs).time = s.time := by rw [State.pokes_frame]
@[simp] theorem State.pokes_nv (s : State) (a : Nat) (bs : List Byte) : (s.pokes a bs).nv = s.nv := by rw [State.pokes_frame]
@[simp] theorem State.pokes_boot (s : State) (a : Nat) (bs : List Byte) : (s.pokes a bs).boot = s.boot := by rw [State.pokes_frame]
@[simp] theorem State.pokes_eth (s : State) (a : Nat) (bs : List Byte) : (s.pokes a bs).eth = s.eth := by rw [State.pokes_frame]
@[simp] theorem State.pokes_leat (s : State) (a : Nat) (bs : List Byte) : (s.pokes a bs).leat = s.leat := by rw [State.pokes_frame]
@[simp] theorem State.pokes_ops (s : State) (a : Nat) (bs : List Byte) : (s.pokes a bs).ops = s.ops := by rw [State.pokes_frame]
@[simp] theorem State.pokes_opSerial (s : State) (a : Nat) (bs : List Byte) : (s.pokes a bs).opSerial = s.opSerial := by rw [State.pokes_frame]
@[simp] theorem State.pokes_work (s : State) (a : Nat) (bs : List Byte) : (s.pokes a bs).work = s.work := by rw [State.pokes_frame]
@[simp] theorem State.pokes_qps (s : State) (a : Nat) (bs : List Byte) : (s.pokes a bs).qps = s.qps := by rw [State.pokes_frame]
@[simp] theorem State.pokes_sec (s : State) (a : Nat) (bs : List Byte) : (s.pokes a bs).sec = s.sec := by rw [State.pokes_frame]
@[simp] theorem State.pokes_smb (s : State) (a : Nat) (bs : List Byte) : (s.pokes a bs).smb = s.smb := by rw [State.pokes_frame]
@[simp] theorem State.pokes_tap (s : State) (a : Nat) (bs : List Byte) : (s.pokes a bs).tap = s.tap := by rw [State.pokes_frame]
@[simp] theorem State.pokes_tests (s : State) (a : Nat) (bs : List Byte) : (s.pokes a bs).tests = s.tests := by rw [State.pokes_frame]
@[simp] theorem State.pokes_fwLen (s : State) (a : Nat) (bs : List Byte) : (s.pokes a bs).fwLen = s.fwLen := by rw [State.pokes_frame]
@[simp] theorem State.pokes_cnt (s : State) (a : Nat) (bs : List Byte) : (s.pokes a bs).cnt = s.cnt := by rw [State.pokes_frame]
@[simp] theorem State.pokes_base (s : State) (a : Nat) (bs : List Byte) : (s.pokes a bs).base = s.base := by rw [State.pokes_frame]
@[simp] theorem State.pokes_mirror (s : State) (a : Nat) (bs : List Byte) : (s.pokes a bs).mirror = s.mirror := by rw [State.pokes_frame]
@[simp] theorem State.pokes_ctrClear (s : State) (a : Nat) (bs : List Byte) : (s.pokes a bs).ctrClear = s.ctrClear := by rw [State.pokes_frame]
@[simp] theorem State.pokes_mills (s : State) (a : Nat) (bs : List Byte) : (s.pokes a bs).mills = s.mills := by rw [State.pokes_frame]
@[simp] theorem State.pokes_kettle (s : State) (a : Nat) (bs : List Byte) : (s.pokes a bs).kettle = s.kettle := by rw [State.pokes_frame]
@[simp] theorem State.pokes_kettleSyn (s : State) (a : Nat) (bs : List Byte) : (s.pokes a bs).kettleSyn = s.kettleSyn := by rw [State.pokes_frame]
@[simp] theorem State.pokes_memctl (s : State) (a : Nat) (bs : List Byte) : (s.pokes a bs).memctl = s.memctl := by rw [State.pokes_frame]
@[simp] theorem State.pokes_banks (s : State) (a : Nat) (bs : List Byte) : (s.pokes a bs).banks = s.banks := by rw [State.pokes_frame]
@[simp] theorem State.pokes_races (s : State) (a : Nat) (bs : List Byte) : (s.pokes a bs).races = s.races := by rw [State.pokes_frame]
@[simp] theorem State.pokes_feeds (s : State) (a : Nat) (bs : List Byte) : (s.pokes a bs).feeds = s.feeds := by rw [State.pokes_frame]
@[simp] theorem State.pokes_ports (s : State) (a : Nat) (bs : List Byte) : (s.pokes a bs).ports = s.ports := by rw [State.pokes_frame]
@[simp] theorem State.pokes_folds (s : State) (a : Nat) (bs : List Byte) : (s.pokes a bs).folds = s.folds := by rw [State.pokes_frame]
@[simp] theorem State.pokes_due (s : State) (a : Nat) (bs : List Byte) : (s.pokes a bs).due = s.due := by rw [State.pokes_frame]
@[simp] theorem State.pokes_noc (s : State) (a : Nat) (bs : List Byte) : (s.pokes a bs).noc = s.noc := by rw [State.pokes_frame]
@[simp] theorem State.pokes_streams (s : State) (a : Nat) (bs : List Byte) : (s.pokes a bs).streams = s.streams := by rw [State.pokes_frame]
@[simp] theorem State.pokes_shapes (s : State) (a : Nat) (bs : List Byte) : (s.pokes a bs).shapes = s.shapes := by rw [State.pokes_frame]
@[simp] theorem State.pokes_tenters (s : State) (a : Nat) (bs : List Byte) : (s.pokes a bs).tenters = s.tenters := by rw [State.pokes_frame]
@[simp] theorem State.pokes_carders (s : State) (a : Nat) (bs : List Byte) : (s.pokes a bs).carders = s.carders := by rw [State.pokes_frame]
@[simp] theorem State.pokes_image (s : State) (a : Nat) (bs : List Byte) : (s.pokes a bs).image = s.image := by rw [State.pokes_frame]
@[simp] theorem State.pokes_loading (s : State) (a : Nat) (bs : List Byte) : (s.pokes a bs).loading = s.loading := by rw [State.pokes_frame]
@[simp] theorem State.pokes_img (s : State) (a : Nat) (bs : List Byte) : (s.pokes a bs).img = s.img := by rw [State.pokes_frame]
@[simp] theorem State.pokes_shapeLog (s : State) (a : Nat) (bs : List Byte) : (s.pokes a bs).shapeLog = s.shapeLog := by rw [State.pokes_frame]
@[simp] theorem State.pokes_weirs (s : State) (a : Nat) (bs : List Byte) : (s.pokes a bs).weirs = s.weirs := by rw [State.pokes_frame]
@[simp] theorem State.pokes_weirLog (s : State) (a : Nat) (bs : List Byte) : (s.pokes a bs).weirLog = s.weirLog := by rw [State.pokes_frame]
@[simp] theorem State.pokes_deadLog (s : State) (a : Nat) (bs : List Byte) : (s.pokes a bs).deadLog = s.deadLog := by rw [State.pokes_frame]
@[simp] theorem State.pokes_ctx (s : State) (a : Nat) (bs : List Byte) : (s.pokes a bs).ctx = s.ctx := by rw [State.pokes_frame]
@[simp] theorem State.pokes_flume (s : State) (a : Nat) (bs : List Byte) : (s.pokes a bs).flume = s.flume := by rw [State.pokes_frame]
@[simp] theorem State.pokes_wheel (s : State) (a : Nat) (bs : List Byte) : (s.pokes a bs).wheel = s.wheel := by rw [State.pokes_frame]
@[simp] theorem State.pokes_run (s : State) (a : Nat) (bs : List Byte) : (s.pokes a bs).run = s.run := by rw [State.pokes_frame]
@[simp] theorem State.pokes_snap (s : State) (a : Nat) (bs : List Byte) : (s.pokes a bs).snap = s.snap := by rw [State.pokes_frame]
@[simp] theorem State.pokes_restore (s : State) (a : Nat) (bs : List Byte) : (s.pokes a bs).restore = s.restore := by rw [State.pokes_frame]
@[simp] theorem State.pokes_health (s : State) (a : Nat) (bs : List Byte) : (s.pokes a bs).health = s.health := by rw [State.pokes_frame]

end Sys2Proof.Machine
end

