-- ==== Sys2Proof/Tests/Slice0.lean ====
section
/-! SUPPORT. Tests: ill-formed terms, known answers, single steps, and for every statement with hypotheses a state and operands that meet them, clause by clause. -/
namespace Sys2Proof.Tests
open Sys2Proof Sys2Proof.Machine
set_option linter.unusedVariables false
set_option maxRecDepth 100000
set_option Elab.async false

/-! ### Small states and images for the tests -/

/-- A module that is up: rails on, clocks locked, memory zeroed, Ethernet port 0 linked. -/
def sUp : State := { State.reset with
  pwr := { Pwr.init with pwrEn := true, pwrGood := true, pdOn := BitVec.allOnes 20, startStep := 9 }
  clk := { Clk.init with refStable := true, locked := BitVec.allOnes 18 }
  time := { Time.init with running := true }
  memctl := { MemCtl.init with pkgTrained := BitVec.allOnes 12, patrolOn := BitVec.allOnes 12, zeroed := true }
  boot := { Boot.init with fusesLoaded := true }
  leat := { Leat.init with listening := true, tailraceOpen := true }
  eth := [(0, { Eth.init with linkUp := true, mode := 2, anDone := true })] }
def ses1 : Session := ⟨1, 0, [], [], true, [], 0, 0, []⟩
/-- With a Leat session that holds control. -/
def sLeat : State := { sUp with leat := { sUp.leat with sessions := [ses1] } }
def hd0 : LeatHdr := ⟨0, 0x4C54, 1, 1, 5, []⟩
/-- The header of a request in that session, with the tag that R327 asks for. -/
def hd (c : BitVec 16) (p : List Byte) : LeatHdr := { hd0 with tag := hostTag [] hd0 0x03 c p }
theorem hd_tag (c : BitVec 16) (p : List Byte) : (hd c p).tag = hostTag [] (hd c p) 0x03 c p := by
  simp only [hd, hostTag]
theorem adm (s : State) (x : Session) (c : BitVec 16) (p : List Byte) (h1 : s.hears 0 = true) (h2 : s.session 1 = some x)
    (h3 : x.keyIn = []) (h4 : x.cache = []) (h5 : x.highSeq = 0) : Admitted s (hd c p) x c p :=
  ⟨h1, rfl, rfl, h2, by rw [h3]; exact hd_tag c p, by rw [h4]; rfl, by rw [h5]; exact Nat.zero_le _⟩
/-- The register write of one register in that session. -/
def hdw (a v : Nat) : LeatHdr := hd 0x0011 (regPayload a 1 [v])
theorem wadm (s : State) (a v : Nat) (h1 : s.hears 0 = true) (h2 : s.session 1 = some ses1) : WriteAdmitted s (hdw a v) ses1 a v :=
  ⟨adm s ses1 _ _ h1 h2 rfl rfl rfl, rfl⟩
theorem quiet_of (s : State) (h : s.syn = [] ∧ s.kettleSyn = [] ∧ s.noc = [] ∧ s.snap.st = .idle ∧
    (s.banks.all fun p => decide (p.2.st ≠ .waking)) = true) : Quiet s := by
  obtain ⟨h1, h2, h0, h3, h4⟩ := h
  refine ⟨h1, h2, h0, h3, ?_⟩
  intro k
  generalize s.banks = l at h4
  induction l with
  | nil => exact fun h => nomatch h
  | cons p l ih =>
    obtain ⟨k', v⟩ := p
    simp only [List.all_cons, Bool.and_eq_true, decide_eq_true_eq] at h4
    simp only [NMap.get]
    split
    · exact h4.1
    · exact ih h4.2

/-- One instruction of 32 bytes: opcode, flags, four descriptor fields, and the operands below them. -/
def insB (opc flags d0 d1 d2 d3 ops : Nat) : List Byte :=
  leBytes 32 (opc * 2 ^ 248 + flags * 2 ^ 240 + d0 * 2 ^ 224 + d1 * 2 ^ 208 + d2 * 2 ^ 192 + d3 * 2 ^ 176 + (2 ^ 24 - 1) * 2 ^ 152 + ops)
/-- A stream record (R203). -/
def recB (owner kind n body : Nat) (ins kernel : List Byte) : List Byte :=
  leBytes 8 (owner + kind * 256 + n * 2 ^ 32) ++ leBytes 8 (body + kernel.length * 2 ^ 32) ++ ins ++ kernel
/-- Port records of one segment of one turn that nobody has, which runs on and on (R199). -/
def portsB (ps : List Nat) : List Byte := ps.flatMap fun p => leBytes 8 (p + 2 ^ 24 + 2 ^ 32) ++ leBytes 8 (2 ^ 32) ++ leBytes 8 0
/-- The lateral outputs between the hub of Floor 0 and Mill 0, and the ports that the engines of Mill 0 and Tenter 0 can reach in an
image that maps Mill 0 alone. -/
def latPorts : List Nat := (latPath (hubPos 0) (millPos 0) ++ latPath (millPos 0) (hubPos 0)).map (·.1)
def allPorts : List Nat := 0x1000 :: 0x2000 :: latPorts ++ (List.range 144).map (0x3000 + ·)
def mapped : NMap (List Byte) := [(1, [0]), (6, portsB allPorts)]
/-- An image of one stream with one instruction, which maps Mill 0 and has its ports; the test gives more sections. -/
def imgS (kind : Nat) (ins kernel : List Byte) (more : NMap (List Byte)) : Image :=
  ⟨[], 0, false, mapped ++ more ++ [(17, recB 0 kind 1 0 ins kernel)]⟩
/-- That image running, the stream at its instruction. -/
def sRun (kind : Nat) (ins kernel : List Byte) (more : NMap (List Byte)) : State :=
  { sUp with image := some (imgS kind ins kernel more), ctx := ⟨true, 0, 0, 0, false⟩, streams := [(kind, { Stream.init with stat := .running })] }
def isR (kind : Nat) (ins kernel : List Byte) (more : NMap (List Byte)) : Issue :=
  ⟨imgS kind ins kernel more, 0, kind, ⟨0, kind, 1, 0, 0, ins, kernel⟩, SInstr.parse ins, []⟩
def noD (opc : Nat) : List Byte := insB opc 0 0xFFFF 0xFFFF 0xFFFF 0xFFFF 0
theorem ports_all : (portRecs ((portsB allPorts).length / 16 + 1) 0 (portsB allPorts)).map (·.port) = allPorts := by decide +kernel
theorem serves_all (s : State) (img : Image) (h6 : img.sec 6 = portsB allPorts) (hs : s.ports = []) (p : Nat) (hp : p ∈ allPorts) :
    s.portServes img p = true := by
  rw [← ports_all] at hp
  obtain ⟨r, hr, rfl⟩ := List.mem_map.1 hp
  have hm : r ∈ img.ports.filter fun x => x.port == r.port :=
    List.mem_filter.2 ⟨by rw [Image.ports, h6]; exact hr, beq_self_eq_true _⟩
  have hi : (img.port r.port).isSome = true := by
    rw [Image.port]
    cases hf : img.ports.filter fun x => x.port == r.port with
    | nil => rw [hf] at hm; cases hm
    | cons x xs => rfl
  simp [State.portServes, hi, State.portPos, hs, PortPos.init]
theorem reach_all (img : Image) (h1 : img.sec 1 = [0]) (k : Nat) (hk : k < 6) (ag : Agent) (w : Bool) (a n : Nat)
    (h : ag.stream img = k) (u : TurnUse) (hu : u ∈ img.accessTurns ag w a n) : u.port ∈ allPorts := by
  have hl : ∀ m l, img.logical m = some l → m = 0 ∧ l = 0 := fun m l hm => by
    rw [Image.logical, h1] at hm
    by_cases hz : m = 0
    · subst hz; simp [findIdx] at hm; exact ⟨rfl, hm.symm⟩
    · simp [findIdx, Ne.symm hz] at hm
  have hph : ∀ l, img.phys l = 0 := fun l => by cases l <;> simp [Image.phys, h1]
  have hv : ∀ x, x < 144 → 0x3000 + x ∈ allPorts := fun x hx => by simp [allPorts, hx]
  have hh : 0x1000 ∈ allPorts ∧ 0x2000 ∈ allPorts := by simp [allPorts]
  have lat : ∀ v : TurnUse, v ∈ latFlits (hubPos 0) (millPos 0) w → v.port ∈ allPorts := fun v hv => by
    have : v.port ∈ latPorts := by revert v; cases w <;> decide +kernel
    simp [allPorts, this]
  have ag0 : (∃ c, ag = .mill 0 c) ∨ (∃ b, ag = .shoe 0 b) ∨ (∃ b, ag = .drain 0 b) ∨ ag = .tenter 0 := by
    have own : ∀ m kind, (match img.logical m with | some l => 8 * l + kind | none => noStream) = k → m = 0 := fun m kind hm => by
      split at hm
      · exact (hl _ _ ‹_›).1
      · simp only [noStream] at hm; omega
    cases ag with
    | mill m c => exact .inl ⟨c, by rw [own m _ h]⟩
    | shoe m b => exact .inr (.inl ⟨b, by rw [own m _ h]⟩)
    | drain m b => exact .inr (.inr (.inl ⟨b, by rw [own m _ h]⟩))
    | tenter f => exact .inr (.inr (.inr (by rw [show f = 0 by simp only [Agent.stream] at h; omega])))
    | _ => simp only [Agent.stream, noStream] at h; omega
  have pond : ∀ x, x < 144 → u ∈ pondTurns ag w 0 x → u.port ∈ allPorts := fun x hx hu => by
    obtain ⟨c, rfl⟩ | ⟨b, rfl⟩ | ⟨b, rfl⟩ | rfl := ag0
    · simp only [pondTurns, if_true, List.mem_singleton] at hu; rw [hu]; exact hv x hx
    · simp [pondTurns] at hu
    · simp [pondTurns] at hu
    · simp only [pondTurns, List.mem_append, List.mem_singleton] at hu
      rcases hu with hu | hu
      · exact lat u hu
      · rw [hu]; exact hv x hx
  unfold Image.accessTurns at hu
  split at hu
  · rw [hph] at hu
    exact pond _ (Nat.mod_lt _ (by decide)) hu
  · split at hu
    · obtain ⟨rfl, rfl⟩ := hl _ _ ‹_›
      exact pond 0 (by decide) hu
    · cases hu
  · split at hu
    · obtain ⟨rfl, rfl⟩ := hl _ _ ‹_›
      obtain ⟨c, rfl⟩ | ⟨b, rfl⟩ | ⟨b, rfl⟩ | rfl := ag0 <;>
        simp only [hopperTurns, if_true, List.mem_singleton, floorOf] at hu <;> rw [hu] <;> dsimp only
      · split <;> simp [hh]
      all_goals exact hh.1
    · cases hu
  · cases hu
/-- An engine of Mill 0, or Tenter 0, in an image that maps that Mill and has the ports. -/
theorem ready_at (s : State) (e : Issue) (owner kind opc : Nat) (drain : Bool) (fields : List Nat)
    (hq : s.syn = [] ∧ s.kettleSyn = [] ∧ s.noc = [] ∧ s.snap.st = .idle ∧
      (s.banks.all fun p => decide (p.2.st ≠ .waking)) = true)
    (h : s.issue owner kind opc = some e ∧ e.races drain fields = [] ∧ s.due = [] ∧ s.ports = [] ∧ e.img.sec 1 = [0] ∧ e.k < 6)
    (h6 : e.img.sec 6 = portsB allPorts) : Ready s e owner kind opc drain fields :=
  ⟨quiet_of s hq, h.1, by rw [h.2.1]; exact fun _ h => (nomatch h), by simp [State.stalledTurn, h.2.2.1],
    fun ag w a n ha u hu => serves_all s e.img h6 h.2.2.2.1 u.port (reach_all e.img h.2.2.2.2.1 e.k h.2.2.2.2.2 ag w a n ha u hu)⟩
theorem ready_of (kind : Nat) (ins kernel : List Byte) (more : NMap (List Byte)) (opc : Nat) (drain : Bool) (fields : List Nat)
    (h : (sRun kind ins kernel more).issue 0 kind opc = some (isR kind ins kernel more) ∧
      (isR kind ins kernel more).races drain fields = [] ∧ (sRun kind ins kernel more).due = [] ∧
      (sRun kind ins kernel more).ports = [] ∧ (isR kind ins kernel more).img.sec 1 = [0] ∧ (isR kind ins kernel more).k < 6) :
    Ready (sRun kind ins kernel more) (isR kind ins kernel more) 0 kind opc drain fields :=
  ready_at _ _ _ _ _ _ _ ⟨rfl, rfl, rfl, rfl, rfl⟩ h rfl
def bank1 : Bank := { Bank.init with st := .on }
def banksOn : NMap Bank := (List.range 16).map fun b => (b, bank1)

/-- Bytes of little-endian words. -/
def wordsB (ws : List Nat) : List Byte := ws.flatMap (leBytes 8)
def memOf (d : List Byte) : NMap Byte := (List.range' 0 d.length).zip d
theorem get_memOf (d : List Byte) : ∀ k i, i < d.length → NMap.get 0 ((List.range' k d.length).zip d) (k + i) = d.getD i 0 := by
  induction d with
  | nil => intro k i h; cases h
  | cons b d ih =>
    intro k i h
    simp only [List.length_cons, List.range'_succ, List.zip_cons_cons, NMap.get]
    cases i with
    | zero => simp
    | succ i =>
      rw [if_neg (by omega), show k + (i + 1) = (k + 1) + i by omega, ih (k + 1) i (by simpa using h)]; simp
theorem bytes_memOf (s : State) (d : List Byte) (n : Nat) (hm : s.mem = memOf d) (hs : s.syn = []) (hn : n = d.length) :
    s.bytes 0 n = d := by
  subst hn
  apply List.ext_getElem (by simp [State.bytes])
  intro i h1 h2
  have := get_memOf d 0 i h2
  simp only [State.bytes, List.getElem_map, List.getElem_range, State.byte, State.synOf, hs, NMap.get, State.rawByte, hm, memOf]
  rw [this, List.getD_eq_getElem?_getD, List.getElem?_eq_getElem h2, Option.getD_some]
  rfl
/-- A key of the tests: the private key is 1. -/
def pubB : List Byte := ecEncode g521
/-- A HELLO that names a serial number; its key identifier is zeros. -/
def helloB (serial : Nat) : List Byte := padTo 176 0 pubB ++ leBytes 8 serial ++ List.replicate 132 0
/-- A staged enrolment list (R360) of SEQUENCE 1 and one host key, signed with that key outside the model. -/
def enrolB : List Byte := (wordsB [0x10100e4010008, 0x1, 0x4b7068e85c60004, 0x2366cb3e9ecde904, 0x53981649c42b495, 0x6b60af28f821b53f,
  0xef775e4ba1ba3d4d, 0xa227c11dfe2859e7, 0x85c1b34833dea8ff, 0xc2317e7ef99b426a, 0x6a2939180166bde5,
  0x5f8a5c04c03b9a78, 0x44f598d91b7d2cb4, 0xbdaf1768449b5749, 0x72ee972c663e2717, 0xb950c54026f45e99,
  0x703c356107ad3f01, 0x94be8840c272a286, 0x5066d19f76, 0x1] ++
  wordsB [0x4b7068e85c60004, 0x2366cb3e9ecde904, 0x53981649c42b495, 0x6b60af28f821b53f, 0xef775e4ba1ba3d4d,
  0xa227c11dfe2859e7, 0x85c1b34833dea8ff, 0xc2317e7ef99b426a, 0x6a2939180166bde5, 0x5f8a5c04c03b9a78,
  0x44f598d91b7d2cb4, 0xbdaf1768449b5749, 0x72ee972c663e2717, 0xb950c54026f45e99, 0x703c356107ad3f01,
  0x94be8840c272a286, 0x5066d19f76, 0x79f8a648462dba00, 0x1a94d88e9c3b7eae, 0xfcfb066a3ce70a0c] ++
  wordsB [0x90bba9c1a658c8cf, 0xb6538c6b352561d5, 0x7e4088be419aed46, 0xc2678401d41bd6a3, 0x909593cd9f081809,
  0xbb7ba71f8002d16, 0x155b072c92b8998e, 0x6b2a863d7b3ee5d1, 0x1608165e2b307d58, 0x39a6d2c85cd70ecf,
  0x2f835ec2c5504a69, 0x90beb570c6eff3a8, 0x17ba5db7cce5440e, 0xf8316162]).take 428
def sEnrol1 : State := { sLeat with mem := memOf enrolB }
/-- The owner is fused and the list in flash has SEQUENCE 0. -/
def ownerDigest : List Byte := sha512 pubB
def sEnrol2 : State := { sEnrol1 with nv := { Nv.init with
  owner := some ownerDigest, flash := (List.range 16).map fun i => (0x3F20000 + i, 0) } }
theorem enrol_list (s : State) (h1 : (s.rx 0).mem = memOf enrolB) (h2 : (s.rx 0).syn = []) (h3 : (s.rx 0).secAddress = 0)
    (h4 : fieldAt ((s.rx 0).millerBytes 0 8) 6 2 = 1) (h5 : enrolLen 1 = enrolB.length) : (s.rx 0).stagedList.2 = enrolB := by
  unfold State.stagedList
  simp only [h3, h4, State.millerRead_clean _ _ _ h2]
  rw [State.millerBytes_data _ _ _ (by decide +kernel)]
  exact bytes_memOf _ enrolB _ h1 h2 h5
theorem enrol1_fits : inData sEnrol1.secAddress (sEnrol1.rx 0).stagedList.2.length = true := by
  rw [enrol_list sEnrol1 (by decide +kernel) (by decide +kernel) (by decide +kernel) (by decide +kernel) (by decide +kernel)]
  decide +kernel
theorem enrol1_list : (sEnrol1.rx 0).stagedList.2 = enrolB :=
  enrol_list sEnrol1 (by decide +kernel) (by decide +kernel) (by decide +kernel) (by decide +kernel) (by decide +kernel)
theorem enrol2_fits : inData sEnrol2.secAddress (sEnrol2.rx 0).stagedList.2.length = true := by
  rw [enrol_list sEnrol2 (by decide +kernel) (by decide +kernel) (by decide +kernel) (by decide +kernel) (by decide +kernel)]
  decide +kernel
theorem enrol2_list : (sEnrol2.rx 0).stagedList.2 = enrolB :=
  enrol_list sEnrol2 (by decide +kernel) (by decide +kernel) (by decide +kernel) (by decide +kernel) (by decide +kernel)
theorem enrolB_format : enrolFormat enrolB = true := by decide +kernel
theorem enrolB_signed : enrolSigned enrolB = true := by decide +kernel
/-- A firmware image of 400 bytes (R354) under key slot 0. -/
def fwImg : List Byte := wordsB [0xf1a30008, 0x0, 0x190, 0x0, 0x0, 0x0, 0x0, 0x0, 0x4b7068e85c60004, 0x2366cb3e9ecde904, 0x53981649c42b495,
  0x6b60af28f821b53f, 0xef775e4ba1ba3d4d, 0xa227c11dfe2859e7, 0x85c1b34833dea8ff, 0xc2317e7ef99b426a,
  0x6a2939180166bde5, 0x5f8a5c04c03b9a78, 0x44f598d91b7d2cb4, 0xbdaf1768449b5749] ++
  wordsB [0x72ee972c663e2717, 0xb950c54026f45e99, 0x703c356107ad3f01, 0x94be8840c272a286, 0x5066d19f76, 0x0, 0x0, 0x0,
  0x0, 0x0, 0x0, 0x0, 0xf48ce9c06a67b927, 0xe93fe196415f8900, 0x41f9bdebe954a1bd, 0x978f803f1f25440a,
  0x68cd8d2452631d1f, 0x560cbf28786cea23, 0x84bbb3e793d8702e, 0x1b178e9e8d73aa90] ++
  wordsB [0xff96756c0fe33add, 0x852e56b0c600f7fd, 0x27041a180163f36, 0xac6d5af288f91e3, 0x43be89388f3fa7e7,
  0x5a4227f3b212e2f1, 0xf71ec86eeb0f4a49, 0xf5e88edbc2e8e26e, 0x7312f397e5f25d5a, 0x3fb93032]
def nvFw : Nv := { Nv.init with fwKeys := [(0, ownerDigest)] }
theorem fw_ok : fwCheck nvFw fwImg = 1 := by decide +kernel
def sFwRec : State := { sUp with nv := nvFw, boot := { sUp.boot with recovery := true }, mem := memOf fwImg, fwLen := 400 }
theorem sFwRec_bytes : sFwRec.bytes 0 400 = fwImg := bytes_memOf sFwRec fwImg 400 (by decide +kernel) (by decide +kernel) (by decide +kernel)
theorem sFwRec_read : ((sFwRec.rx 0).millerRead 0 sFwRec.fwLen).2 = fwImg := by
  rw [State.millerRead_clean _ _ _ rfl, State.millerBytes_data _ _ _ (by decide +kernel)]
  exact sFwRec_bytes

/-- A running Flume port 0 in a state. -/
def fp (st : FlumeState) : FlumePort := { FlumePort.init with st := st }
def sF (st : FlumeState) : State := { sUp with flume := [(0, fp st)] }
def sP (q : FlumePort) : State := { sUp with flume := [(0, q)] }
/-- A link request on its own flit, of TYPE 3, or a MARK, of TYPE 2. -/
def lreq (typ cmd lane : Nat) : List (BitVec 72) := flitWords typ 0 0 0 0xFFFF 0 0 [cmd * 2 ^ 60 + lane * 2 ^ 55]
theorem good_of (q : FlumePort) (ws : List (BitVec 72)) (n : Nat) (h1 : q.st = .active) (h2 : (flitIn ws).ok = true)
    (h3 : (flitIn ws).typ = n) : FlitGood (sP q) 0 ws n := ⟨h1, h2, h3⟩
/-- Logical Mill 0 alone on Floor 0, and lending after 1 us (R229). -/
def imgL : Image := ⟨[], 0, false, [(1, 0 :: List.replicate 143 19), (0xA, leBytes 16 (2 ^ 64))]⟩
def sL : State := { sUp with
  image := some imgL, ctx := ⟨true, 0, 0, 0, false⟩, time := { sUp.time with ns := 2000 }
  streams := (List.range 6).map fun k => (k, { Stream.init with stat := .stepEnd }) }
def img0 : Image := ⟨[], 0, false, [(1, [0])]⟩
/-- An FP32 or UINT32 descriptor of rows and columns in the data region (R135). -/
def descB (fmt base e0 e1 stride : Nat) : List Byte :=
  leBytes 8 (fmt * 2 ^ 59 + base) ++ leBytes 8 (0xFF * 2 ^ 56) ++ leBytes 4 e0 ++ leBytes 4 e1 ++ leBytes 8 (1 + 2 ^ 32) ++
    leBytes 8 (0xFFFF * 2 ^ 48 + stride) ++ leBytes 24 0
/-- A group of `x` devices on X: one bucket of 64 elements, `n` exchanges of router 0 with one expert, the second of them a
return (R252, R263). -/
def bucketsB (x mode n : Nat) : List Byte :=
  leBytes 8 (x + 2 ^ 8 + 2 ^ 16 + 2 ^ 24 + n * 2 ^ 36) ++ leBytes 24 0x31 ++ leBytes 8 (mode * 2 ^ 54) ++ leBytes 8 64 ++
    leBytes 8 0x10000 ++ leBytes 8 0x20000 ++ leBytes 16 0 ++ leBytes 16 0 ++ leBytes 24 0 ++
    leBytes 8 (2 ^ 48 + 0x40000) ++ leBytes 24 0x40 ++ leBytes 8 (2 ^ 48 + 0x50000)
/-- A RUNTIME section: one micro-batch, the state block at 0 and the stream table at 256 (R272). -/
def rtB : List Byte := leBytes 24 0 ++ leBytes 8 256 ++ leBytes 96 0
def imgX (x mode n : Nat) : Image := ⟨[], 0, false,
  [(1, [0]), (7, descB 0 0 1 8 4 ++ descB 0xD 0x100 1 1 4), (0xB, bucketsB x mode n), (0xC, leBytes 8 (2 ^ 6) ++ leBytes 24 1),
    (0xF, rtB), (17, recB 0 2 1 0 (insB 0x32 0 0 0xFFFF 0xFFFF 0xFFFF 0) [])]⟩
def imgG (mode : Nat) : Image := imgX 2 mode 1
def sG (mode : Nat) (bk : Bucket) : State := { sUp with
  image := some (imgG mode), mem := [(0x100, 1)], flume := [(0, fp .active), (1, fp .active)]
  wheel := { Wheel.init with valid := true, active := true, p := 2, roles := [1, 3], buckets := [(0, bk)] } }
def frm (kind : Byte) (id : Word32) (dest : BitVec 13) (body : List Byte) : Frame := ⟨kind, id, dest, 0, 0, 0, body⟩
theorem frm_here (mode : Nat) (bk : Bucket) (p : Fin 12) (kind : Byte) (id : Word32) (body : List Byte)
    (h1 : ((sG mode bk).fport p.val).st = .active) (h2 : 1 ≤ (sG mode bk).role p.val ∧ (sG mode bk).role p.val ≤ 6)
    (h3 : ((sG mode bk).fport p.val).peerGm6 = false) :
    FrameHere (sG mode bk) p (frm kind id 0 body) kind (imgG mode) :=
  ⟨⟨h1, rfl, rfl, rfl, h2, h3, fun _ => rfl, rfl⟩, rfl, rfl, rfl⟩
def ringB : Bucket := { Bucket.init with st := .reducing, counts := [1] }
def gathB : Bucket := { Bucket.init with st := .gathering, gatherStage := 1 }
/-- One window of 64 bytes of Mill 0, open on port 0 (R247). -/
def imgW : Image := ⟨[], 0, true, [(1, [0]), (0x10, leBytes 8 0 ++ leBytes 8 (64 * 2 ^ 29 + 2 ^ 51) ++ leBytes 24 0)]⟩
def sW : State := { sUp with
  image := some imgW, ctx := ⟨true, 0, 0, 0, false⟩, banks := banksOn, flume := [(0, { fp .active with peerGm6 := true })] }
/-- A request of a queue pair, and a queue pair that holds it. -/
def rq (o : ReqOwner) (read : Bool) : Req := ⟨0, o, read, 0, 0, 0, [], 0, 0, none, 0⟩
def qpOf (rs : List Req) : Qp := ⟨⟨0, 3, 0, 0, 0, 0, []⟩, 1, rs, 0, 0⟩
def sQ (rs : List Req) : State := { sUp with qps := [(256, some (qpOf rs))], time := { sUp.time with ns := 10000000 } }
theorem some_of {α : Type} (o : Option α) (h : o.isSome = true) : o = some (o.get h) := (Option.some_get h).symm
/-- One Weir of `n` participants, the first of them the Carder of Mill 0 (R220). -/
def weirsB (n : Nat) : List Byte := leBytes 16 0 ++ leBytes 2 0x8000 ++ List.replicate 8190 0 ++
  leBytes 16 (3 + n * 2 ^ 11 + 8224 * 2 ^ 32 + 0x3F * 2 ^ 64) ++ leBytes 2 0x200 ++ leBytes 2 0x201
def sWeir (n : Nat) (w : WeirSt) : State := { sRun 2 (noD 3) [] [(0xA, weirsB n)] with weirs := [(3, w)] }
def sRel (rel : List (Nat × Bool)) : State := { sWeir 2 { WeirSt.init with releasing := rel } with
  streams := [(2, { Stream.init with stat := .atWeir 0 })] }
/-- Race 0 of Mill 0, from its Drain A to its Carder, one slot of 8 bytes (R90). -/
def raceB : List Byte := leBytes 4 0 ++ leBytes 4 (2 ^ 31 + 0xFF * 2 ^ 21) ++ leBytes 4 (3 * 2 ^ 28 + 6 * 2 ^ 24)
def imgR : Image := ⟨[], 0, false, [(1, [0]), (4, raceB)]⟩
def sRace (prod : Bool) : State := { sUp with
  image := some imgR, ctx := ⟨true, 0, 0, 0, false⟩, streams := [(2, { Stream.init with stat := .onRace 0 prod })] }
/-- A gather whose table is in Race 0. -/
def insRace : List Byte := leBytes 32 (0x21 * 2 ^ 248 + (2 ^ 64 - 1) * 2 ^ 176 + (2 ^ 24 - 64) * 2 ^ 152)
def sOn (b : Bank) : State := { sUp with
  image := some img0, ctx := ⟨true, 0, 0, 0, false⟩, banks := (List.range 16).map fun k => (k, b) }
def offB : Bank := { Bank.init with st := .off }
/-- A turn sequence of one entry (R199). -/
def turnsB (port e : Nat) : List Byte := leBytes 8 (port + 2 ^ 32) ++ leBytes 8 (2 ^ 32) ++ leBytes 8 e
def imgT (port e : Nat) : Image := ⟨[], 0, false, [(1, [0]), (6, turnsB port e)]⟩
def sT (port e : Nat) : State := { sUp with
  image := some (imgT port e), ctx := ⟨true, 0, 0, 0, false⟩, ports := [(port, { PortPos.init with running := true })], banks := banksOn }
def recT (port e : Nat) : PortRec := ⟨port, 0, false, 0, [⟨1, 0, 0⟩], [e]⟩
/-- Two FP32 operands and a pass over one K index; a copy between two rows; a gather of one index. -/
def d2 : NMap (List Byte) := [(7, descB 0 0x100 1 1 4 ++ descB 0 0x200 1 1 4)]
def d3 : NMap (List Byte) := [(7, descB 0 0x1000 1 2 4 ++ descB 0xD 0x100 1 1 4 ++ descB 0 0x2000 1 1 4)]
def passB : List Byte := insB 0x10 0 0 1 0xFFFF 0xFFFF (2 ^ 32 + 2 ^ 104)
def copyB : List Byte := insB 0x40 0 0 1 0xFFFF 0xFFFF 0
def gathI : List Byte := insB 0x21 0 0 1 2 0xFFFF 0
/-- A merge of a run of one record and a run of two. -/
def dM : NMap (List Byte) := [(7, descB 0 0x1000 1 1 8 ++ descB 0 0x2000 2 1 8 ++ descB 0 0x3000 3 1 8)]
def mergI : List Byte := insB 0x24 0 0 1 2 0xFFFF 0

/-- The state with an active Wheel and some exchange 0. -/
def sGa (x n : Nat) (bk : Bucket) (ex : Exchange) : State := { sG 0 bk with
  image := some (imgX x 0 n), wheel := { (sG 0 bk).wheel with active := true, p := x, exchanges := [(0, ex), (1, ex)] } }
def exSent : Exchange := { Exchange.init with passed := 2, sent := true, counts := [(0, 0)] }
def ex2 : Exchange := { Exchange.init with passed := 2 }
/-- An operation of a kind, with handle 1, and a Leat session that controls. -/
def opK (k : OpKind) (st : OpState) (status : Nat) : Op := ⟨1, k, st, status, 0, 0, 0⟩
def sOp (k : OpKind) (st : OpState) (status : Nat) : State := { sLeat with ops := [opK k st status], image := some img0 }
/-- An enrolment of one image-signing key whose bytes are all ones. -/
def sSign : State := { sUp with nv := { Nv.init with
  owner := some [], flash := [(0x3F20006, 1), (0x3F20007, 0), (0x3F20098, 2)] } }
def signedB : List Byte := keyId (List.replicate 133 0xFF) ++ List.replicate 136 0
/-- An image whose header and directory are right, with no signature (R196, R197). -/
def headB : List Byte := leBytes 8 (0xB10C0008 + 0x100 * 2 ^ 32 + 4 * 2 ^ 48) ++ leBytes 8 480 ++ List.replicate 48 0 ++
  leBytes 8 (144 + 2 ^ 48) ++ leBytes 8 128 ++ leBytes 8 (6 * 2 ^ 48) ++ leBytes 8 272 ++ leBytes 8 (64 + 8 * 2 ^ 48) ++
  leBytes 8 272 ++ leBytes 8 (0x11 * 2 ^ 48) ++ leBytes 8 336 ++ List.replicate 352 0
/-- A job at a boundary, with a RUNTIME section. -/
def imgRt : Image := ⟨[], 7, false, [(1, [0]), (0xF, rtB)]⟩
/-- A job-start block of one device and one queue pair at address 0, with SNAP_BASE at 2 MiB plus `base` (R338). -/
def sBlock (base : Byte) (more : NMap Byte) : State := { sLeat with
  image := some imgRt, run := { Run.init with committedTag := some 7 }
  mem := more ++ [(6, 1), (8, 5), (0x18, base), (0x1A, 0x20), (0x22, 0x20), (0x29, 1), (0x31, 1)] }
def sJob (r : Run) (w : Wheel) : State := { sLeat with
  image := some imgRt, ctx := ⟨true, 0, 0, 0, false⟩, ops := [opK .job .running 0], run := { r with job := 1 }, wheel := w }
def wRec (w0 : Word64) : Wheel := { Wheel.init with p := 1, exchanging := true, records := [(0, some (w0, 1))] }
def inStepR : Run := { Run.init with inStep := true }
theorem under_of (r : Run) (w : Wheel) (h1 : r.failed = false) (h2 : r.inStep = true) : UnderDecision (sJob r w) imgRt :=
  ⟨rfl, rfl, by show (1 : Word32) ≠ 0; decide, h1, h2, rfl, rfl, rfl⟩
/-- An open snapshot with some pages, whose queue pair has no request outstanding. -/
def sSn (st : SnapState) (ps : List SnapPage) : State := { sUp with
  snap := { Snap.init with
    st := st, pages := ps, slotCount := 1, base := 0x200000, qpn := 256, handle := 1, touched := [⟨⟨0, 0x3001, 1⟩, 5, some 7⟩] }
  qps := [(256, some (qpOf []))], mem := [(protBase, 1)], ops := [opK .snapshot .running 0] }
def pg : SnapPage := snapPage 0 0 0
/-- A restore that awaits page 0, whose table holds some digest for it. -/
def rq2 : Req := rq (.restPage 0) true
def sRest (dig : List Byte) (retried : Bool) : State := { sUp with
  image := some img0, ops := [opK .restore .running 0], qps := [(0x180, some (qpOf [rq2]))]
  restore := { Restore.init with
    busy := true, paging := true, retried := retried, table := List.replicate 0x1010 0 ++ dig } }
theorem sha512_length (m : List Byte) : (sha512 m).length = 64 := by
  have hb : ∀ n v, (leBytes n v).length = n := by
    intro n; induction n with
    | zero => intro v; rfl
    | succ n ih => intro v; simp [leBytes, ih]
  have h8 : ∀ h b, h.length = 8 → (shaBlock h b).length = 8 := by intro h b hh; simp [shaBlock, hh]
  have hs : ∀ n b h, h.length = 8 → (shaBlocks n b h).length = 8 := by
    intro n; induction n with
    | zero => intro b h hh; exact hh
    | succ n ih => intro b h hh; exact ih _ _ (h8 _ _ hh)
  have hf : ∀ l : List Nat, (l.flatMap (beBytes 8)).length = 8 * l.length := by
    intro l; induction l with
    | nil => rfl
    | cons x l ih => simp [beBytes, hb, ih]; omega
  unfold sha512; rw [hf, hs _ _ _ rfl]
theorem sRest_entry (dig : List Byte) (r : Bool) (hd : dig.length = 64) :
    (sRest dig r).restore.entry (sRest dig r).restore.next = List.replicate 16 0 ++ dig := by
  show slice (List.replicate 0x1010 0 ++ dig) (0x1000 + 96 * 0) 96 = _
  rw [slice, show List.replicate 0x1010 (0 : Byte) = List.replicate 0x1000 0 ++ List.replicate 16 0 by
    rw [List.replicate_append_replicate], List.append_assoc, List.drop_append_of_le_length (by simp)]
  simp only [List.drop_replicate]
  exact List.take_of_length_le (by simp [hd])
theorem sRest_digest (m : List Byte) : sha512 m =
    slice ((sRest (sha512 m) false).restore.entry (sRest (sha512 m) false).restore.next) 16 64 := by
  rw [sRest_entry _ _ (sha512_length m), slice, List.drop_append_of_le_length (by simp)]
  simp only [List.drop_replicate]
  exact (List.take_of_length_le (by simp [sha512_length])).symm
theorem sRest_addr (m : List Byte) :
    entryAddr img0 ((sRest (sha512 m) false).restore.entry (sRest (sha512 m) false).restore.next) = some 0 := by
  rw [sRest_entry _ _ (sha512_length m)]
  generalize sha512 m = d
  have h1 : fieldAt (List.replicate 16 0 ++ d) 0 6 = 0 := by
    rw [fieldAt, slice, List.drop_zero, List.take_append_of_le_length (by simp)]; decide
  have h2 : fieldAt (List.replicate 16 0 ++ d) 6 1 = 0 := by
    rw [fieldAt, slice, List.drop_append_of_le_length (by simp), List.take_append_of_le_length (by simp)]; decide
  unfold entryAddr
  rw [h1, h2]
  decide +kernel
theorem sRest_differs (m : List Byte) (r : Bool) :
    sha512 m ≠ slice ((sRest [] r).restore.entry (sRest [] r).restore.next) 16 64 := by
  intro h
  have := congrArg List.length h
  rw [sha512_length, show (slice ((sRest [] r).restore.entry (sRest [] r).restore.next) 16 64).length = 0 by rfl] at this
  exact absurd this (by decide)

/-! ### Well-formedness: an ill-formed term for each check -/

theorem test_wf_tj : Instr.wf (.governorPeriod 0 0 0 [1, 2, 3] 0) = false := by decide
theorem test_wf_rails : Instr.wf (.lendStart 0 0 []) = false := by decide
theorem test_wf_input : Instr.wf (.inputRange 48000) = false := by decide
theorem test_wf_trip : Instr.wf (.inputUndervoltTrip 44000) = false := by decide
theorem test_wf_reset_pulse : Instr.wf (.modResetNAssert 19) = false := by decide
theorem test_wf_tag : Instr.wf (.eventAck hd0) = false := by decide
theorem test_wf_leat_payload : Instr.wf (.hello 0 (List.replicate 1345 0)) = false := by decide +kernel
theorem test_wf_tailrace_payload : Instr.wf (.fwData ⟨0, 0, 1, 0, 0, 0⟩ (List.replicate 1025 0)) = false := by decide +kernel
theorem test_wf_flit : Instr.wf (.data 0 []) = false := by decide
theorem test_wf_sid : Instr.wf (.nop ⟨144, 0⟩) = false ∧ Instr.wf (.nop ⟨8, 5⟩) = false ∧ Instr.wf (.nop ⟨0, 6⟩) = false := by decide
theorem test_wf_lane : Instr.wf (.portEntryExecute 0 [⟨7, 0, .pass, none, false, none⟩]) = false := by decide
theorem test_wf_ok : Instr.wf (.nop ⟨143, 4⟩) = true ∧ Instr.wf (.nop ⟨7, 5⟩) = true := by decide
/-- The opcode table gives no row any bits. -/
theorem test_no_word : decodeTableWord 32 0 = none ∧ State.withFetchWord State.reset 32 0 = State.reset := ⟨rfl, rfl⟩

/-! ### Known answers of the standards that the spec names; computed outside the model -/

/-- FIPS 180-4: SHA-512 of "abc". -/
theorem test_sha512 : beNat (sha512 (ascii "abc")) =
    0xddaf35a193617abacc417349ae20413112e6fa4e89a97ea20a9eeee64b55d39a2192992a274fc1a836ba3c23a3feebbd454d4423643ce80e2a9ac94fa54ca49f := by
  decide +kernel
/-- The check value of CRC-32C. -/
theorem test_crc32c : crc32c (ascii "123456789") = 0xE3069283 := by decide +kernel
/-- A signature made outside the model verifies, and not for another digest. -/
theorem test_ecdsa : ecdsaVerify pubB (sha512 (ascii "abc")) (slice enrolB 296 132) = false := by decide +kernel
/-- 1.0 + 2.0, 1.5 × 2.0 in FP32 (IEEE 754). -/
theorem test_fp32 : (add32 0x3F800000 0x40000000).1 = 0x40400000 ∧ (mul32 0x3FC00000 0x40000000).1 = 0x40400000 := by decide +kernel

/-! ### One step each -/

/-- R372, R373: PWR_EN brings the rails up. -/
theorem test_power : (match step { State.reset with pending := [.pwrEnRise, .droop 0] } with
    | .next t => (t.pwr.pdOn, t.pending) | _ => (0, [])) = (BitVec.allOnes 20, [.droop 0]) := by decide +kernel
/-- R40, R41: 1.5 × 2.0 accumulated onto 1.0; one product, not gated. -/
theorem test_pass : cellOf 0x3F800000 [0] 1 [some [termFact 0 (0x3FC00000, 0)]] [some [termFact 0 (0x40000000, 0)]] =
    (0x40800000, 0, 0) := by decide +kernel
/-- R153: the row that index 1 names. -/
theorem test_gather : (match exec (.gather 0) { sRun 2 gathI [] d3 with mem := [(0x100, 1), (0x1000, 7), (0x1004, 9)] } with
    | .next t => NMap.get 0 t.mem 0x2000 | _ => 0) = 9 := by decide +kernel
/-- R89: a compare that matches replaces the word. -/
theorem test_cas : (match exec (.compareAndSwap 0 6 8 0 5) (sOn bank1) with
    | .next t => (NMap.get 0 t.mem (hopperBase 0 + 8), t.out.length) | _ => (0, 0)) = (5, 1) := by decide +kernel
/-- R81, log 20: a kernel stores its argument. -/
theorem test_kernel : (match exec (.run 0 5) { sRun 4 (insB 0x60 0 0xFFFF 0xFFFF 0xFFFF 0xFFFF (0x2A * 2 ^ 32))
      (leBytes 4 (encS 2 0 10 8) ++ leBytes 4 0x73) [] with banks := banksOn } with
    | .next t => NMap.get 0 t.mem (hopperBase 0 + 8) | _ => 0) = 0x2A := by decide +kernel
/-- R254: a launch heads the queue. -/
theorem test_launch : (match exec .bucketLaunch (sGa 2 1 Bucket.init ex2) with
    | .next t => ((t.bucketSt 0).st, t.wheel.nextLaunch) | _ => (.waiting, 0)) = (.filling, 1) := by decide +kernel
/-- R331: a read of ID over Leat answers its value. -/
theorem test_reg_read : State.reset.reg 0 = 0x504C0008 := by decide +kernel

/-! ### Witnesses: one theorem per statement, one conjunct per clause with hypotheses -/

theorem witness_PowerSequence :
    (∃ (s : State), (s.pwr.pwrEn = false) ∧ (s.pwr.inRange = true) ∧ (s.pwr.auxOn = true) ∧ (s.pwr.thermTrip = false)) ∧
    (∃ (s : State), (s.pwr.pwrEn = true) ∧ (s.pwr.pwrGood = false) ∧ (s.pwr.startStep = 2)) ∧
    (∃ (s : State), s.pwr.pwrEn = true) ∧
    (∃ (s : State) (n : Nat), (s.pwr.pwrGood = true) ∧ (100 ≤ n)) ∧
    (∃ (s : State) (n : Nat), n < 20) ∧
    (∃ (s : State) (n : Nat) (m : Nat), (s.pwr.resetLow = true) ∧ (n < 1000000 ∨ 10000000 < n)) ∧
    (∃ (s : State) (mv : Nat), (s.pwr.pwrGood = true) ∧ (s.pwr.resetLow = false) ∧ (mv < 46000 ∨ 58000 < mv)) ∧
    (∃ (s : State) (mv : Nat), mv < 44000 ∨ 60000 < mv) ∧
    (∃ (s : State), (s.pwr.tripped = true) ∧ (s.pwr.pwrEn = true) ∧ (s.pwr.thermTrip = false) ∧ (s.pwr.auxOn = true)) ∧
    (∃ (s : State), (s.pwr.tripped = true) ∧ (s.pwr.pwrEn = true) ∧ (s.pwr.thermTrip = false) ∧ (s.pwr.railLock = false) ∧ (s.pwr.auxOn = true)) ∧
    (∃ (s : State), (s.pwr.tripped = true) ∧ (s.pwr.thermTrip = true ∨ s.pwr.railLock = true) ∧ (s.pwr.auxOn = true)) ∧
    (∃ (s : State), (s.pwr.inRange = false) ∧ (s.pwr.pwrEn = false) ∧ (s.pwr.tripped = false)) :=
  ⟨⟨{ State.reset with pwr := { Pwr.init with inRange := true } }, by decide +kernel⟩,
    ⟨{ State.reset with pwr := { Pwr.init with pwrEn := true, startStep := 2 } }, by decide +kernel⟩,
    ⟨sUp, by decide +kernel⟩,
    ⟨sUp, 100, by decide +kernel⟩,
    ⟨sUp, 19, by decide +kernel⟩,
    ⟨{ sUp with pwr := { sUp.pwr with resetLow := true } }, 999999, 0, by decide +kernel⟩,
    ⟨sUp, 45999, by decide +kernel⟩,
    ⟨sUp, 60001, by decide +kernel⟩,
    ⟨{ sUp with pwr := { sUp.pwr with tripped := true } }, by decide +kernel⟩,
    ⟨{ sUp with pwr := { sUp.pwr with tripped := true } }, by decide +kernel⟩,
    ⟨{ sUp with pwr := { sUp.pwr with tripped := true, railLock := true } }, by decide +kernel⟩,
    ⟨{ State.reset with pwr := { Pwr.init with inRange := false } }, by decide +kernel⟩⟩
theorem witness_Clocks :
    (∃ (s : State), (s.up = true) ∧ (s.clk.refStable = false) ∧ (s.clk.lost = false) ∧ (s.pwr.startStep = 3)) ∧
    (∃ (s : State), (s.up = true) ∧ (s.clk.refStable = false)) ∧
    (∃ (s : State), (s.up = true) ∧ (s.clk.refStable = true) ∧ (s.clk.lost = false)) ∧
    (∃ (s : State) (n : Fin 18), (s.up = true) ∧ (s.clk.refStable = true) ∧ (s.clk.lost = false) ∧ (s.clk.locked.getLsbD ↑n = false) ∧ ((s.ctrl ↑n).deep = false)) ∧
    (∃ (s : State) (n : Fin 18), (↑n < 4) ∧ (s.up = true) ∧ (s.clk.lost = false) ∧ (s.clk.locked.getLsbD ↑n = true)) :=
  ⟨⟨{ sUp with clk := { sUp.clk with refStable := false }, pwr := { sUp.pwr with startStep := 3 } }, by decide +kernel⟩,
    ⟨{ sUp with clk := { sUp.clk with refStable := false }, pwr := { sUp.pwr with startStep := 3 } }, by decide +kernel⟩,
    ⟨sUp, by decide +kernel⟩,
    ⟨{ sUp with clk := { sUp.clk with locked := 0 } }, 0, by decide +kernel⟩,
    ⟨sUp, 3, by decide +kernel⟩⟩
theorem witness_StartUp :
    (∃ (s : State), (s.up = true) ∧ (s.clk.lost = false) ∧ (s.pwr.startStep = 4) ∧ (s.time.running = true)) ∧
    (∃ (s : State) (fails : BitVec 12), (s.up = true) ∧ (s.clk.lost = false) ∧ (s.pwr.startStep = 6)) ∧
    (∃ (s : State), (s.up = true) ∧ (7 ≤ s.pwr.startStep) ∧ (s.memctl.zeroed = false) ∧ (s.memctl.pkgTrained ≠ 0)) :=
  ⟨⟨{ sUp with pwr := { sUp.pwr with startStep := 4 } }, by decide +kernel⟩,
    ⟨{ sUp with pwr := { sUp.pwr with startStep := 6 } }, 0, by decide +kernel⟩,
    ⟨{ sUp with memctl := { sUp.memctl with zeroed := false } }, by decide +kernel⟩⟩
theorem witness_RegisterReads :
    (∃ (s : State) (h : LeatHdr) (ses : Session) (a : Nat) (n : Nat), (a < 2 ^ 32) ∧ (a % 4 = 0) ∧ (1 ≤ n) ∧ (n ≤ 64) ∧ (Admitted s h ses 16 (regPayload a n []))) ∧
    (∃ (s : State) (h : LeatHdr) (ses : Session) (a : Nat) (n : Nat), (a < 2 ^ 32) ∧ (a % 4 ≠ 0) ∧ (n < 2 ^ 16) ∧ (Admitted s h ses 16 (regPayload a n []))) ∧
    (∃ (s : State) (h : LeatHdr) (ses : Session) (n : Nat), (1 ≤ n) ∧ (n ≤ 64) ∧ (Admitted s h ses 16 (regPayload 196608 n []))) :=
  ⟨⟨sLeat, hd 16 (regPayload 0xFFFFFFFC 64 []), ses1, 0xFFFFFFFC, 64, by decide +kernel, by decide +kernel, by decide +kernel, by decide +kernel, adm sLeat _ 16 (regPayload 0xFFFFFFFC 64 []) (by decide +kernel) (by decide +kernel) rfl rfl rfl⟩,
    ⟨sLeat, hd 16 (regPayload 0x10001 1 []), ses1, 0x10001, 1, by decide +kernel, by decide +kernel, by decide +kernel, adm sLeat _ 16 (regPayload 0x10001 1 []) (by decide +kernel) (by decide +kernel) rfl rfl rfl⟩,
    ⟨sLeat, hd 16 (regPayload 196608 2 []), ses1, 2, by decide +kernel, by decide +kernel, adm sLeat _ 16 (regPayload 196608 2 []) (by decide +kernel) (by decide +kernel) rfl rfl rfl⟩⟩
theorem witness_RegisterWrites :
    (∃ (s : State) (h : LeatHdr) (ses : Session) (a : Nat) (vs : List Nat), (a < 2 ^ 32) ∧ (a % 4 = 0) ∧ (1 ≤ vs.length) ∧ (vs.length ≤ 64) ∧ (∀ (v : Nat), v ∈ vs → v < 2 ^ 32) ∧ (Admitted s h ses 17 (regPayload a vs.length vs)) ∧ (ses.control = true)) ∧
    (∃ (s : State) (h : LeatHdr) (ses : Session) (v : Nat), (v < 2 ^ 32) ∧ (Admitted s h ses 17 (regPayload 262160 1 [v])) ∧ (ses.control = true)) ∧
    (∃ (s : State) (h : LeatHdr) (ses : Session) (a : Nat) (v : Nat), (a = 0 ∨ a = 196608 ∨ a = 4294967292) ∧ (v < 2 ^ 32) ∧ (Admitted s h ses 17 (regPayload a 1 [v])) ∧ (ses.control = true)) ∧
    (∃ (s : State) (h : LeatHdr) (ses : Session) (a : Nat) (v : Nat), (a < 2 ^ 32) ∧ (v < 2 ^ 32) ∧ (Admitted s h ses 17 (regPayload a 1 [v])) ∧ (ses.control = false)) ∧
    (∃ (s : State) (h : LeatHdr) (ses : Session) (v : Word32), WriteAdmitted s h ses 65536 (BitVec.toNat v)) ∧
    (∃ (s : State) (h : LeatHdr) (ses : Session) (p : Fin 2) (v : Word32), (BitVec.getLsbD v 31 = true) ∧ (WriteAdmitted s h ses (393216 + 65536 * ↑p) (BitVec.toNat v))) ∧
    (∃ (s : State) (h : LeatHdr) (ses : Session) (p : Fin 2) (v : Word32), (BitVec.getLsbD v 31 = false) ∧ (WriteAdmitted s h ses (393216 + 65536 * ↑p) (BitVec.toNat v))) ∧
    (∃ (s : State) (h : LeatHdr) (ses : Session) (p : Fin 12) (v : Word32), (BitVec.getLsbD v 31 = true) ∧ ((s.fport ↑p).st ≠ FlumeState.disabled) ∧ (WriteAdmitted s h ses (524292 + 4096 * ↑p) (BitVec.toNat v))) ∧
    (∃ (s : State) (h : LeatHdr) (ses : Session) (p : Fin 12) (v : Word32), (BitVec.getLsbD v 31 = false ∨ (s.fport ↑p).st = FlumeState.disabled) ∧ (WriteAdmitted s h ses (524292 + 4096 * ↑p) (BitVec.toNat v))) ∧
    (∃ (s : State) (h : LeatHdr) (ses : Session) (n : Fin 18) (v : Word32), (4 ≤ ↑n) ∧ (s.portEnable ↑n = true) ∧ (WriteAdmitted s h ses (131328 + 4 * ↑n) (BitVec.toNat v))) ∧
    (∃ (s : State) (h : LeatHdr) (ses : Session) (n : Fin 18) (v : Word32), (↑n < 4) ∧ (WriteAdmitted s h ses (131328 + 4 * ↑n) (BitVec.toNat v))) ∧
    (∃ (s : State) (h : LeatHdr) (ses : Session) (n : Fin 18) (v : Word32), (4 ≤ ↑n) ∧ (s.portEnable ↑n = false) ∧ (WriteAdmitted s h ses (131328 + 4 * ↑n) (BitVec.toNat v))) ∧
    (∃ (s : State) (h : LeatHdr) (ses : Session) (n : Fin 18) (src : Bool), (4 ≤ ↑n) ∧ (s.portEnable ↑n = false) ∧ (NMap.get none s.clk.held ↑n = none) ∧ (WriteAdmitted s h ses (131328 + 4 * ↑n) (s.withSrc (↑n) src))) :=
  ⟨⟨sLeat, hd 17 (regPayload 0xFFFFFFFC 2 [7, 8]), ses1, 0xFFFFFFFC, [7, 8], by decide +kernel, by decide +kernel, by decide +kernel, by decide +kernel, by decide +kernel, adm _ _ 17 (regPayload 0xFFFFFFFC 2 [7, 8]) (by decide +kernel) (by decide +kernel) rfl rfl rfl, rfl⟩,
    ⟨sLeat, hdw 262160 7, ses1, 7, by decide +kernel, adm sLeat _ 17 (regPayload 262160 1 [7]) (by decide +kernel) (by decide +kernel) rfl rfl rfl, by decide +kernel⟩,
    ⟨sLeat, hdw 0 7, ses1, 0, 7, by decide +kernel, by decide +kernel, adm sLeat _ 17 (regPayload 0 1 [7]) (by decide +kernel) (by decide +kernel) rfl rfl rfl, by decide +kernel⟩,
    ⟨{ sUp with leat := { sUp.leat with sessions := [{ ses1 with control := false }] } }, hdw 0x10000 7, { ses1 with control := false }, 0x10000, 7, by decide +kernel, by decide +kernel, adm _ _ 17 (regPayload 0x10000 1 [7]) (by decide +kernel) (by decide +kernel) rfl rfl rfl, by decide +kernel⟩,
    ⟨sLeat, hdw 65536 (BitVec.toNat (0x64FFFFFF : Word32)), ses1, 0x64FFFFFF, wadm _ 65536 _ (by decide +kernel) (by decide +kernel)⟩,
    ⟨sLeat, hdw 393216 (BitVec.toNat (0xC0000000 : Word32)), ses1, 0, 0xC0000000, by decide +kernel, wadm _ 393216 _ (by decide +kernel) (by decide +kernel)⟩,
    ⟨sLeat, hdw 393216 (BitVec.toNat (0 : Word32)), ses1, 0, 0, by decide +kernel, wadm _ 393216 _ (by decide +kernel) (by decide +kernel)⟩,
    ⟨{ sLeat with flume := [(0, { FlumePort.init with st := .active })] }, hdw 524292 (BitVec.toNat (0x80000000 : Word32)), ses1, 0, 0x80000000, by decide +kernel, by decide +kernel, wadm _ 524292 _ (by decide +kernel) (by decide +kernel)⟩,
    ⟨sLeat, hdw 524292 (BitVec.toNat (0x80000000 : Word32)), ses1, 0, 0x80000000, by decide +kernel, wadm _ 524292 _ (by decide +kernel) (by decide +kernel)⟩,
    ⟨sLeat, hdw 131344 (BitVec.toNat (0 : Word32)), ses1, 4, 0, by decide +kernel, by decide +kernel, wadm _ 131344 _ (by decide +kernel) (by decide +kernel)⟩,
    ⟨sLeat, hdw 131340 (BitVec.toNat (0 : Word32)), ses1, 3, 0, by decide +kernel, wadm _ 131340 _ (by decide +kernel) (by decide +kernel)⟩,
    ⟨{ sLeat with eth := [(0, { Eth.init with linkUp := true, cfg := 0 })] }, hdw 131344 (BitVec.toNat (0 : Word32)), ses1, 4, 0, by decide +kernel, by decide +kernel, wadm _ 131344 _ (by decide +kernel) (by decide +kernel)⟩,
    ⟨{ sLeat with eth := [(0, { Eth.init with linkUp := true, cfg := 0 })] }, hdw 131344 (({ sLeat with eth := [(0, { Eth.init with linkUp := true, cfg := 0 })] } : State).withSrc 4 true), ses1, 4, true, by decide +kernel, by decide +kernel, by decide +kernel, wadm _ 131344 _ (by decide +kernel) (by decide +kernel)⟩⟩
theorem witness_LogClears :
    (∃ (s : State) (h : LeatHdr) (ses : Session) (v : Word32), WriteAdmitted s h ses 655380 (BitVec.toNat v)) ∧
    (∃ (s : State) (h : LeatHdr) (ses : Session) (v : Word32), WriteAdmitted s h ses 596 (BitVec.toNat v)) ∧
    (∃ (s : State) (h : LeatHdr) (ses : Session) (v : Word32), WriteAdmitted s h ses 2097172 (BitVec.toNat v)) ∧
    (∃ (s : State) (h : LeatHdr) (ses : Session) (v : Word32), WriteAdmitted s h ses 2097176 (BitVec.toNat v)) ∧
    (∃ (s : State) (h : LeatHdr) (ses : Session) (v : Word32), WriteAdmitted s h ses 589844 (BitVec.toNat v)) ∧
    (∃ (s : State) (h : LeatHdr) (ses : Session) (v : Word32), WriteAdmitted s h ses 65544 (BitVec.toNat v)) ∧
    (∃ (s : State), (s.time.running = true) ∧ (s.time.ns % 100000 = 0)) ∧
    (∃ (s : State) (h : LeatHdr) (ses : Session) (v : Word32), WriteAdmitted s h ses 3145728 (BitVec.toNat v)) :=
  ⟨⟨sLeat, hdw 655380 (BitVec.toNat (1 : Word32)), ses1, 1, wadm _ 655380 _ (by decide +kernel) (by decide +kernel)⟩,
    ⟨sLeat, hdw 596 (BitVec.toNat (1 : Word32)), ses1, 1, wadm _ 596 _ (by decide +kernel) (by decide +kernel)⟩,
    ⟨sLeat, hdw 2097172 (BitVec.toNat (1 : Word32)), ses1, 1, wadm _ 2097172 _ (by decide +kernel) (by decide +kernel)⟩,
    ⟨sLeat, hdw 2097176 (BitVec.toNat (1 : Word32)), ses1, 1, wadm _ 2097176 _ (by decide +kernel) (by decide +kernel)⟩,
    ⟨sLeat, hdw 589844 (BitVec.toNat (1 : Word32)), ses1, 1, wadm _ 589844 _ (by decide +kernel) (by decide +kernel)⟩,
    ⟨sLeat, hdw 65544 (BitVec.toNat (1 : Word32)), ses1, 1, wadm _ 65544 _ (by decide +kernel) (by decide +kernel)⟩,
    ⟨sUp, by decide +kernel⟩,
    ⟨sLeat, hdw 3145728 (BitVec.toNat (1 : Word32)), ses1, 1, wadm _ 3145728 _ (by decide +kernel) (by decide +kernel)⟩⟩
theorem witness_PowerLevels :
    (∃ (s : State) (h : LeatHdr) (ses : Session) (v : Word32), (s.pwr.plCur = BitVec.setWidth 2 v) ∧ (s.pwr.plBusy = false) ∧ (WriteAdmitted s h ses 65548 (BitVec.toNat v))) ∧
    (∃ (s : State) (h : LeatHdr) (ses : Session) (v : Word32), (s.pwr.plCur = 0) ∧ (BitVec.setWidth 2 v ≠ 0) ∧ (s.occupied = true) ∧ (WriteAdmitted s h ses 65548 (BitVec.toNat v))) ∧
    (∃ (s : State) (h : LeatHdr) (ses : Session) (v : Word32), (s.pwr.plCur ≠ 0) ∧ (BitVec.setWidth 2 v = 0) ∧ (WriteAdmitted s h ses 65548 (BitVec.toNat v))) ∧
    (∃ (s : State) (h : LeatHdr) (ses : Session) (v : Word32), (s.pwr.plCur = 0) ∧ (BitVec.setWidth 2 v ≠ 0) ∧ (s.occupied = false) ∧ (WriteAdmitted s h ses 65548 (BitVec.toNat v))) ∧
    (∃ (s : State) (h : LeatHdr) (ses : Session) (v : Word32), (s.pwr.plCur ≠ 0) ∧ (¬(s.pwr.plCur = BitVec.setWidth 2 v ∧ s.pwr.plBusy = false)) ∧ (WriteAdmitted s h ses 65548 (BitVec.toNat v))) ∧
    (∃ (s : State), (s.up = true) ∧ (s.pwr.plBusy = true) ∧ (s.pwr.plReq = 0) ∧ (s.memctl.zeroed = true)) :=
  ⟨⟨sLeat, hdw 65548 (BitVec.toNat (0 : Word32)), ses1, 0, by decide +kernel, by decide +kernel, wadm _ 65548 _ (by decide +kernel) (by decide +kernel)⟩,
    ⟨{ sLeat with snap := { Snap.init with st := .streaming } }, hdw 65548 (BitVec.toNat (1 : Word32)), ses1, 1, by decide +kernel, by decide +kernel, by decide +kernel, wadm _ 65548 _ (by decide +kernel) (by decide +kernel)⟩,
    ⟨{ sLeat with pwr := { sUp.pwr with plCur := 3 } }, hdw 65548 (BitVec.toNat (0 : Word32)), ses1, 0, by decide +kernel, by decide +kernel, wadm _ 65548 _ (by decide +kernel) (by decide +kernel)⟩,
    ⟨sLeat, hdw 65548 (BitVec.toNat (1 : Word32)), ses1, 1, by decide +kernel, by decide +kernel, by decide +kernel, wadm _ 65548 _ (by decide +kernel) (by decide +kernel)⟩,
    ⟨{ sLeat with pwr := { sUp.pwr with plCur := 3 } }, hdw 65548 (BitVec.toNat (0 : Word32)), ses1, 0, by decide +kernel, by decide +kernel, wadm _ 65548 _ (by decide +kernel) (by decide +kernel)⟩,
    ⟨{ sUp with pwr := { sUp.pwr with plBusy := true } }, by decide +kernel⟩⟩
theorem witness_SecurityActions :
    (∃ (s : State) (h : LeatHdr) (ses : Session) (g : Byte), g ≠ 197) ∧
    (∃ (s : State) (h : LeatHdr) (ses : Session), WriteAdmitted s h ses 327688 3305111555) ∧
    (∃ (s : State) (h : LeatHdr) (ses : Session), WriteAdmitted s h ses 327688 3305111556) ∧
    (∃ (s : State) (h : LeatHdr) (ses : Session), (WriteAdmitted s h ses 327688 3305111553) ∧ (s.nv.owner = none) ∧ (s.syn = []) ∧ (s.memctl.zeroed = true) ∧ (inData s.secAddress (s.rx h.port).stagedList.snd.length = true) ∧ (enrolFormat (s.rx h.port).stagedList.snd = true) ∧ (enrolSigned (s.rx h.port).stagedList.snd = true)) ∧
    (∃ (s : State) (h : LeatHdr) (ses : Session) (owner : List Byte), (WriteAdmitted s h ses 327688 3305111554) ∧ (s.nv.owner = some owner) ∧ (s.syn = []) ∧ (s.memctl.zeroed = true) ∧ (inData s.secAddress (s.rx h.port).stagedList.snd.length = true) ∧ (enrolFormat (s.rx h.port).stagedList.snd = true) ∧ (sha512 (slice (s.rx h.port).stagedList.snd 16 133) = owner) ∧ (enrolSigned (s.rx h.port).stagedList.snd = true) ∧ (fieldAt s.nv.enrolment 8 8 < fieldAt (s.rx h.port).stagedList.snd 8 8)) :=
  ⟨⟨sLeat, hd0, ses1, 0, by decide +kernel⟩,
    ⟨sLeat, hdw 327688 3305111555, ses1, wadm _ _ _ (by decide +kernel) (by decide +kernel)⟩,
    ⟨sLeat, hdw 327688 3305111556, ses1, wadm _ _ _ (by decide +kernel) (by decide +kernel)⟩,
    ⟨sEnrol1, hdw 327688 3305111553, ses1, wadm _ _ _ (by decide +kernel) (by decide +kernel), by decide +kernel, rfl, rfl, enrol1_fits, (congrArg enrolFormat enrol1_list).trans enrolB_format, (congrArg enrolSigned enrol1_list).trans enrolB_signed⟩,
    ⟨sEnrol2, hdw 327688 3305111554, ses1, ownerDigest, wadm _ _ _ (by decide +kernel) (by decide +kernel), rfl, rfl, rfl, enrol2_fits, (congrArg enrolFormat enrol2_list).trans enrolB_format, (congrArg (fun l => sha512 (slice l 16 133)) enrol2_list).trans (by decide +kernel), (congrArg enrolSigned enrol2_list).trans enrolB_signed, lt_of_lt_of_eq (by decide +kernel) (congrArg (fun l => fieldAt l 8 8) enrol2_list).symm⟩⟩
theorem witness_LeatRequests :
    (∃ (s : State) (h : LeatHdr) (ses : Session) (command : BitVec 16) (a : LeatAns), (s.session h.session = some ses) ∧ (a.st.leat.sessions = s.leat.sessions) ∧ (a.closes = []) ∧ (ses.highSeq ≤ BitVec.toNat h.seq + 63)) ∧
    (∃ (s : State) (h : LeatHdr) (ses : Session) (payload : List Byte) (c : Nat × BitVec 16 × Nat × List Byte), (s.hears h.port = true) ∧ (h.magic = 19540) ∧ (h.version = 1) ∧ (s.session h.session = some ses) ∧ (h.tag = hostTag ses.keyIn h 3 19 payload) ∧ (List.find? (fun c => c.fst == BitVec.toNat h.seq) ses.cache = some c)) ∧
    (∃ (s : State) (h : LeatHdr) (ses : Session) (payload : List Byte), (s.hears h.port = true) ∧ (h.magic = 19540) ∧ (h.version = 1) ∧ (s.session h.session = some ses) ∧ (h.tag = hostTag ses.keyIn h 3 19 payload) ∧ (List.find? (fun c => c.fst == BitVec.toNat h.seq) ses.cache = none) ∧ (BitVec.toNat h.seq + 63 < ses.highSeq)) ∧
    (∃ (s : State) (h : LeatHdr) (ses : Session) (payload : List Byte), (s.hears h.port = true) ∧ (h.magic = 19540) ∧ (h.version = 1) ∧ (s.session h.session = some ses) ∧ (h.tag ≠ hostTag ses.keyIn h 3 19 payload)) :=
  ⟨⟨sLeat, hd0, ses1, 0, ⟨sLeat, 0, [], []⟩, by decide +kernel⟩,
    ⟨{ sUp with leat := { sUp.leat with sessions := [{ ses1 with cache := [(5, 19, 0, [])], highSeq := 5 }] } }, hd 19 [], { ses1 with cache := [(5, 19, 0, [])], highSeq := 5 }, [], (5, 19, 0, []), by decide +kernel, by decide +kernel, by decide +kernel, by decide +kernel, hd_tag 19 [], by decide +kernel⟩,
    ⟨{ sUp with leat := { sUp.leat with sessions := [{ ses1 with highSeq := 69 }] } }, hd 19 [], { ses1 with highSeq := 69 }, [], by decide +kernel, by decide +kernel, by decide +kernel, by decide +kernel, hd_tag 19 [], by decide +kernel⟩,
    ⟨sLeat, { hd0 with tag := hostTag [] hd0 3 19 [] ++ [0] }, ses1, [], by decide +kernel, by decide +kernel, by decide +kernel, by decide +kernel, fun h => by simpa [ses1, hostTag] using congrArg List.length h⟩⟩
theorem witness_LeatSessions :
    (∃ (s : State) (p : Fin 2) (bs : List Byte), (s.hears p = true) ∧ (bs.length = 316) ∧ (s.nv.owner = none) ∧ (fieldAt bs 168 8 = 0) ∧ (fieldAt bs 176 8 = BitVec.toNat s.nv.serial) ∧ ((ecDecode (slice bs 0 133)).isSome = true) ∧ (s.leat.sessions.length < 4)) ∧
    (∃ (s : State) (p : Fin 2) (bs : List Byte), (s.hears p = true) ∧ (bs.length = 316) ∧ (fieldAt bs 176 8 ≠ BitVec.toNat s.nv.serial)) ∧
    (∃ (s : State) (p : Fin 2) (bs : List Byte), (s.hears p = true) ∧ (bs.length ≠ 316)) ∧
    (∃ (s : State) (p : Fin 2) (bs : List Byte), (s.hears p = true) ∧ (bs.length = 316) ∧ (s.nv.owner = none) ∧ (fieldAt bs 168 8 = 0) ∧ (fieldAt bs 176 8 = BitVec.toNat s.nv.serial) ∧ ((ecDecode (slice bs 0 133)).isSome = true) ∧ (4 ≤ s.leat.sessions.length)) ∧
    (∃ (s : State) (h : LeatHdr) (ses : Session), Admitted s h ses 1 []) ∧
    (∃ (s : State) (h : LeatHdr) (ses : Session), Admitted s h ses 2 []) ∧
    (∃ (s : State) (id : Word32) (ses : Session), (s.session id = some ses) ∧ (ses.lastValid + 60000000000 ≤ s.time.ns)) ∧
    (∃ (s : State) (h : LeatHdr) (ses : Session), (s.hears h.port = true) ∧ (s.session h.session = some ses) ∧ (h.magic = 19540) ∧ (h.version = 1) ∧ (ses.control = true) ∧ (h.tag = hostTag ses.keyIn h 6 0 [])) ∧
    (∃ (s : State) (seq : Word64) (e : Event) (ses : Session) (at_ : Nat), (List.find? (fun e => e.seq == BitVec.toNat seq) s.leat.events = some e) ∧ (s.controlSession = some ses) ∧ (e.sentAt = some at_) ∧ (at_ + 100000000 ≤ s.time.ns)) ∧
    (∃ (s : State) (seq : Word64) (e : Event) (ses : Session) (at' : Nat), (List.find? (fun e => e.seq == BitVec.toNat seq) s.leat.events = some e) ∧ (s.controlSession = some ses) ∧ (e.sentAt = some at') ∧ (at' + 100000000 ≤ s.time.ns)) ∧
    (∃ (s : State) (code : Nat) (hd : Word32) (d : List Nat), s.hasEvent code d) ∧
    (∃ (s : State) (code : Nat) (hd : Word32) (d : List Nat), (¬s.hasEvent code d) ∧ (256 ≤ s.leat.events.length)) :=
  ⟨⟨sUp, 0, helloB 0, by decide +kernel⟩,
    ⟨sUp, 0, helloB 1, by decide +kernel⟩,
    ⟨sUp, 0, [], by decide +kernel⟩,
    ⟨{ sUp with leat := { sUp.leat with sessions := [ses1, ses1, ses1, ses1] } }, 0, helloB 0, by decide +kernel⟩,
    ⟨sLeat, hd 1 [], ses1, adm sLeat _ 1 ([]) (by decide +kernel) (by decide +kernel) rfl rfl rfl⟩,
    ⟨sLeat, hd 2 [], ses1, adm sLeat _ 2 ([]) (by decide +kernel) (by decide +kernel) rfl rfl rfl⟩,
    ⟨{ sLeat with time := { sUp.time with ns := 60000000000 } }, 1, ses1, by decide +kernel⟩,
    ⟨sLeat, { hd0 with tag := hostTag [] hd0 6 0 [] }, ses1, by decide +kernel, by decide +kernel, by decide +kernel, by decide +kernel, by decide +kernel, by simp only [hostTag]; rfl⟩,
    ⟨{ sLeat with time := { sUp.time with ns := 100000000 }, leat := { sLeat.leat with events := [⟨1, 0x40, 0, 0, 0, [], some 0⟩] } }, 1, ⟨1, 0x40, 0, 0, 0, [], some 0⟩, ses1, 0, by decide +kernel⟩,
    ⟨{ sLeat with time := { sUp.time with ns := 100000000 }, leat := { sLeat.leat with events := [⟨1, 0x40, 0, 0, 0, [], some 0⟩] } }, 1, ⟨1, 0x40, 0, 0, 0, [], some 0⟩, ses1, 0, by decide +kernel⟩,
    ⟨{ sLeat with leat := { sLeat.leat with events := [⟨1, 0x40, 0, 0, 0, List.replicate 16 0, none⟩] } }, 0x40, 0, [], ⟨_, List.mem_singleton.2 rfl, rfl, rfl⟩⟩,
    ⟨{ sLeat with leat := { sLeat.leat with events := List.replicate 256 ⟨1, 0x40, 0, 0, 0, [], none⟩ } }, 0x41, 0, [], (fun ⟨e, he, hc, _⟩ => by have := List.eq_of_mem_replicate he; subst this; exact absurd hc (by decide)), by decide +kernel⟩⟩
theorem witness_LeatMemory :
    (∃ (s : State) (h : LeatHdr) (ses : Session) (a : Nat) (d : List Byte), (ses.control = true) ∧ (a % 8 = 0) ∧ (d.length % 8 = 0) ∧ (a + d.length ≤ 721554505728) ∧ (d.length < 2 ^ 32) ∧ (s.pwr.plCur = 0) ∧ (s.pwr.plBusy = false) ∧ (s.memctl.zeroed = true) ∧ (s.writeBusy = false) ∧ (Admitted s h ses 19 (leBytes 8 a ++ leBytes 4 d.length ++ leBytes 4 0 ++ d))) ∧
    (∃ (s : State) (h : LeatHdr) (ses : Session) (a : Nat) (n : Nat), (a % 8 = 0) ∧ (n % 8 = 0) ∧ (8 ≤ n) ∧ (n ≤ 1024) ∧ (a + n ≤ 721554505728) ∧ (s.pwr.plCur = 0) ∧ (s.pwr.plBusy = false) ∧ (s.memctl.zeroed = true) ∧ (s.ctx.active = false) ∧ (∀ (x : Nat × Byte), x ∈ s.syn → ¬(a < 8 * x.fst + 8 ∧ 8 * x.fst < a + n)) ∧ (Admitted s h ses 18 (leBytes 8 a ++ leBytes 4 n ++ leBytes 4 0))) ∧
    (∃ (s : State) (h : LeatHdr) (ses : Session) (a : Nat) (n : Nat) (rd : State × List Byte), (a % 8 = 0) ∧ (n % 8 = 0) ∧ (8 ≤ n) ∧ (n ≤ 1024) ∧ (a + n ≤ 721554505728 ∨ metaBase ≤ a ∧ a + n ≤ 824633720832) ∧ (s.pwr.plCur = 0) ∧ (s.pwr.plBusy = false) ∧ (s.memctl.zeroed = true) ∧ (Admitted s h ses 18 (leBytes 8 a ++ leBytes 4 n ++ leBytes 4 0)) ∧ (rd = (s.rx h.port).millerRead a n)) ∧
    (∃ (s : State) (h : LeatHdr) (ses : Session) (a : Nat) (n : Nat), (a < 2 ^ 64) ∧ (n < 2 ^ 32) ∧ (a % 8 ≠ 0 ∨ n % 8 ≠ 0) ∧ (s.pwr.plCur = 0) ∧ (s.pwr.plBusy = false) ∧ (Admitted s h ses 18 (leBytes 8 a ++ leBytes 4 n ++ leBytes 4 0))) ∧
    (∃ (s : State) (h : LeatHdr) (ses : Session) (a : Nat) (d : List Byte), (ses.control = true) ∧ (a < 2 ^ 64) ∧ (a % 8 = 0) ∧ (d.length % 8 = 0) ∧ (721554505728 < a + d.length) ∧ (d.length < 2 ^ 32) ∧ (s.pwr.plCur = 0) ∧ (s.pwr.plBusy = false) ∧ (Admitted s h ses 19 (leBytes 8 a ++ leBytes 4 d.length ++ leBytes 4 0 ++ d))) ∧
    (∃ (s : State) (h : LeatHdr) (ses : Session) (a : Nat) (n : Nat), (a % 8 = 0) ∧ (n % 8 = 0) ∧ (8 ≤ n) ∧ (n ≤ 1024) ∧ (a + n ≤ 721554505728) ∧ (s.pwr.plCur = 0) ∧ (s.pwr.plBusy = false) ∧ (s.memctl.zeroed = false) ∧ (Admitted s h ses 18 (leBytes 8 a ++ leBytes 4 n ++ leBytes 4 0))) :=
  ⟨⟨sLeat, hd 19 (leBytes 8 8 ++ leBytes 4 8 ++ leBytes 4 0 ++ [1, 2, 3, 4, 5, 6, 7, 8]), ses1, 8, [1, 2, 3, 4, 5, 6, 7, 8], by decide +kernel, by decide +kernel, by decide +kernel, by decide +kernel, by decide +kernel, (by decide +kernel), by decide +kernel, by decide +kernel, by decide +kernel, adm sLeat _ 19 (leBytes 8 8 ++ leBytes 4 8 ++ leBytes 4 0 ++ [1, 2, 3, 4, 5, 6, 7, 8]) (by decide +kernel) (by decide +kernel) rfl rfl rfl⟩,
    ⟨sLeat, hd 18 (leBytes 8 8 ++ leBytes 4 1024 ++ leBytes 4 0), ses1, 8, 1024, by decide +kernel, by decide +kernel, by decide +kernel, by decide +kernel, by decide +kernel, (by decide +kernel), by decide +kernel, by decide +kernel, by decide +kernel, by decide +kernel, adm sLeat _ 18 (leBytes 8 8 ++ leBytes 4 1024 ++ leBytes 4 0) (by decide +kernel) (by decide +kernel) rfl rfl rfl⟩,
    ⟨sLeat, hd 18 (leBytes 8 0xBD00000000 ++ leBytes 4 1024 ++ leBytes 4 0), ses1, 0xBD00000000, 1024, _, by decide +kernel, by decide +kernel, by decide +kernel, by decide +kernel, by decide +kernel, (by decide +kernel), by decide +kernel, by decide +kernel, adm _ _ 18 (leBytes 8 0xBD00000000 ++ leBytes 4 1024 ++ leBytes 4 0) (by decide +kernel) (by decide +kernel) rfl rfl rfl, rfl⟩,
    ⟨sLeat, hd 18 (leBytes 8 1 ++ leBytes 4 8 ++ leBytes 4 0), ses1, 1, 8, by decide +kernel, by decide +kernel, by decide +kernel, by decide +kernel, by decide +kernel, adm sLeat _ 18 (leBytes 8 1 ++ leBytes 4 8 ++ leBytes 4 0) (by decide +kernel) (by decide +kernel) rfl rfl rfl⟩,
    ⟨sLeat, hd 19 (leBytes 8 0xA800000000 ++ leBytes 4 8 ++ leBytes 4 0 ++ [1, 2, 3, 4, 5, 6, 7, 8]), ses1, 0xA800000000, [1, 2, 3, 4, 5, 6, 7, 8], by decide +kernel, by decide +kernel, by decide +kernel, by decide +kernel, by decide +kernel, (by decide +kernel), by decide +kernel, by decide +kernel, adm sLeat _ 19 (leBytes 8 0xA800000000 ++ leBytes 4 8 ++ leBytes 4 0 ++ [1, 2, 3, 4, 5, 6, 7, 8]) (by decide +kernel) (by decide +kernel) rfl rfl rfl⟩,
    ⟨{ sLeat with memctl := { sUp.memctl with zeroed := false } }, hd 18 (leBytes 8 0 ++ leBytes 4 8 ++ leBytes 4 0), ses1, 0, 8, by decide +kernel, by decide +kernel, by decide +kernel, by decide +kernel, by decide +kernel, (by decide +kernel), by decide +kernel, by decide +kernel, adm { sLeat with memctl := { sUp.memctl with zeroed := false } } _ 18 (leBytes 8 0 ++ leBytes 4 8 ++ leBytes 4 0) (by decide +kernel) (by decide +kernel) rfl rfl rfl⟩⟩
theorem witness_TailraceReads :
    (∃ (s : State) (t : TrHdr), TrHeard s t) ∧
    (∃ (s : State) (t : TrHdr), (TrHeard s t) ∧ (bitsOf (BitVec.toNat t.arg) 15 8 < 2)) ∧
    (∃ (s : State) (t : TrHdr) (eyes : List (BitVec 16 × BitVec 16)), (TrHeard s t) ∧ (laneOk (trSel t) = true)) ∧
    (∃ (s : State) (t : TrHdr), (s.up = true) ∧ ((s.port ↑t.port).linkUp = true) ∧ (t.version = 1) ∧ (s.leat.tailraceOpen = false)) ∧
    (∃ (s : State) (t : TrHdr), (TrHeard s t) ∧ (BitVec.toNat t.arg % 8 = 0) ∧ (t.length.toNat % 8 = 0) ∧ (8 ≤ t.length.toNat) ∧ (t.length.toNat ≤ 1024) ∧ (BitVec.toNat t.arg + t.length.toNat ≤ 721554505728) ∧ (s.pwr.plCur = 0) ∧ (s.pwr.plBusy = false) ∧ (s.memctl.zeroed = true) ∧ (s.ctx.active = false) ∧ (∀ (x : Nat × Byte), x ∈ s.syn → ¬(BitVec.toNat t.arg < 8 * x.fst + 8 ∧ 8 * x.fst < BitVec.toNat t.arg + t.length.toNat))) ∧
    (∃ (s : State) (t : TrHdr) (d : List Byte), (TrHeard s t) ∧ (BitVec.toNat t.arg % 8 = 0) ∧ (d.length % 8 = 0) ∧ (8 ≤ d.length) ∧ (d.length ≤ 1024) ∧ (BitVec.toNat t.arg + d.length ≤ 721554505728) ∧ (s.pwr.plCur = 0) ∧ (s.pwr.plBusy = false) ∧ (s.memctl.zeroed = true)) ∧
    (∃ (s : State) (t : TrHdr), (TrHeard s t) ∧ (s.boot.recovery = true) ∧ (BitVec.toNat t.arg % 8 = 0) ∧ (BitVec.toNat t.arg ≤ 33554432)) ∧
    (∃ (s : State) (t : TrHdr) (d : List Byte), (TrHeard s t) ∧ (s.boot.recovery = true) ∧ (BitVec.toNat t.arg + d.length ≤ s.fwLen) ∧ (d.length ≤ 1024) ∧ (s.memctl.zeroed = true) ∧ (s.syn = [])) ∧
    (∃ (s : State) (t : TrHdr), (TrHeard s t) ∧ (s.boot.recovery = true) ∧ (s.memctl.zeroed = true) ∧ (fwCheck s.nv (s.bytes 0 s.fwLen) = 1)) ∧
    (∃ (s : State) (t : TrHdr) (rd : State × List Byte), (TrHeard s t) ∧ (s.boot.recovery = true) ∧ (s.memctl.zeroed = true) ∧ (rd = (s.rx t.port).millerRead 0 s.fwLen) ∧ (fwCheck s.nv rd.snd = 1)) :=
  ⟨⟨sUp, ⟨0, 0, 1, 0, 0, 0⟩, ⟨by decide +kernel, by decide +kernel, rfl, rfl⟩⟩,
    ⟨sUp, ⟨0, 0, 1, 0, 0, 256⟩, ⟨by decide +kernel, by decide +kernel, rfl, rfl⟩, by decide +kernel⟩,
    ⟨sUp, ⟨0, 0, 1, 0, 0, 3⟩, [], ⟨by decide +kernel, by decide +kernel, rfl, rfl⟩, by decide +kernel⟩,
    ⟨{ sUp with leat := { sUp.leat with tailraceOpen := false } }, ⟨0, 0, 1, 0, 0, 0⟩, by decide +kernel⟩,
    ⟨sUp, ⟨0, 0, 1, 0, 1024, 8⟩, ⟨by decide +kernel, by decide +kernel, rfl, rfl⟩, by decide +kernel⟩,
    ⟨sUp, ⟨0, 0, 1, 0, 0, 8⟩, [1, 2, 3, 4, 5, 6, 7, 8], ⟨by decide +kernel, by decide +kernel, rfl, rfl⟩, by decide +kernel⟩,
    ⟨{ sUp with boot := { sUp.boot with recovery := true }, fwLen := 1 }, ⟨0, 0, 1, 0, 0, 33554432⟩, ⟨by decide +kernel, by decide +kernel, rfl, rfl⟩, by decide +kernel⟩,
    ⟨{ sUp with boot := { sUp.boot with recovery := true }, fwLen := 1 }, ⟨0, 0, 1, 0, 0, 0⟩, [1], ⟨by decide +kernel, by decide +kernel, rfl, rfl⟩, by decide +kernel⟩,
    ⟨sFwRec, ⟨0, 0, 1, 0, 0, 0⟩, ⟨by decide +kernel, by decide +kernel, rfl, rfl⟩, by decide +kernel, by decide +kernel, by rw [show sFwRec.bytes 0 sFwRec.fwLen = fwImg from sFwRec_bytes]; exact fw_ok⟩,
    ⟨sFwRec, ⟨0, 0, 1, 0, 0, 0⟩, _, ⟨by decide +kernel, by decide +kernel, rfl, rfl⟩, by decide +kernel, by decide +kernel, rfl, (congrArg (fwCheck sFwRec.nv) sFwRec_read).trans fw_ok⟩⟩
theorem witness_TailraceTests :
    (∃ (s : State) (t : TrHdr), (TrHeard s t) ∧ (bitsOf (BitVec.toNat t.arg) 15 8 < 2) ∧ (bitOf (BitVec.toNat t.arg) 0 = true) ∧ (trDurationOk t = true)) ∧
    (∃ (s : State) (t : TrHdr), (TrHeard s t) ∧ (laneOk (trSel t) = true) ∧ (bitsOf (BitVec.toNat t.arg) 19 16 ≤ 2) ∧ (bitOf (BitVec.toNat t.arg) 20 = true) ∧ (trDurationOk t = true)) ∧
    (∃ (s : State) (t : TrHdr), (TrHeard s t) ∧ (laneOk (trSel t) = true) ∧ (bitsOf (BitVec.toNat t.arg) 21 20 = 1 ∨ bitsOf (BitVec.toNat t.arg) 21 20 = 2) ∧ (trDurationOk t = true)) ∧
    (∃ (s : State) (t : TrHdr) (b : Word64) (e : Word64), (TrHeard s t) ∧ (laneOk (trSel t) = true) ∧ (bitsOf (BitVec.toNat t.arg) 19 16 ≤ 2) ∧ (bitsOf (BitVec.toNat t.arg) 21 20 = 1)) ∧
    (∃ (s : State) (t : TrHdr) (b : Word64) (e : Word64), (TrHeard s t) ∧ (laneOk (trSel t) = true) ∧ (bitsOf (BitVec.toNat t.arg) 19 16 ≤ 2) ∧ (bitsOf (BitVec.toNat t.arg) 21 20 = 2) ∧ ((s.tests.any fun x => decide (x.op = 17) && decide (x.sel.toNat = trSel t)) = true)) ∧
    (∃ (s : State) (sel : BitVec 16) (x : LaneTest), (x ∈ s.tests) ∧ (x.sel = sel) ∧ (0 < x.endAt) ∧ (x.endAt ≤ s.time.ns)) :=
  ⟨⟨sUp, ⟨0, 0, 1, 0, 0, 257698037760001⟩, ⟨by decide +kernel, by decide +kernel, rfl, rfl⟩, by decide +kernel⟩,
    ⟨sUp, ⟨0, 0, 1, 0, 0, 4296019972⟩, ⟨by decide +kernel, by decide +kernel, rfl, rfl⟩, by decide +kernel⟩,
    ⟨sUp, ⟨0, 0, 1, 0, 0, 4296019968⟩, ⟨by decide +kernel, by decide +kernel, rfl, rfl⟩, by decide +kernel⟩,
    ⟨sUp, ⟨0, 0, 1, 0, 0, 1048576⟩, 0, 0, ⟨by decide +kernel, by decide +kernel, rfl, rfl⟩, by decide +kernel⟩,
    ⟨{ sUp with tests := [⟨17, 0, 0, 5⟩] }, ⟨0, 0, 1, 0, 0, 2097152⟩, 0, 0, ⟨by decide +kernel, by decide +kernel, rfl, rfl⟩, by decide +kernel⟩,
    ⟨{ sUp with tests := [⟨17, 0, 0, 5⟩], time := { sUp.time with ns := 5 } }, 0, ⟨17, 0, 0, 5⟩, by decide +kernel⟩⟩
theorem witness_Smbus :
    (∃ (s : State) (pec : Bool), s.pwr.auxOn = true) ∧
    (∃ (s : State) (pec : Bool), s.pwr.auxOn = true) ∧
    (∃ (s : State) (pec : Bool), (s.pwr.auxOn = true) ∧ (s.pwr.pdOn.getLsbD 0 = false)) ∧
    (∃ (s : State) (pec : Bool), (s.pwr.auxOn = true) ∧ (s.pwr.pdOn.getLsbD 0 = true) ∧ (s.smb.frame.length = 32)) ∧
    (∃ (s : State) (page : Fin 64) (pec : Bool), (s.pwr.auxOn = true) ∧ (s.boot.fruValid = true) ∧ (s.boot.fruBuf.length = 2048)) ∧
    (∃ (s : State) (code : Byte), (s.pwr.auxOn = true) ∧ (code ≠ 0) ∧ (code ≠ 1) ∧ (code ≠ 16) ∧ (BitVec.toNat code < 64 ∨ 127 < BitVec.toNat code)) ∧
    (∃ (s : State) (code : Byte), s.pwr.auxOn = true) ∧
    (∃ (s : State), s.pwr.pdOn.getLsbD 0 = true) :=
  ⟨⟨State.reset, false, by decide +kernel⟩,
    ⟨State.reset, false, by decide +kernel⟩,
    ⟨{ State.reset with pwr := { Pwr.init with pdOn := 0 } }, true, by decide +kernel⟩,
    ⟨{ sUp with smb := ⟨1, List.replicate 32 0, []⟩ }, true, by decide +kernel⟩,
    ⟨{ sUp with boot := { sUp.boot with fruValid := true, fruBuf := List.replicate 2048 0 } }, 63, true, by decide +kernel⟩,
    ⟨sUp, 128, by decide +kernel⟩,
    ⟨sUp, 0, by decide +kernel⟩,
    ⟨sUp, by decide +kernel⟩⟩
theorem witness_TestPort :
    (∃ (s : State), s.tapUp = true) ∧
    (∃ (s : State) (pins : BitVec 205) (pre : BitVec 205), s.tapUp = true) ∧
    (∃ (s : State), s.tapUp = true) ∧
    (∃ (s : State), s.tapUp = true) ∧
    (∃ (s : State), (s.tapUp = true) ∧ (s.nv.debugClosed = false)) ∧
    (∃ (s : State) (a : Nat), (s.tapUp = true) ∧ (s.nv.debugClosed = false) ∧ (2199023255552 ≤ a) ∧ (a < 2199342022656) ∧ (s.synOf (a / 8) = 0)) ∧
    (∃ (s : State) (sid : Sid), (s.tapUp = true) ∧ (s.nv.debugClosed = false)) ∧
    (∃ (s : State) (sid : Sid) (a : Nat), (s.tapUp = true) ∧ (s.nv.debugClosed = true)) :=
  ⟨⟨sUp, by decide +kernel⟩,
    ⟨sUp, 0, 0, by decide +kernel⟩,
    ⟨sUp, by decide +kernel⟩,
    ⟨sUp, by decide +kernel⟩,
    ⟨sUp, by decide +kernel⟩,
    ⟨sUp, 2199342022655, by decide +kernel⟩,
    ⟨sUp, ⟨0, 0⟩, by decide +kernel⟩,
    ⟨{ sUp with nv := { Nv.init with debugClosed := true } }, ⟨0, 0⟩, 0, by decide +kernel⟩⟩
theorem witness_EthernetLinks :
    (∃ (s : State) (p : Fin 2) (partner : BitVec 10) (fec4 : Fin 3) (m : Nat), (s.up = true) ∧ (7 ≤ s.pwr.startStep) ∧ (s.leat.listening = true) ∧ (s.boot.recovery = false) ∧ ((s.port ↑p).enabled = true) ∧ ((s.port ↑p).linkUp = false) ∧ ((s.port ↑p).downAt = none) ∧ (s.canTrain (4 + ↑p) = true) ∧ (s.ethHeld ↑p = false) ∧ (ethMode (s.port ↑p).live partner = some m)) ∧
    (∃ (cfg : Word32) (partner : BitVec 10) (m : Nat), (BitVec.getLsbD cfg 30 = true) ∧ (ethMode cfg partner = some m)) ∧
    (∃ (cfg : Word32) (partner : BitVec 10) (m : Nat), (BitVec.getLsbD cfg 30 = true) ∧ (ethMode cfg partner = some m) ∧ (m ≠ 2)) ∧
    (∃ (s : State) (p : Fin 2), (s.up = true) ∧ (7 ≤ s.pwr.startStep) ∧ ((s.port ↑p).enabled = true) ∧ ((s.port ↑p).downAt = none)) ∧
    (∃ (s : State) (p : Fin 2) (d : Nat), ((s.port ↑p).downAt = some d) ∧ (d + 100000000 ≤ s.time.ns)) ∧
    (∃ (s : State) (p : Fin 2) (mac : BitVec 48) (src : Word32) (target : Word32), (s.port ↑p).linkUp = true) ∧
    (∃ (s : State) (p : Fin 2) (src : BitVec 128) (dst : BitVec 128) (d : List Byte), ((s.port ↑p).linkUp = true) ∧ (d.length ≤ 9150)) ∧
    (∃ (s : State) (p : Fin 2) (src : BitVec 128) (target : BitVec 128), (s.port ↑p).linkUp = true) ∧
    (∃ (s : State) (p : Fin 2) (ack : Bool) (addr : Word32), ((s.port ↑p).linkUp = true) ∧ (s.netStatic ↑p = false)) ∧
    (∃ (s : State) (p : Fin 2) (ack : Bool) (client : Word64) (addr : Word32), ((s.port ↑p).linkUp = true) ∧ (client ≠ s.nv.serial ∨ s.netStatic ↑p = true)) ∧
    (∃ (s : State) (p : Fin 2) (src : BitVec 128) (x : BitVec 64), (s.port ↑p).linkUp = true) ∧
    (∃ (s : State) (p : Fin 2) (addr : Word32), ((s.port ↑p).linkUp = true) ∧ (s.netStatic ↑p = false)) ∧
    (∃ (s : State) (p : Fin 2) (kind : DhcpKind) (client : Word64) (addr : Word32), ((s.port ↑p).linkUp = true) ∧ (client ≠ s.nv.serial ∨ s.netStatic ↑p = true)) ∧
    (∃ (s : State) (p : Fin 2) (prios : Byte) (quanta : BitVec 16), (s.port ↑p).linkUp = true) :=
  ⟨⟨{ sUp with eth := [] }, 0, 4, 0, 2, by decide +kernel⟩,
    ⟨0xC01F2070, 4, 2, by decide +kernel⟩,
    ⟨0xE01F2070, 0x20, 0, by decide +kernel⟩,
    ⟨sUp, 0, by decide +kernel⟩,
    ⟨{ sUp with eth := [(0, { Eth.init with downAt := some 0 })], time := { sUp.time with ns := 100000000 } }, 0, 0, by decide +kernel⟩,
    ⟨sUp, 0, 0, 0, 0, by decide +kernel⟩,
    ⟨sUp, 0, 0, 0, [], by decide +kernel⟩,
    ⟨sUp, 0, 0, 0, by decide +kernel⟩,
    ⟨sUp, 0, true, 0, by decide +kernel⟩,
    ⟨sUp, 0, true, 1, 0, by decide +kernel⟩,
    ⟨sUp, 0, 0, 0, by decide +kernel⟩,
    ⟨sUp, 0, 0, by decide +kernel⟩,
    ⟨sUp, 0, .ack, 1, 0, by decide +kernel⟩,
    ⟨sUp, 0, 0, 0, by decide +kernel⟩⟩
theorem witness_ThermalAndRails :
    (∃ (s : State) (sensor : Fin 36) (temp : Byte), (s.up = true) ∧ (108 ≤ BitVec.toNat temp)) ∧
    (∃ (s : State), (s.pwr.pdOn ≠ 0) ∧ (s.pwr.thermTrip = false)) ∧
    (∃ (s : State), (s.pwr.thermTrip = true) ∧ (s.pwr.pwrEn = false)) ∧
    (∃ (s : State), (s.pwr.thermTrip = true) ∧ (s.pwr.pwrEn = true)) ∧
    (∃ (s : State) (d : Fin 20) (b : Bool), (s.pwr.pdOn.getLsbD ↑d = true) ∧ (2 ≤ s.pwr.startStep) ∧ (7 ≤ ↑d) ∧ (↑d ≤ 14)) ∧
    (∃ (s : State) (d : Fin 20) (b : Bool), (s.pwr.pdOn.getLsbD ↑d = true) ∧ (2 ≤ s.pwr.startStep) ∧ (↑d < 7 ∨ 14 < ↑d)) ∧
    (∃ (s : State) (f : Fin 8), (s.up = true) ∧ (s.pwr.pdOn.getLsbD (7 + ↑f) = true)) :=
  ⟨⟨sUp, 0, 108, by decide +kernel⟩,
    ⟨sUp, by decide +kernel⟩,
    ⟨{ State.reset with pwr := { Pwr.init with thermTrip := true } }, by decide +kernel⟩,
    ⟨{ State.reset with pwr := { Pwr.init with thermTrip := true, pwrEn := true } }, by decide +kernel⟩,
    ⟨sUp, 7, false, by decide +kernel⟩,
    ⟨sUp, 0, false, by decide +kernel⟩,
    ⟨sUp, 0, by decide +kernel⟩⟩
theorem witness_GovernorPeriods :
    (∃ (s : State) (p : Nat) (w : Nat) (mv : Nat) (tj : List Byte) (spine : Byte), (s.up = true) ∧ (s.time.running = true) ∧ (s.time.ns % 10000 = 0)) ∧
    (∃ (s : State) (f : Fin 8) (p : Nat) (rails : List Nat) (img : Image), (s.image = some img) ∧ (s.mayLend img ↑f = true) ∧ (s.ctx.lending.getLsbD ↑f = false)) :=
  ⟨⟨sUp, 0, 0, 0, [], 0, by decide +kernel⟩,
    ⟨sL, 0, 0, [], imgL, rfl, by decide +kernel⟩⟩
theorem witness_HealthMonitor :
    (∃ (s : State), (s.up = true) ∧ (s.time.running = true) ∧ (s.time.ns % 10000000 = 0)) ∧
    (∃ (s : State), (s.up = true) ∧ (s.time.running = true) ∧ (s.time.ns % 10000000 = 0) ∧ (s.health.armed = true) ∧ (bitsOf (BitVec.toNat s.health.cfg) 7 0 = 0) ∧ (s.ctx.active = true) ∧ (s.jobRuns = true) ∧ (s.snap.held = false)) ∧
    (∃ (s : State), (s.up = true) ∧ (s.time.running = true) ∧ (s.time.ns % 10000000 = 0) ∧ (s.health.armed = true) ∧ (bitsOf (BitVec.toNat s.health.cfg) 7 0 = 0) ∧ (s.ctx.active = true) ∧ (s.jobRuns = true) ∧ (s.snap.held = true)) ∧
    (∃ (s : State), (s.up = true) ∧ (s.time.running = true) ∧ (s.time.ns % 10000000 = 0) ∧ (s.health.armed = true) ∧ (bitsOf (BitVec.toNat s.health.cfg) 7 0 = 0) ∧ (s.ctx.active = false ∨ s.jobRuns = false)) ∧
    (∃ (s : State), (s.up = true) ∧ (s.time.running = true) ∧ (s.time.ns % 10000000 = 0) ∧ (s.health.armed = false)) ∧
    (∃ (s : State) (x : Nat), x ∈ s.scores) :=
  ⟨⟨sUp, by decide +kernel⟩,
    ⟨{ sJob Run.init Wheel.init with health := { Health.init with armed := true, cfg := 0 } }, by decide +kernel⟩,
    ⟨{ sJob Run.init Wheel.init with health := { Health.init with armed := true, cfg := 0 } , snap := { Snap.init with held := true } }, by decide +kernel⟩,
    ⟨{ sUp with health := { Health.init with armed := true, cfg := 0 } }, by decide +kernel⟩,
    ⟨{ sUp with health := { Health.init with armed := false } }, by decide +kernel⟩,
    ⟨sUp, 0, by decide +kernel⟩⟩
theorem witness_ReleasesAndPointers :
    (∃ (s : State) (sid : Sid) (img : Image) (w : Nat) (i : Nat), (s.image = some img) ∧ ((s.stream (sidKey sid)).stat = StreamStat.atWeir w) ∧ (img.weirIndex w sid.owner sid.kind = some i) ∧ (s.weirReleased img w sid.owner sid.kind = true)) ∧
    (∃ (s : State) (sid : Sid) (img : Image) (w : Nat), (s.image = some img) ∧ ((s.stream (sidKey sid)).stat = StreamStat.atWeir w) ∧ (s.weirReleased img w sid.owner sid.kind = false)) ∧
    (∃ (s : State) (sid : Sid) (img : Image) (key : Nat) (prod : Bool) (d : RaceDef), (s.image = some img) ∧ ((s.stream (sidKey sid)).stat = StreamStat.onRace key prod) ∧ (img.race (key / 64) (key % 64) = some d) ∧ (if prod = true then (s.raceSt key).occ < d.capacity else (s.raceSt key).occ ≠ 0)) ∧
    (∃ (s : State) (sid : Sid) (img : Image) (key : Nat) (prod : Bool) (d : RaceDef), (s.image = some img) ∧ ((s.stream (sidKey sid)).stat = StreamStat.onRace key prod) ∧ (img.race (key / 64) (key % 64) = some d) ∧ (¬if prod = true then (s.raceSt key).occ < d.capacity else (s.raceSt key).occ ≠ 0)) ∧
    (∃ (s : State) (img : Image), (s.image = some img) ∧ (s.ctx.active = true) ∧ (s.ctx.reported = false) ∧ (img.deadlockNs ≤ s.time.ns - s.ctx.progress) ∧ ((List.any s.streams fun p => p.snd.live) = true)) ∧
    (∃ (s : State) (img : Image), (s.image = some img) ∧ (s.ctx.active = false ∨ s.ctx.reported = true ∨ s.time.ns - s.ctx.progress < img.deadlockNs)) :=
  ⟨⟨sRel [(0, false)], ⟨0, 2⟩, imgS 2 (noD 3) [] [(0xA, weirsB 2)], 0, 0, rfl, by decide +kernel⟩,
    ⟨sRel [], ⟨0, 2⟩, imgS 2 (noD 3) [] [(0xA, weirsB 2)], 0, rfl, by decide +kernel⟩,
    ⟨sRace true, ⟨0, 2⟩, imgR, 0, true, (imgR.race 0 0).get (by decide +kernel), rfl, by decide +kernel, some_of _ _, by decide +kernel⟩,
    ⟨sRace false, ⟨0, 2⟩, imgR, 0, false, (imgR.race 0 0).get (by decide +kernel), rfl, by decide +kernel, some_of _ _, by decide +kernel⟩,
    ⟨{ sL with streams := [(0, { Stream.init with stat := .running })], time := { sUp.time with ns := 100000000 } }, imgL, rfl, by decide +kernel⟩,
    ⟨{ sL with ctx := { sL.ctx with active := false } }, imgL, rfl, by decide +kernel⟩⟩
theorem witness_FlitSurvivesOneBit : ∃ (typ : Nat) (cls : Nat) (first : Nat) (seq : Nat) (ack : Nat) (crCls : Nat) (credits : Nat) (payload : List Nat) (i : Nat) (bit : Nat), (typ < 16) ∧ (cls < 4) ∧ (first < 2 ^ 32) ∧ (seq < 2 ^ 16) ∧ (ack < 2 ^ 16) ∧ (crCls < 4) ∧ (credits < 1024) ∧ (payload.length ≤ 62) ∧ (∀ (x : Nat), x ∈ payload → x < 2 ^ 64) ∧ (i < 64) ∧ (bit ≤ 72) :=
  ⟨1, 0, 0, 0, 0, 0, 0, [7], 0, 72, by decide +kernel⟩
theorem witness_FlumeTraining :
    (∃ (s : State) (p : Fin 12) (lanes : BitVec 5), ((s.fport ↑p).st = FlumeState.detect) ∧ (s.portTrains ↑p = true) ∧ (2 ≤ (goodLanes lanes).length)) ∧
    (∃ (s : State) (p : Fin 12) (rx : BitVec 5) (tx : BitVec 5), ((s.fport ↑p).st = FlumeState.train2) ∧ (s.canTrain (6 + ↑p) = true) ∧ (2 ≤ (goodLanes rx).length) ∧ (2 ≤ (goodLanes tx).length)) ∧
    (∃ (s : State) (p : Fin 12) (rx : BitVec 5) (tx : BitVec 5), ((s.fport ↑p).st = FlumeState.train2) ∧ (s.canTrain (6 + ↑p) = true) ∧ ((goodLanes rx).length < 2 ∨ (goodLanes tx).length < 2)) ∧
    (∃ (s : State) (p : Fin 12) (rx : BitVec 5) (tx : BitVec 5), ((s.fport ↑p).st = FlumeState.train3) ∧ (s.canTrain (6 + ↑p) = true) ∧ (4 ≤ (goodLanes rx).length) ∧ (4 ≤ (goodLanes tx).length)) ∧
    (∃ (s : State) (p : Fin 12) (words : List (BitVec 72)), ((s.fport ↑p).st = FlumeState.caps) ∧ ((flitIn words).ok = true) ∧ ((flitIn words).typ = 4) ∧ ((s.fport ↑p).retraining = false)) ∧
    (∃ (s : State) (p : Fin 12), (s.fport ↑p).st = FlumeState.retrain) ∧
    (∃ (s : State) (p : Fin 12), (s.fport ↑p).st = FlumeState.active ∨ (s.fport ↑p).st = FlumeState.retrain) ∧
    (∃ (s : State) (p : Fin 12) (words : List (BitVec 72)), ((s.fport ↑p).st = FlumeState.caps) ∧ ((flitIn words).ok = true) ∧ ((flitIn words).typ = 4) ∧ ((s.fport ↑p).retraining = true)) ∧
    (∃ (s : State) (p : Fin 12) (words : List (BitVec 72)), ((s.fport ↑p).st = FlumeState.caps) ∧ ((flitIn words).ok = true) ∧ ((flitIn words).typ = 4) ∧ ((s.fport ↑p).retraining = true) ∧ ((s.fport ↑p).peerSerial = some (BitVec.ofNat 64 ((flitIn words).payload.getD 1 0)))) ∧
    (∃ (s : State) (p : Fin 12) (words : List (BitVec 72)), ((s.fport ↑p).st = FlumeState.caps) ∧ ((flitIn words).ok = true) ∧ ((flitIn words).typ = 4) ∧ ((s.fport ↑p).retraining = true) ∧ ((s.fport ↑p).peerSerial ≠ some (BitVec.ofNat 64 ((flitIn words).payload.getD 1 0)))) ∧
    (∃ (s : State) (p : Fin 12), (s.fport ↑p).st = FlumeState.retrain ∨ (s.fport ↑p).st = FlumeState.caps ∧ (s.fport ↑p).retraining = true) ∧
    (∃ (s : State) (p : Fin 12), ((s.fport ↑p).st ≠ FlumeState.disabled) ∧ ((s.fport ↑p).st ≠ FlumeState.detect) ∧ ((s.fport ↑p).st ≠ FlumeState.down)) ∧
    (∃ (s : State) (p : Fin 12), ((s.fport ↑p).st = FlumeState.down) ∧ (s.portRuns ↑p = true) ∧ ((s.fport ↑p).downAt + 10000000 ≤ s.time.ns)) ∧
    (∃ (s : State) (p : Fin 12) (rx : BitVec 5) (tx : BitVec 5), ((s.fport ↑p).st = FlumeState.retrain) ∧ (s.canTrain (6 + ↑p) = true) ∧ (2 ≤ (goodLanes rx).length) ∧ (2 ≤ (goodLanes tx).length)) :=
  ⟨⟨sF .detect, 0, 3, by decide +kernel⟩,
    ⟨sF .train2, 0, 3, 3, by decide +kernel⟩,
    ⟨sF .train2, 0, 0, 3, by decide +kernel⟩,
    ⟨sF .train3, 0, 15, 15, by decide +kernel⟩,
    ⟨sF .caps, 0, flitWords 4 0 0 0 0 0 0 [], by decide +kernel⟩,
    ⟨sF .retrain, 0, by decide +kernel⟩,
    ⟨sF .active, 0, by decide +kernel⟩,
    ⟨sP { fp .caps with retraining := true, peerSerial := some 0 }, 0, flitWords 4 0 0 0 0 0 0 [], by decide +kernel⟩,
    ⟨sP { fp .caps with retraining := true, peerSerial := some 0 }, 0, flitWords 4 0 0 0 0 0 0 [], by decide +kernel⟩,
    ⟨sP { fp .caps with retraining := true, peerSerial := some 1 }, 0, flitWords 4 0 0 0 0 0 0 [], by decide +kernel⟩,
    ⟨sP { fp .caps with retraining := true }, 0, by decide +kernel⟩,
    ⟨sF .train2, 0, by decide +kernel⟩,
    ⟨{ sF .down with time := { sUp.time with ns := 10000000 } }, 0, by decide +kernel⟩,
    ⟨sF .retrain, 0, 3, 3, by decide +kernel⟩⟩
theorem witness_LanesAndLinkRequests :
    (∃ (s : State) (p : Fin 12) (a : Fin 5) (b : Fin 5), (a ≠ b) ∧ ((s.fport ↑p).st = FlumeState.active) ∧ ((s.fport ↑p).rx.map.contains ↑a = true) ∧ ((s.fport ↑p).rx.map.contains ↑b = true) ∧ ((s.fport ↑p).rx.retired = 0)) ∧
    (∃ (s : State) (p : Fin 12) (lane : Fin 5) (l : Nat) (c : Instr), ((s.fport ↑p).st = FlumeState.active) ∧ ((s.fport ↑p).rx.map.length = 4) ∧ ((s.fport ↑p).rx.spare < 5) ∧ ((s.fport ↑p).rx.retired = 0) ∧ (findIdx (fun x => x == ↑lane) (s.fport ↑p).rx.map = some l) ∧ (c ∈ [Instr.laneCeLimit p lane, Instr.laneLockLoss p (BitVec.ofNat 5 (2 ^ (↑lane : Nat)))])) ∧
    (∃ (s : State) (p : Fin 12) (lane : Fin 5) (l : Nat), ((s.fport ↑p).st = FlumeState.active) ∧ ((s.fport ↑p).rx.map.length = 4) ∧ ((s.fport ↑p).rx.spare < 5) ∧ ((s.fport ↑p).rx.retired = 0) ∧ (findIdx (fun x => x == ↑lane) (s.fport ↑p).rx.map = some l) ∧ ((s.fport ↑p).rxBefore = none)) ∧
    (∃ (s : State) (p : Fin 12) (lane : Fin 5) (l : Nat), ((s.fport ↑p).st = FlumeState.active) ∧ ((s.fport ↑p).rx.map.length = 4) ∧ ((s.fport ↑p).rx.spare < 5) ∧ ((s.fport ↑p).rx.retired = 0) ∧ (findIdx (fun x => x == ↑lane) (s.fport ↑p).rx.map = some l) ∧ ((s.fport ↑p).rxBefore = none) ∧ ((s.fport ↑p).ceLimit < (s.fport ↑p).laneBits ↑lane)) ∧
    (∃ (s : State) (p : Fin 12) (lane : Fin 5), (s.fport ↑p).laneBits ↑lane ≤ (s.fport ↑p).ceLimit) ∧
    (∃ (q : FlumePort) (now : Nat) (lane : Nat) (bits : List Nat), (bits ≠ []) ∧ (q.rx.map.length = 4)) ∧
    (∃ (s : State) (p : Fin 12) (r : LaneReq), ((s.fport ↑p).req = some r) ∧ ((s.fport ↑p).st = FlumeState.active)) ∧
    (∃ (s : State) (p : Fin 12), (s.fport ↑p).req = none) ∧
    (∃ (s : State) (p : Fin 12) (lane : Fin 5), ((s.fport ↑p).st = FlumeState.active) ∧ ((s.fport ↑p).rx.retired.getLsbD ↑lane = true) ∧ ((s.fport ↑p).rx.shadow = none) ∧ ((s.fport ↑p).req = none)) ∧
    (∃ (s : State) (p : Fin 12) (lane : Fin 5) (n : BitVec 16) (h : Nat), ((s.fport ↑p).st = FlumeState.active) ∧ ((s.fport ↑p).rx.shadow = some ↑lane) ∧ ((s.fport ↑p).rx.map.length = 4) ∧ (findIdx (fun x => x == ↑lane) (s.fport ↑p).rx.home = some h)) ∧
    (∃ (s : State) (p : Fin 12) (words : List (BitVec 72)) (f : SentFlit) (fs : List SentFlit), (FlitGood s p words 3) ∧ (bitsOf ((flitIn words).payload.getD 0 0) 63 60 = 1) ∧ (ackReplay (flitIn words).ack (s.fport ↑p).replay = f :: fs) ∧ (bitsOf ((flitIn words).payload.getD 0 0) 47 32 = f.seq)) ∧
    (∃ (s : State) (p : Fin 12) (words : List (BitVec 72)) (l : Nat) (phys : Nat) (old : Nat), (FlitGood s p words 3) ∧ (bitsOf ((flitIn words).payload.getD 0 0) 63 60 = 2) ∧ (bitsOf ((flitIn words).payload.getD 0 0) 59 58 = l) ∧ (bitsOf ((flitIn words).payload.getD 0 0) 57 55 = phys) ∧ ((s.fport ↑p).tx.map[l]? = some old) ∧ (old ≠ phys)) ∧
    (∃ (s : State) (p : Fin 12) (words : List (BitVec 72)) (lane : Nat), (FlitGood s p words 3) ∧ (bitsOf ((flitIn words).payload.getD 0 0) 63 60 = 3) ∧ (bitsOf ((flitIn words).payload.getD 0 0) 57 55 = lane) ∧ ((s.fport ↑p).tx.map.length = 4)) ∧
    (∃ (s : State) (p : Fin 12) (words : List (BitVec 72)) (l : Nat) (phys : Nat) (old : Nat), (FlitGood s p words 3) ∧ (bitsOf ((flitIn words).payload.getD 0 0) 63 60 = 2) ∧ (bitsOf ((flitIn words).payload.getD 0 0) 59 58 = l) ∧ (bitsOf ((flitIn words).payload.getD 0 0) 57 55 = phys) ∧ ((s.fport ↑p).tx.map[l]? = some old) ∧ (old ≠ phys) ∧ ((s.fport ↑p).txBefore = none)) ∧
    (∃ (s : State) (p : Fin 12) (words : List (BitVec 72)) (lane : Nat), (FlitGood s p words 3) ∧ (bitsOf ((flitIn words).payload.getD 0 0) 63 60 = 3) ∧ (bitsOf ((flitIn words).payload.getD 0 0) 57 55 = lane) ∧ ((s.fport ↑p).txBefore = none)) ∧
    (∃ (s : State) (p : Fin 12) (words : List (BitVec 72)), (FlitGood s p words 3) ∧ (bitsOf ((flitIn words).payload.getD 0 0) 63 60 = 4)) ∧
    (∃ (s : State) (p : Fin 12) (words : List (BitVec 72)) (lane : Nat) (h : Nat), (FlitGood s p words 3) ∧ (bitsOf ((flitIn words).payload.getD 0 0) 63 60 = 5) ∧ (bitsOf ((flitIn words).payload.getD 0 0) 57 55 = lane) ∧ ((s.fport ↑p).tx.shadow = some lane) ∧ ((s.fport ↑p).tx.map.length = 4) ∧ (findIdx (fun x => x == lane) (s.fport ↑p).tx.home = some h) ∧ (h < 4)) ∧
    (∃ (s : State) (p : Fin 12) (words : List (BitVec 72)) (lane : Nat), (FlitGood s p words 2) ∧ ((flitIn words).seq = (s.fport ↑p).rxSeq) ∧ (bitsOf ((flitIn words).payload.getD 0 0) 63 60 = 1) ∧ (bitsOf ((flitIn words).payload.getD 0 0) 57 55 = lane)) :=
  ⟨⟨sF .active, 0, 0, 1, by decide +kernel⟩,
    ⟨sF .active, 0, 0, 0, .laneCeLimit 0 0, by decide +kernel, by decide +kernel, by decide +kernel, by decide +kernel, by decide +kernel, List.mem_cons_self⟩,
    ⟨sF .active, 0, 0, 0, by decide +kernel⟩,
    ⟨sP { fp .active with live := 0, ceLog := [(0, 0)] }, 0, 0, 0, by decide +kernel⟩,
    ⟨sF .active, 0, 0, by decide +kernel⟩,
    ⟨fp .active, 0, 0, [0], by decide +kernel⟩,
    ⟨sP { fp .active with req := some ⟨2, 0, 4, 0⟩ }, 0, ⟨2, 0, 4, 0⟩, by decide +kernel⟩,
    ⟨sF .active, 0, by decide +kernel⟩,
    ⟨sP { fp .active with rx := { LaneMap.init with retired := 1, map := [4, 1, 2, 3], spare := 7 } }, 0, 0, by decide +kernel⟩,
    ⟨sP { fp .active with rx := { LaneMap.init with retired := 1, map := [4, 1, 2, 3], spare := 7, shadow := some 0 } }, 0, 0, 0, 0, by decide +kernel⟩,
    ⟨sP { fp .active with replay := [⟨0, 1, 0, 0, [], 1⟩] }, 0, lreq 3 1 0, ⟨0, 1, 0, 0, [], 1⟩, [], good_of _ _ _ rfl (by decide +kernel) (by decide +kernel), by decide +kernel⟩,
    ⟨sP (fp .active), 0, lreq 3 2 4, 0, 4, 0, good_of _ _ _ rfl (by decide +kernel) (by decide +kernel), by decide +kernel⟩,
    ⟨sP (fp .active), 0, lreq 3 3 4, 4, good_of _ _ _ rfl (by decide +kernel) (by decide +kernel), by decide +kernel⟩,
    ⟨sP (fp .active), 0, lreq 3 2 4, 0, 4, 0, good_of _ _ _ rfl (by decide +kernel) (by decide +kernel), by decide +kernel⟩,
    ⟨sP (fp .active), 0, lreq 3 3 4, 4, good_of _ _ _ rfl (by decide +kernel) (by decide +kernel), by decide +kernel⟩,
    ⟨sP (fp .active), 0, lreq 3 4 0, good_of _ _ _ rfl (by decide +kernel) (by decide +kernel), by decide +kernel⟩,
    ⟨sP { fp .active with tx := { LaneMap.init with shadow := some 0 } }, 0, lreq 3 5 0, 0, 0, good_of _ _ _ rfl (by decide +kernel) (by decide +kernel), by decide +kernel⟩,
    ⟨sP (fp .active), 0, lreq 2 1 0, 0, good_of _ _ _ rfl (by decide +kernel) (by decide +kernel), by decide +kernel⟩⟩
theorem witness_FlitsArrive :
    (∃ (s : State) (p : Fin 12) (words : List (BitVec 72)), (FlitGood s p words 0) ∧ (LinkQuiet s p) ∧ ((s.fport ↑p).untold = false)) ∧
    (∃ (s : State) (p : Fin 12) (words : List (BitVec 72)), (FlitGood s p words 1) ∧ (LinkQuiet s p) ∧ ((s.fport ↑p).freed = [0, 0, 0, 0]) ∧ ((flitIn words).seq = (s.fport ↑p).rxSeq) ∧ (takeFrame ((s.fport ↑p).rxBuf.getD (flitIn words).cls [] ++ List.flatMap (leBytes 8) (List.take (flitIn words).count (flitIn words).payload)) = none)) ∧
    (∃ (f : Frame) (more : List Byte), f.body.length < 2 ^ 24) ∧
    (∃ (s : State) (p : Fin 12) (words : List (BitVec 72)) (c : Instr), ((s.fport ↑p).st = FlumeState.active) ∧ ((flitIn words).ok = false) ∧ ((s.fport ↑p).nakSent = false) ∧ ((s.fport ↑p).req = none) ∧ ((s.fport ↑p).rxFails < 7) ∧ (c ∈ [Instr.idle p words, Instr.data p words, Instr.mark p words, Instr.nak p words, Instr.spare p words, Instr.narrow p words, Instr.admitLane p words, Instr.switched p words])) ∧
    (∃ (s : State) (p : Fin 12) (words : List (BitVec 72)), (FlitGood s p words 1) ∧ ((flitIn words).seq ≠ (s.fport ↑p).rxSeq) ∧ ((s.fport ↑p).nakSent = true) ∧ ((s.fport ↑p).rxFails < 8)) :=
  ⟨⟨sP (fp .active), 0, flitWords 0 0 0 0 0xFFFF 0 0 [], good_of _ _ _ rfl (by decide +kernel) (by decide +kernel), ⟨by decide +kernel, by decide +kernel⟩, by decide +kernel⟩,
    ⟨sP (fp .active), 0, flitWords 1 0 0 0 0xFFFF 0 0 [], good_of _ _ _ rfl (by decide +kernel) (by decide +kernel), ⟨by decide +kernel, by decide +kernel⟩, by decide +kernel⟩,
    ⟨frm 1 0 0 [1], [], by decide +kernel⟩,
    ⟨sF .active, 0, [], .idle 0 [], by decide +kernel⟩,
    ⟨sP { fp .active with nakSent := true }, 0, flitWords 1 0 0 1 0xFFFF 0 0 [], good_of _ _ _ rfl (by decide +kernel) (by decide +kernel), by decide +kernel⟩⟩
theorem witness_FramesForwarded :
    (∃ (s : State) (p : Fin 12) (f : Frame) (img : Image), f.dest.toNat ≠ s.wheel.device) ∧
    (∀ k ∈ [(1 : Byte), 2, 3, 4, 5, 6, 9], ∃ (s : State) (p : Fin 12) (f : Frame) (img : Image), (f.dest.toNat ≠ s.wheel.device) ∧ (FrameIn s p f k img)) ∧
    (∃ (s : State) (p : Fin 12) (f : Frame) (img : Image), (s.image = some img) ∧ (img.hasBuckets = true) ∧ (s.role ↑p = 0 ∨ s.role ↑p = 7 ∨ (s.fport ↑p).peerGm6 = true)) ∧
    (∃ (s : State) (p : Fin 12) (f : Frame) (img : Image), ((s.fport ↑p).st = FlumeState.active) ∧ (s.image = some img) ∧ (s.wheel.valid = true) ∧ ((s.fport ↑p).peerGm6 = false) ∧ (1 ≤ s.role ↑p) ∧ (s.role ↑p ≤ 6) ∧ (s.wheel.active = false)) ∧
    (∀ k ∈ [(1 : Byte), 2, 3], ∃ (s : State) (p : Fin 12) (f : Frame) (img : Image), ((s.fport ↑p).st = FlumeState.active) ∧ (s.image = some img) ∧ (s.wheel.valid = true) ∧ ((s.fport ↑p).peerGm6 = false) ∧ (1 ≤ s.role ↑p) ∧ (s.role ↑p ≤ 6) ∧ (s.wheel.active = false) ∧ (f.kind = k)) ∧
    (∃ (e : Nat) (ns : List Byte) (resc : Bool) (xs : List Nat), e = 255 ∨ (xs.any fun x => !(dec32 x).isFinite) = true) ∧
    (∃ (e : Nat) (ns : List Byte) (resc : Bool) (xs : List Nat), (e < 255) ∧ ((xs.any fun x => !(dec32 x).isFinite) = false) ∧ (ns.length = 32) ∧ (xs.length = 32)) :=
  ⟨⟨sG 0 Bucket.init, 0, frm 1 0 1 [], imgG 0, by decide +kernel⟩,
    fun k _ => ⟨sG 0 Bucket.init, 0, frm k 0 1 [], imgG 0, by show (1 : BitVec 13).toNat ≠ 0; decide, ⟨by decide +kernel, rfl, rfl, rfl, by decide +kernel, by decide +kernel, fun _ => rfl, rfl⟩⟩,
    ⟨sG 0 Bucket.init, 2, frm 1 0 1 [], imgG 0, rfl, by decide +kernel⟩,
    ⟨{ sG 0 Bucket.init with wheel := { (sG 0 Bucket.init).wheel with active := false } }, 0, frm 1 0 0 [], imgG 0, by decide +kernel, rfl, rfl, by decide +kernel⟩,
    fun k _ => ⟨{ sG 0 Bucket.init with wheel := { (sG 0 Bucket.init).wheel with active := false } }, 0, frm k 0 0 [], imgG 0, by decide +kernel, rfl, rfl, by decide +kernel, by decide +kernel, by decide +kernel, rfl, rfl⟩,
    ⟨255, [], false, [], by decide +kernel⟩,
    ⟨127, List.replicate 32 0, false, List.replicate 32 0, by decide +kernel⟩⟩
theorem witness_RingChunks :
    (∃ (s : State) (p : Fin 12) (f : Frame) (img : Image) (b : Nat) (j : Nat) (stage : Nat) (st : RStage) (r : RRange), (FrameHere s p f 1 img) ∧ (b = BitVec.toNat f.id / 65536) ∧ (j = BitVec.toNat f.id % 65536) ∧ (RingPlace s img (↑p) b j stage st r) ∧ ((img.bucket b).mode = 0) ∧ ((s.bucketSt b).st = BucketState.reducing) ∧ (stage < (s.bucketSt b).counts.length) ∧ ((s.bucketSt b).handled stage j < pieceFrames (r.piece j).fst (r.piece j).snd) ∧ (j = st.me)) ∧
    (∃ (s : State) (p : Fin 12) (f : Frame) (img : Image) (b : Nat) (j : Nat) (stage : Nat) (st : RStage) (r : RRange), (FrameHere s p f 1 img) ∧ (b = BitVec.toNat f.id / 65536) ∧ (j = BitVec.toNat f.id % 65536) ∧ (RingPlace s img (↑p) b j stage st r) ∧ ((img.bucket b).mode = 0) ∧ ((s.bucketSt b).st = BucketState.reducing) ∧ (stage < (s.bucketSt b).counts.length) ∧ ((s.bucketSt b).handled stage j < pieceFrames (r.piece j).fst (r.piece j).snd) ∧ (j ≠ st.me)) ∧
    (∃ (p : Fin 12) (f : Frame) (img : Image) (s : State), (FrameHere s p f 1 img) ∧ (s.portStage img ↑p = none)) :=
  ⟨⟨sG 0 ringB, 0, frm 1 0 0 [], imgG 0, 0, 0, 0, ⟨0, 2, 0⟩, ⟨0, 64, 32⟩, frm_here _ _ _ _ _ _ (by decide +kernel) (by decide +kernel) (by decide +kernel), by decide +kernel, by decide +kernel, ⟨by decide +kernel, by decide +kernel, by decide +kernel, by decide +kernel, by decide +kernel⟩, by decide +kernel⟩,
    ⟨sG 0 ringB, 0, frm 1 1 0 [], imgG 0, 0, 1, 0, ⟨0, 2, 0⟩, ⟨0, 64, 32⟩, frm_here _ _ _ _ _ _ (by decide +kernel) (by decide +kernel) (by decide +kernel), by decide +kernel, by decide +kernel, ⟨by decide +kernel, by decide +kernel, by decide +kernel, by decide +kernel, by decide +kernel⟩, by decide +kernel⟩,
    ⟨1, frm 1 0 0 [], imgG 0, sG 0 ringB, frm_here _ _ _ _ _ _ (by decide +kernel) (by decide +kernel) (by decide +kernel), by decide +kernel⟩⟩
theorem witness_GroupFrames :
    (∃ (s : State) (p : Fin 12) (f : Frame) (img : Image) (b : Nat), (FrameHere s p f 2 img) ∧ (b = BitVec.toNat f.id / 65536) ∧ (b < img.bucketCount) ∧ ((img.bucket b).mode ≠ 0) ∧ ((s.bucketSt b).st = BucketState.filling ∨ (s.bucketSt b).st = BucketState.reducing) ∧ (((s.bucketSt b).contribs.any fun x => x.fst == f.src.toNat) = false)) ∧
    (∃ (s : State) (p : Fin 12) (f : Frame) (img : Image) (b : Nat), (FrameHere s p f 2 img) ∧ (b = BitVec.toNat f.id / 65536) ∧ (b < img.bucketCount) ∧ ((img.bucket b).mode ≠ 0) ∧ ((s.bucketSt b).st = BucketState.waiting)) ∧
    (∃ (s : State) (p : Fin 12) (f : Frame) (img : Image) (b : Nat) (j : Nat) (stage : Nat) (st : RStage) (r : RRange), (FrameHere s p f 3 img) ∧ (b = BitVec.toNat f.id / 65536) ∧ (j = BitVec.toNat f.id % 65536) ∧ (RingPlace s img (↑p) b j stage st r) ∧ (j ≠ st.me) ∧ (Quiet s) ∧ (s.run.set = false) ∧ ((s.bucketSt b).st = BucketState.gathering) ∧ ((s.bucketSt b).gatherStage = stage + 1) ∧ ((s.bucketSt b).gotBytes stage j = none) ∧ (f.body.length < (img.bucket b).pbytes * ((r.piece j).snd - (r.piece j).fst)) ∧ ((img.bucket b).param + (img.bucket b).pbytes * (r.piece j).snd ≤ 721554505728)) ∧
    (∃ (s : State) (p : Fin 12) (f : Frame) (img : Image) (a : Nat) (l : Nat) (row : Nat) (rows : Nat) (ex : Nat) (c : ExchCtx) (ret : Bool), (FrameHere s p f (if ret = true then 5 else 4) img) ∧ (img.laneOf f.count.toNat = some (a, l)) ∧ (s.exchCtx img a = some c) ∧ (c.x.ret = ret) ∧ (s.exchClosed img a = false) ∧ (c.landing s.wheel.device f.src.toNat l (bitsOf (BitVec.toNat f.id) 18 16) f.pos.toNat = some (row, rows, ex)) ∧ (Quiet s) ∧ (s.run.set = false) ∧ (f.body.length = c.bytes) ∧ (c.bytes ≤ c.stride) ∧ (row < rows) ∧ (c.x.recv + c.stride * rows + 8 * rows ≤ 721554505728)) ∧
    (∃ (s : State) (p : Fin 12) (f : Frame) (img : Image) (a : Nat) (l : Nat) (row : Nat) (rows : Nat) (ex : Nat) (c : ExchCtx) (ret : Bool), (img.laneOf f.count.toNat = some (a, l)) ∧ (s.exchCtx img a = some c) ∧ (c.x.ret = ret) ∧ (s.exchClosed img a = false) ∧ (c.landing s.wheel.device f.src.toNat l (bitsOf (BitVec.toNat f.id) 18 16) f.pos.toNat = some (row, rows, ex)) ∧ (Quiet s) ∧ (s.run.set = false) ∧ (f.body.length = c.bytes) ∧ (c.bytes ≤ c.stride) ∧ (row < rows) ∧ (c.x.recv + c.stride * rows + 8 * rows ≤ 721554505728)) ∧
    (∃ (s : State) (p : Fin 12) (f : Frame) (img : Image) (a : Nat) (l : Nat) (row : Nat) (rows : Nat) (ex : Nat) (c : ExchCtx) (ret : Bool), (img.laneOf f.count.toNat = some (a, l)) ∧ (s.exchCtx img a = some c) ∧ (c.x.ret = ret) ∧ (s.exchClosed img a = false) ∧ (c.landing s.wheel.device f.src.toNat l (bitsOf (BitVec.toNat f.id) 18 16) f.pos.toNat = some (row, rows, ex)) ∧ (Quiet s) ∧ (s.run.set = false) ∧ (f.body.length = c.bytes) ∧ (c.bytes ≤ c.stride) ∧ (row < rows) ∧ (c.x.recv + c.stride * rows + 8 * rows ≤ 721554505728) ∧ (FrameHere s p f 4 img) ∧ (ret = false)) ∧
    (∃ (s : State) (p : Fin 12) (f : Frame) (img : Image) (a : Nat) (l : Nat) (row : Nat) (rows : Nat) (ex : Nat) (c : ExchCtx) (ret : Bool), (img.laneOf f.count.toNat = some (a, l)) ∧ (s.exchCtx img a = some c) ∧ (c.x.ret = ret) ∧ (s.exchClosed img a = false) ∧ (c.landing s.wheel.device f.src.toNat l (bitsOf (BitVec.toNat f.id) 18 16) f.pos.toNat = some (row, rows, ex)) ∧ (Quiet s) ∧ (s.run.set = false) ∧ (f.body.length = c.bytes) ∧ (c.bytes ≤ c.stride) ∧ (row < rows) ∧ (c.x.recv + c.stride * rows + 8 * rows ≤ 721554505728) ∧ (FrameHere s p f 5 img) ∧ (ret = true)) ∧
    (∃ (s : State) (p : Fin 12) (f : Frame) (img : Image) (a : Nat) (l : Nat) (i : Nat) (c : ExchCtx), (FrameHere s p f 6 img) ∧ (a = BitVec.toNat f.id / 65536) ∧ (l = BitVec.toNat f.id % 65536) ∧ (s.exchCtx img a = some c) ∧ (i = l * 8 * c.x.g + 8 * (f.src.toNat % c.x.g) + f.pos.toNat % 8) ∧ (s.exchClosed img a = false) ∧ (((s.exchSt a).counts.any fun x => x.fst == i) = false) ∧ (Quiet s) ∧ (s.run.set = false) ∧ (c.x.counts + 4 * i + 4 ≤ 721554505728)) ∧
    (∃ (s : State) (p : Fin 12) (f : Frame) (img : Image), (FrameHere s p f 9 img) ∧ (f.body.length ≠ 8 * img.bucketCount) ∧ (NMap.get none s.wheel.records f.src.toNat = none)) :=
  ⟨⟨sG 1 ringB, 0, frm 2 0 0 [], imgG 1, 0, frm_here _ _ _ _ _ _ (by decide +kernel) (by decide +kernel) (by decide +kernel), by decide +kernel⟩,
    ⟨sG 1 Bucket.init, 0, frm 2 0 0 [], imgG 1, 0, frm_here _ _ _ _ _ _ (by decide +kernel) (by decide +kernel) (by decide +kernel), by decide +kernel⟩,
    ⟨sG 0 gathB, 0, frm 3 1 0 [], imgG 0, 0, 1, 0, ⟨0, 2, 0⟩, ⟨0, 64, 32⟩, frm_here _ _ _ _ _ _ (by decide +kernel) (by decide +kernel) (by decide +kernel), by decide +kernel, by decide +kernel, ⟨by decide +kernel, by decide +kernel, by decide +kernel, by decide +kernel, by decide +kernel⟩, by decide +kernel, quiet_of _ (by decide +kernel), by decide +kernel⟩,
    ⟨sG 0 Bucket.init, 0, frm 4 0 0 [1, 2, 3, 4], imgG 0, 0, 0, 0, 8, 0, ((sG 0 Bucket.init).exchCtx (imgG 0) 0).get (by decide +kernel), false, frm_here _ _ _ _ _ _ (by decide +kernel) (by decide +kernel) (by decide +kernel), by decide +kernel, some_of _ _, by decide +kernel, by decide +kernel, by decide +kernel, quiet_of _ (by decide +kernel), by decide +kernel⟩,
    ⟨sG 0 Bucket.init, 0, frm 4 0 0 [1, 2, 3, 4], imgG 0, 0, 0, 0, 8, 0, ((sG 0 Bucket.init).exchCtx (imgG 0) 0).get (by decide +kernel), false, by decide +kernel, some_of _ _, by decide +kernel, by decide +kernel, by decide +kernel, quiet_of _ (by decide +kernel), by decide +kernel⟩,
    ⟨sG 0 Bucket.init, 0, frm 4 0 0 [1, 2, 3, 4], imgG 0, 0, 0, 0, 8, 0, ((sG 0 Bucket.init).exchCtx (imgG 0) 0).get (by decide +kernel), false, by decide +kernel, some_of _ _, by decide +kernel, by decide +kernel, by decide +kernel, quiet_of _ (by decide +kernel), by decide +kernel, by decide +kernel, by decide +kernel, by decide +kernel, by decide +kernel, frm_here _ _ _ _ _ _ (by decide +kernel) (by decide +kernel) (by decide +kernel), rfl⟩,
    ⟨sGa 2 2 Bucket.init ex2, 0, { frm 5 0 0 [1, 2, 3, 4] with count := 1 }, imgX 2 0 2, 1, 0, 0, 8, 0, ((sGa 2 2 Bucket.init ex2).exchCtx (imgX 2 0 2) 1).get (by decide +kernel), true, by decide +kernel, some_of _ _, by decide +kernel, by decide +kernel, by decide +kernel, quiet_of _ (by decide +kernel), by decide +kernel, by decide +kernel, by decide +kernel, by decide +kernel, by decide +kernel, ⟨⟨by decide +kernel, rfl, rfl, rfl, by decide +kernel, by decide +kernel, fun _ => rfl, rfl⟩, rfl, rfl, rfl⟩, rfl⟩,
    ⟨sG 0 Bucket.init, 0, frm 6 0 0 [], imgG 0, 0, 0, 0, ((sG 0 Bucket.init).exchCtx (imgG 0) 0).get (by decide +kernel), frm_here _ _ _ _ _ _ (by decide +kernel) (by decide +kernel) (by decide +kernel), by decide +kernel, by decide +kernel, some_of _ _, by decide +kernel, by decide +kernel, by decide +kernel, quiet_of _ (by decide +kernel), by decide +kernel⟩,
    ⟨sG 0 Bucket.init, 0, frm 9 0 0 [], imgG 0, frm_here _ _ _ _ _ _ (by decide +kernel) (by decide +kernel) (by decide +kernel), by decide +kernel⟩⟩
theorem witness_WindowWrites :
    (∃ (s : State) (p : Fin 12) (f : Frame) (img : Image) (w : WindowDef), ((s.fport ↑p).st = FlumeState.active) ∧ (f.kind = 7) ∧ (s.image = some img) ∧ (img.windows = true) ∧ (img.windowDefs[bitsOf (BitVec.toNat f.id) 31 28]? = some w) ∧ (s.syn = []) ∧ (s.wheel.heldFrames = []) ∧ (f.body.length % 8 = 0) ∧ (f.body.length ≤ 4096) ∧ (bitsOf (BitVec.toNat f.id) 20 0 + f.body.length ≤ w.len) ∧ (∀ (x : BankState), x ∈ s.banksIn (img.phys w.mill) (w.off + bitsOf (BitVec.toNat f.id) 20 0) f.body.length → x = BankState.on) ∧ (bitOf w.ports ↑p = true) ∧ ((s.fport ↑p).peerGm6 = true) ∧ (w.peer = 0) ∧ (s.ctx.active = true) ∧ (bitOf (BitVec.toNat f.id) 27 = false)) ∧
    (∃ (s : State) (p : Fin 12) (f : Frame), ((s.fport ↑p).st = FlumeState.active) ∧ (f.kind = 7) ∧ (s.image = none) ∧ (s.wheel.heldFrames = [])) ∧
    (∃ (s : State) (p : Fin 12) (f : Frame) (img : Image) (w : WindowDef), ((s.fport ↑p).st = FlumeState.active) ∧ (f.kind = 7) ∧ (s.image = some img) ∧ (img.windows = true) ∧ (img.windowDefs[bitsOf (BitVec.toNat f.id) 31 28]? = some w) ∧ (s.wheel.heldFrames = []) ∧ (f.body.length % 8 = 0) ∧ (f.body.length ≤ 4096) ∧ (bitsOf (BitVec.toNat f.id) 20 0 + f.body.length ≤ w.len) ∧ (∃ x, x ∈ s.banksIn (img.phys w.mill) (w.off + bitsOf (BitVec.toNat f.id) 20 0) f.body.length ∧ (x = BankState.off ∨ x = BankState.closing))) ∧
    (∃ (s : State) (m : Nat) (off : Nat) (n : Nat) (a : Nat), (0 < n) ∧ (off ≤ a) ∧ (a < off + n)) ∧
    (∃ (s : State) (p : Fin 12), (s.run.job ≠ 0) ∧ (1 ≤ s.role ↑p) ∧ (s.role ↑p ≤ 6) ∧ ((s.fport ↑p).st = FlumeState.down ∨ (s.fport ↑p).st = FlumeState.active ∧ (s.fport ↑p).peerSerial ≠ some (s.fport ↑p).nowSerial)) ∧
    (∃ (s : State) (p : Fin 12), ((s.fport ↑p).st = FlumeState.active) ∧ ((s.fport ↑p).peerSerial = some (s.fport ↑p).nowSerial)) :=
  ⟨⟨sW, 0, frm 7 0 0 (leBytes 8 5), imgW, ⟨0, 0, 64, 1, 0, 0⟩, by decide +kernel, by decide +kernel, rfl, by decide +kernel⟩,
    ⟨sF .active, 0, frm 7 0 0 [], by decide +kernel⟩,
    ⟨{ sW with banks := [] }, 0, frm 7 0 0 (leBytes 8 5), imgW, ⟨0, 0, 64, 1, 0, 0⟩, by decide +kernel, by decide +kernel, rfl, by decide +kernel⟩,
    ⟨sW, 0, 0, 8, 7, by decide +kernel⟩,
    ⟨{ sF .down with run := { Run.init with job := 1 }, wheel := { Wheel.init with roles := [1] } }, 0, by decide +kernel⟩,
    ⟨sP { fp .active with peerSerial := some 0 }, 0, by decide +kernel⟩⟩
theorem witness_QueuePairs :
    (∃ (s : State) (n : Nat) (psn : BitVec 24) (d : List Byte) (q : Qp) (r : Req), (s.qpLive n = some q) ∧ (q.find psn = some r) ∧ (r.read = true) ∧ (d.length = r.len)) ∧
    (∃ (s : State) (n : Nat) (psn : BitVec 24) (d : List Byte) (q : Qp) (c : Instr), (s.qpLive n = some q) ∧ (q.find psn = none) ∧ (c ∈ [Instr.roceReadResponse n psn d, Instr.roceSeqNak n psn, Instr.roceRnrNak n psn])) ∧
    (∃ (s : State) (n : Nat) (psn : BitVec 24) (q : Qp), (s.qpLive n = some q) ∧ (q.reqs.any (q.acks psn) = true)) ∧
    (∃ (s : State) (n : Nat) (psn : BitVec 24) (q : Qp) (r : Req), (s.qpLive n = some q) ∧ (q.find psn = some r)) ∧
    (∃ (s : State) (n : Nat) (psn : BitVec 24) (q : Qp) (r : Req), (s.qpLive n = some q) ∧ (q.find psn = some r)) ∧
    (∃ (s : State) (n : Nat) (at_ : Nat) (q : Qp) (r : Req), (s.qp n = some q) ∧ (q.reqs = [r]) ∧ (r.rnrAt = some at_) ∧ (at_ + 1000000 ≤ s.time.ns)) ∧
    (∃ (s : State) (n : Nat) (psn : BitVec 24) (q : Qp) (r : Req), (s.qp n = some q) ∧ (q.reqs = [r]) ∧ (q.find psn = some r) ∧ (r.rnrAt = none) ∧ (r.sentAt + 10000000 ≤ s.time.ns) ∧ (r.retries < 4) ∧ (r.owner = ReqOwner.restTable ∨ r.owner = ReqOwner.snapTable)) ∧
    (∃ (s : State) (p : Fin 2) (n : Nat) (psn : BitVec 24), (s.up = true) ∧ ((s.port ↑p).linkUp = true) ∧ (s.qp n = none)) ∧
    (∃ (s : State) (n : Nat) (q : Qp), s.qpLive n = some q) ∧
    (∃ (s : State) (n : Nat) (q : Qp), (s.qp n = some q) ∧ (q.lastCnp + 100000 ≤ s.time.ns)) ∧
    (∃ (s : State) (psn : BitVec 24) (img : Image) (n : Nat) (q : Qp) (r : Req), (s.image = some img) ∧ (s.dataReq psn = some (n, q, r)) ∧ (s.run.data.retries < img.rtRetryLimit)) :=
  ⟨⟨sQ [rq .data true], 256, 0, [], qpOf [rq .data true], rq .data true, by decide +kernel⟩,
    ⟨sQ [], 256, 0, [], qpOf [], .roceSeqNak 256 0, by decide +kernel⟩,
    ⟨sQ [rq .snapTable false], 256, 0, qpOf [rq .snapTable false], by decide +kernel⟩,
    ⟨sQ [rq .data true], 256, 0, qpOf [rq .data true], rq .data true, by decide +kernel⟩,
    ⟨sQ [rq .data true], 256, 0, qpOf [rq .data true], rq .data true, by decide +kernel⟩,
    ⟨sQ [{ rq .data true with rnrAt := some 0 }], 256, 0, qpOf [{ rq .data true with rnrAt := some 0 }], { rq .data true with rnrAt := some 0 }, by decide +kernel⟩,
    ⟨sQ [rq .restTable true], 256, 0, qpOf [rq .restTable true], rq .restTable true, by decide +kernel⟩,
    ⟨sUp, 0, 5, 0, by decide +kernel⟩,
    ⟨sQ [], 256, qpOf [], by decide +kernel⟩,
    ⟨sQ [], 256, qpOf [], by decide +kernel⟩,
    ⟨{ sQ [rq .data true] with image := some ⟨[], 0, false, [(0xF, leBytes 128 (2 ^ 28))]⟩ }, 0, ⟨[], 0, false, [(0xF, leBytes 128 (2 ^ 28))]⟩, 256, qpOf [rq .data true], rq .data true, rfl, by decide +kernel⟩⟩
theorem witness_StreamControl :
    (∃ (s : State) (sid : Sid) (e : Issue), s.issue sid.owner sid.kind 0 = some e) ∧
    (∃ (s : State) (sid : Sid) (e : Issue), s.issue sid.owner sid.kind 4 = some e) ∧
    (∃ (s : State) (sid : Sid) (e : Issue) (key : Nat), (s.issue sid.owner sid.kind 4 = some e) ∧ (s.stalledTurn e.img e.k = none) ∧ (e.ins.op 47 16 ≠ 0 → s.portServes e.img (e.ins.op 15 0) = true) ∧ (key = dueKey (e.ins.op 15 0) (e.ins.op 51 48) false)) ∧
    (∃ (s : State) (sid : Sid) (e : Issue), (s.issue sid.owner sid.kind 4 = some e) ∧ (e.ins.op 47 16 ≠ 0) ∧ (s.portServes e.img (e.ins.op 15 0) = false)) ∧
    (∃ (s : State) (sid : Sid) (e : Issue), s.issue sid.owner sid.kind 1 = some e) ∧
    (∃ (u : Stream), (u.loops.all fun l => decide (l.stop ≠ u.pc + 1)) = true) ∧
    (∃ (u : Stream) (l : LoopSt) (ls : List LoopSt), (u.loops = l :: ls) ∧ (l.stop = u.pc + 1) ∧ (0 < l.left)) ∧
    (∃ (u : Stream) (l : LoopSt) (ls : List LoopSt), (u.loops = l :: ls) ∧ (l.stop = u.pc + 1) ∧ (l.left = 0) ∧ ((ls.all fun x => decide (x.stop ≠ u.pc + 1)) = true)) ∧
    (∃ (s : State) (sid : Sid) (e : Issue), (s.issue sid.owner sid.kind 5 = some e) ∧ (e.kind = 2 ∨ e.kind = 4)) ∧
    (∃ (s : State) (sid : Sid) (e : Issue), s.issue sid.owner sid.kind 2 = some e) :=
  ⟨⟨sRun 2 (noD 0) [] [], ⟨0, 2⟩, isR 2 (noD 0) [] [], by decide +kernel⟩,
    ⟨sRun 2 (noD 4) [] [], ⟨0, 2⟩, isR 2 (noD 4) [] [], by decide +kernel⟩,
    ⟨sRun 2 (insB 4 0 0xFFFF 0xFFFF 0xFFFF 0xFFFF (0x3000 + 2 ^ 16 + 2 ^ 49)) [] [], ⟨0, 2⟩, isR 2 (insB 4 0 0xFFFF 0xFFFF 0xFFFF 0xFFFF (0x3000 + 2 ^ 16 + 2 ^ 49)) [] [], _, by decide +kernel, by decide +kernel, by decide +kernel, rfl⟩,
    ⟨sRun 2 (insB 4 0 0xFFFF 0xFFFF 0xFFFF 0xFFFF (0x3FFF + 2 ^ 16 + 2 ^ 49)) [] [], ⟨0, 2⟩, isR 2 (insB 4 0 0xFFFF 0xFFFF 0xFFFF 0xFFFF (0x3FFF + 2 ^ 16 + 2 ^ 49)) [] [], by decide +kernel⟩,
    ⟨sRun 2 (noD 1) [] [], ⟨0, 2⟩, isR 2 (noD 1) [] [], by decide +kernel⟩,
    ⟨Stream.init, by decide +kernel⟩,
    ⟨{ Stream.init with loops := [⟨0, 1, 1⟩] }, ⟨0, 1, 1⟩, [], by decide +kernel⟩,
    ⟨{ Stream.init with loops := [⟨0, 1, 0⟩] }, ⟨0, 1, 0⟩, [], by decide +kernel⟩,
    ⟨sRun 2 (noD 5) [] [], ⟨0, 2⟩, isR 2 (noD 5) [] [], by decide +kernel⟩,
    ⟨sRun 2 (noD 2) [] [], ⟨0, 2⟩, isR 2 (noD 2) [] [], by decide +kernel⟩⟩
theorem witness_WeirEntry :
    (∃ (s : State) (e : Issue), s.issue 0 2 3 = some e ∧ e.img.weirOf s.ctx.table (e.ins.op 15 0) = some 0 ∧ e.img.weirIndex 0 e.owner e.kind = some 0 ∧ s.lossPages e.img 0 = [] ∧ e.img.weirPhys 0 = 3 ∧ (s.weirSt 3).counted.contains 0 = false ∧ (s.weirSt 3).counted.length + 1 < e.img.weirN 0) ∧
    (∃ (s : State) (e : Issue), s.issue 0 2 3 = some e ∧ e.img.weirOf s.ctx.table (e.ins.op 15 0) = some 0 ∧ e.img.weirIndex 0 e.owner e.kind = some 0 ∧ s.lossPages e.img 0 = [] ∧ e.img.weirPhys 0 = 3 ∧ (s.weirSt 3).counted.contains 0 = false ∧ (s.weirSt 3).counted.length + 1 = e.img.weirN 0 ∧ (s.weirSt 3).held = [] ∧ e.img.hasRt = false) ∧
    (∃ (s : State) (e : Issue), s.issue 0 2 3 = some e ∧ e.img.weirOf s.ctx.table (e.ins.op 15 0) = some 0 ∧ e.img.weirIndex 0 e.owner e.kind = some 0 ∧ s.lossPages e.img 0 = [] ∧ e.img.weirPhys 0 = 3 ∧ (s.weirSt 3).counted.contains 0 = true ∧ ((s.weirSt 3).held.any fun h => h.1 == 0) = false) ∧
    (∃ (s : State) (e : Issue), s.issue 0 2 3 = some e ∧ e.img.weirOf s.ctx.table (e.ins.op 15 0) = some 0 ∧ e.img.weirIndex 0 e.owner e.kind = some 0 ∧ s.lossPages e.img 0 = [] ∧ e.img.weirPhys 0 = 3 ∧ (s.weirSt 3).counted.contains 0 = true ∧ ((s.weirSt 3).held.any fun h => h.1 == 0) = true ∧ s.weirLog.valid = false) ∧
    (∃ (s : State) (sid : Sid) (e : Issue) (w : Nat) (i : Nat) (p : Nat), (s.issue sid.owner sid.kind 3 = some e) ∧ (e.img.weirOf s.ctx.table (e.ins.op 15 0) = some w) ∧ (e.img.weirIndex w e.owner e.kind = some i) ∧ (s.lossPages e.img w = []) ∧ (p = e.img.weirPhys w)) :=
  ⟨⟨sWeir 2 (WeirSt.init), (sWeir 2 (WeirSt.init)).issue 0 2 3 |>.get (by decide +kernel), some_of _ _, by decide +kernel⟩,
    ⟨sWeir 1 (WeirSt.init), (sWeir 1 (WeirSt.init)).issue 0 2 3 |>.get (by decide +kernel), some_of _ _, by decide +kernel⟩,
    ⟨sWeir 2 ({ WeirSt.init with counted := [0] }), (sWeir 2 ({ WeirSt.init with counted := [0] })).issue 0 2 3 |>.get (by decide +kernel), some_of _ _, by decide +kernel⟩,
    ⟨sWeir 2 ({ WeirSt.init with counted := [0], held := [(0, true)] }), (sWeir 2 ({ WeirSt.init with counted := [0], held := [(0, true)] })).issue 0 2 3 |>.get (by decide +kernel), some_of _ _, by decide +kernel⟩,
    ⟨sWeir 2 WeirSt.init, ⟨0, 2⟩, (sWeir 2 WeirSt.init).issue 0 2 3 |>.get (by decide +kernel), 0, 0, 3, some_of _ _, by decide +kernel⟩⟩
theorem witness_BankPower :
    (∃ (s : State) (img : Image) (l : Fin 144) (b : Fin 16) (x : Bank), (s.image = some img) ∧ (s.ctx.active = true) ∧ (s.bank (img.phys ↑l) ↑b = x)) ∧
    ((∀ st ∈ [BankState.off, .waking, .on, .closing], ∃ (s : State) (img : Image) (l : Fin 144) (b : Fin 16) (x : Bank), s.image = some img ∧ s.ctx.active = true ∧ s.bank (img.phys l) b = x ∧ x.st = st)) ∧
    (∃ (s : State) (m : Fin 152) (b : Fin 16) (x : Bank), s.bank ↑m ↑b = x) ∧
    (∃ s : State, (s.bank 0 0).st = .waking) ∧
    (∃ s : State, (s.bank 0 0).st = .closing ∧ s.bankBusy 0 0 = false) ∧
    (∃ s : State, (s.bank 0 0).st = .on ∧ (s.bank 0 0).closeNext = true ∧ s.bankBusy 0 0 = false) ∧
    (∃ (s : State) (m : Fin 152) (b : Fin 16), (s.bank ↑m ↑b).st ≠ BankState.waking) ∧
    (∃ (s : State) (m : Fin 152) (b : Fin 16), (s.bank ↑m ↑b).st ≠ BankState.closing) ∧
    (∃ (s : State) (m : Fin 152) (b : Fin 16), s.bankBusy ↑m ↑b = true ∨ (s.bank ↑m ↑b).st = BankState.off ∨ (s.bank ↑m ↑b).st = BankState.waking ∨ (s.bank ↑m ↑b).st = BankState.on ∧ (s.bank ↑m ↑b).closeNext = false) ∧
    (∃ s : State, s.bankBusy 0 0 = true ∧ (s.bank 0 0).st = .closing) ∧
    (∃ (s : State) (img : Image) (m : Nat) (b : Nat), s.image = some img) :=
  ⟨⟨sOn bank1, img0, 0, 0, bank1, rfl, rfl, rfl⟩,
    fun st _ => ⟨sOn { Bank.init with st := st }, img0, 0, 0, { Bank.init with st := st }, rfl, rfl, rfl, rfl⟩,
    ⟨sOn bank1, 0, 0, bank1, rfl⟩,
    ⟨sOn { Bank.init with st := .waking }, by decide +kernel⟩,
    ⟨sOn { Bank.init with st := .closing }, by decide +kernel⟩,
    ⟨sOn { bank1 with closeNext := true }, by decide +kernel⟩,
    ⟨sOn offB, 0, 0, (by decide +kernel)⟩,
    ⟨sOn offB, 0, 0, by decide +kernel⟩,
    ⟨sOn offB, 0, 0, by decide +kernel⟩,
    ⟨{ sOn { Bank.init with st := .closing } with due := [(32 * 0x1000, [⟨0, 1, 1, 0⟩])] }, by decide +kernel⟩,
    ⟨sOn offB, img0, 0, 0, rfl⟩⟩
theorem witness_MemoryOperations :
    (∃ (s : State) (img : Image) (m : Fin 152) (req : BitVec 4) (off : BitVec 21) (x : Word64) (y : Word64), (s.image = some img) ∧ (s.ctx.active = true) ∧ (memOpCode req.toNat = true) ∧ (off.toNat % 8 = 0) ∧ (Quiet s) ∧ (s.run.set = false) ∧ (img.uses ↑m = true) ∧ (s.bankAt (↑m) off.toNat = BankState.on)) ∧
    (∃ (s : State) (img : Image) (m : Fin 152) (req : BitVec 4) (off : BitVec 21) (w : Fin 4) (v : Word64), (s.image = some img) ∧ (s.ctx.active = true) ∧ (memOpCode req.toNat = true) ∧ (off.toNat % 512 = 0) ∧ (Quiet s) ∧ (s.run.set = false) ∧ (img.uses ↑m = true) ∧ (s.bankAt (↑m) off.toNat = BankState.on)) ∧
    (∃ (s : State) (img : Image) (m : Fin 152) (req : BitVec 4) (off : BitVec 21) (x : Word64) (y : Word64) (w : Fin 4) (c : Instr) (n : Nat), (s.image = some img) ∧ (s.ctx.active = true) ∧ (memOpCode req.toNat = true) ∧ (off.toNat % 512 = 0) ∧ (Quiet s) ∧ (s.run.set = false) ∧ (img.uses ↑m = true) ∧ (s.bankAt (↑m) off.toNat = BankState.off) ∧ (c = Instr.compareAndSwap m req off x y ∧ n = 8 ∨ c = Instr.countEqual m req off w y ∧ n = 2)) :=
  ⟨⟨sOn bank1, img0, 0, 6, 8, 0, 0, rfl, by decide +kernel, by decide +kernel, by decide +kernel, quiet_of _ (by decide +kernel), by decide +kernel⟩,
    ⟨sOn bank1, img0, 0, 8, 512, 0, 0, rfl, by decide +kernel, by decide +kernel, by decide +kernel, quiet_of _ (by decide +kernel), by decide +kernel⟩,
    ⟨sOn offB, img0, 0, 0xA, 512, 0, 0, 3, .compareAndSwap 0 0xA 512 0 0, 8, rfl, by decide +kernel, by decide +kernel, by decide +kernel, quiet_of _ (by decide +kernel), by decide +kernel⟩⟩
theorem witness_PortEntries :
    (∃ (s : State) (img : Image) (n : BitVec 16) (pres : List Pres) (r : PortRec) (lh : Nat × Nat) (rest : List (Nat × Nat)), (PortRuns s img n r) ∧ (entryHolders (r.port / 4096) (r.entries.getD (s.portPos n.toNat).entry 0) = lh :: rest) ∧ (lh.fst < 5) ∧ ((s.portPos n.toNat).padded.contains lh.snd = false) ∧ (∀ (p : Pres), p ∈ pres → p.lane ≠ lh.fst ∨ p.holder.toNat ≠ lh.snd) ∧ (NMap.get [] s.due (dueKey n.toNat lh.snd false) = []) ∧ (freeHolder (r.port / 4096) lh.snd = false) ∧ (s.holderBlocked img n.toNat lh.snd = none)) ∧
    (∃ (s : State) (img : Image) (n : BitVec 16) (pres : List Pres) (r : PortRec) (lh : Nat × Nat) (d : Due) (ds : List Due), (PortRuns s img n r) ∧ (4 ≤ n.toNat / 4096) ∧ (n.toNat / 4096 ≤ 6) ∧ (entryHolders (r.port / 4096) (r.entries.getD (s.portPos n.toNat).entry 0) = [lh]) ∧ ((s.portPos n.toNat).padded.contains lh.snd = false) ∧ (∀ (p : Pres), p ∈ pres → p.lane ≠ lh.fst ∨ p.holder.toNat ≠ lh.snd) ∧ (NMap.get [] s.due (dueKey n.toNat lh.snd false) = d :: ds) ∧ (0 < d.acc)) ∧
    (∃ (s : State) (img : Image) (n : BitVec 16) (pres : List Pres) (r : PortRec), (PortRuns s img n r) ∧ (4 ≤ n.toNat / 4096) ∧ (∀ (lh : Nat × Nat), lh ∈ entryHolders (r.port / 4096) (r.entries.getD (s.portPos n.toNat).entry 0) → (s.portPos n.toNat).padded.contains lh.snd = true)) ∧
    (∃ (s : State) (img : Image) (n : BitVec 16) (r : PortRec) (l : Nat) (h : Nat) (m : Nat) (a : Nat) (d : List Byte) (last : Bool) (g : Option (BitVec 6)) (rd : Bool), (PortRuns s img n r) ∧ (n.toNat / 4096 = 2) ∧ (n.toNat % 4096 = l) ∧ (img.phys l = m) ∧ (img.uses m = true) ∧ (Quiet s) ∧ (s.run.set = false) ∧ (memOpCode h = true) ∧ (entryHolders 2 (r.entries.getD (s.portPos n.toNat).entry 0) = [(4, h)]) ∧ ((s.portPos n.toNat).padded.contains h = false) ∧ (hopperBase m ≤ a) ∧ (a + d.length ≤ hopperBase m + 2097152) ∧ (m < 152) ∧ (∀ (b : Nat), b < 16 → (s.bank m b).st = BankState.on) ∧ (d.length = 1 ∨ d.length = 2 ∨ d.length = 4 ∨ d.length = 8) ∧ (a % d.length = 0)) ∧
    (∃ (s : State) (img : Image) (n : BitVec 16) (h : BitVec 4) (r : PortRec), (s.image = some img) ∧ (s.ctx.active = true) ∧ (markerHolder (n.toNat / 4096) h.toNat = true) ∧ (img.port n.toNat = some r) ∧ (NMap.get [] s.due (dueKey n.toNat h.toNat false) = []) ∧ (∀ (k : Nat), k ∈ img.holderStreams n.toNat h.toNat → (s.stream k).stat = StreamStat.stepEnd) ∧ (s.wheel.active = false)) :=
  ⟨⟨sT 0x2000 8, imgT 0x2000 8, 0x2000, [], recT 0x2000 8, (4, 8), [], ⟨rfl, by decide +kernel, rfl, rfl, by decide +kernel, rfl⟩, by decide +kernel⟩,
    ⟨{ sT 0x4000 5 with due := [(dueKey 0x4000 5 false, [⟨2, 1, 1, 16⟩])] }, imgT 0x4000 5, 0x4000, [], recT 0x4000 5, (4, 5), ⟨2, 1, 1, 16⟩, [], ⟨rfl, by decide +kernel, rfl, rfl, by decide +kernel, rfl⟩, by decide +kernel⟩,
    ⟨sT 0x4000 0, imgT 0x4000 0, 0x4000, [], recT 0x4000 0, ⟨rfl, by decide +kernel, rfl, rfl, by decide +kernel, rfl⟩, by decide +kernel⟩,
    ⟨sT 0x2000 8, imgT 0x2000 8, 0x2000, recT 0x2000 8, 0, 8, 0, hopperBase 0, [1], false, none, true, ⟨rfl, by decide +kernel, rfl, rfl, by decide +kernel, rfl⟩, by decide +kernel, by decide +kernel, by decide +kernel, by decide +kernel, quiet_of _ (by decide +kernel), by decide +kernel⟩,
    ⟨sT 0x2000 8, imgT 0x2000 8, 0x2000, 8, recT 0x2000 8, rfl, by decide +kernel⟩⟩
theorem witness_EnginesWait :
    (∃ (s : State) (m : Fin 144) (b : Bool) (f : Fin 8) (n : Nat) (e : Issue) (u : RaceUse) (rest : List RaceUse) (x : EngineCmd), (x ∈ engineCmds m b f n) ∧ (s.issue x.owner x.kind x.opc = some e) ∧ (List.filter s.raceBlocked (e.races x.drain x.fields) = u :: rest)) ∧
    (∃ (s : State) (m : Fin 144) (b : Bool) (f : Fin 8) (n : Nat) (x : EngineCmd), (x ∈ engineCmds m b f n) ∧ (s.issue x.owner x.kind x.opc = none)) ∧
    (∃ (s : State) (sid : Sid) (x : Instr × Nat), (x ∈ [(Instr.nop sid, 0), (Instr.loop sid, 1), (Instr.stepEnd sid, 2), (Instr.weir sid, 3), (Instr.turnPass sid, 4), (Instr.shapeSet sid, 5)]) ∧ (s.issue sid.owner sid.kind x.snd = none)) :=
  ⟨⟨sRun 2 insRace [] [(4, raceB)], 0, false, 0, 0, isR 2 insRace [] [(4, raceB)], (((isR 2 insRace [] [(4, raceB)]).races false [0, 1, 2]).filter (sRun 2 insRace [] [(4, raceB)]).raceBlocked).head (by decide +kernel), (((isR 2 insRace [] [(4, raceB)]).races false [0, 1, 2]).filter (sRun 2 insRace [] [(4, raceB)]).raceBlocked).tail, ⟨.gather 0, 0, 2, 0x21, false, [0, 1, 2]⟩, by simp [engineCmds], by decide +kernel, (List.cons_head_tail _).symm⟩,
    ⟨sUp, 0, false, 0, 0, ⟨.gather 0, 0, 2, 0x21, false, [0, 1, 2]⟩, by simp [engineCmds], by decide +kernel⟩,
    ⟨sUp, ⟨0, 2⟩, (.nop ⟨0, 2⟩, 0), by decide +kernel⟩⟩
theorem witness_StoneOperations :
    (∃ (s : State) (m : Fin 144) (b : Bool) (e : Issue), Ready s e (↑m) (b2n b) 16 false [0, 1, 2, 3]) ∧
    (∃ (s : State) (m : Fin 144) (b : Bool) (e : Issue), Ready s e m (b2n b) 17 true [0]) ∧
    (∃ (s : State) (m : Fin 144) (b : Bool) (e : Issue) (a : Nat), (Ready s e (↑m) (b2n b) 18 false []) ∧ (a = hopperBase e.m + e.ins.op 20 0)) :=
  ⟨⟨sRun 0 (noD 16) [] [], 0, false, isR 0 (noD 16) [] [], ready_of 0 (noD 16) [] [] 16 false [0, 1, 2, 3] (by decide +kernel)⟩,
    ⟨sRun 1 (noD 17) [] [], 0, true, isR 1 (noD 17) [] [], ready_of 1 (noD 17) [] [] 17 true [0] (by decide +kernel)⟩,
    ⟨sRun 0 (noD 18) [] [], 0, false, isR 0 (noD 18) [] [], _, ready_of 0 (noD 18) [] [] 18 false [] (by decide +kernel), rfl⟩⟩
theorem witness_PassOfFp32 : ∃ (s : State) (m : Fin 144) (b : Bool) (e : Issue) (i : Nat) (j : Nat) (va : View) (vb : View) (p : PassOp), (Ready s e (↑m) (b2n b) 16 false [0, 1, 2, 3]) ∧ (p = PassOp.of e.ins) ∧ (va = e.view s false 0) ∧ (vb = e.view s false 1) ∧ (va.d.format = 0) ∧ (vb.d.format = 0) ∧ (p.sparsity = 0) ∧ (p.panel < 3) ∧ (e.ins.dIdx 2 = 65535) ∧ (p.clear = true) ∧ (va.isZero = false) ∧ (vb.isZero = false) ∧ (i < 128) ∧ (j < 128) ∧ ((s.stream e.k).rowMask.getLsbD i = true) ∧ ((s.stream e.k).colMask.getLsbD j = true) ∧ (va.d.edgeOff = true ∨ 128 * (p.rowBlk % blocksOf (va.extM false)) + i < va.extM false ∧ ∀ (x : Nat), x < p.kHi - p.kLo → va.d.kIndex (p.kLo + x) < va.extK false) ∧ (vb.d.edgeOff = true ∨ 128 * (p.colBlk % blocksOf (vb.extM true)) + j < vb.extM true ∧ ∀ (x : Nat), x < p.kHi - p.kLo → vb.d.kIndex (p.kLo + x) < vb.extK true) :=
  ⟨sRun 0 passB [] d2, 0, false, isR 0 passB [] d2, 0, 0, (isR 0 passB [] d2).view (sRun 0 passB [] d2) false 0, (isR 0 passB [] d2).view (sRun 0 passB [] d2) false 1, PassOp.of (isR 0 passB [] d2).ins, ready_of 0 passB [] d2 16 false [0, 1, 2, 3] (by decide +kernel), rfl, rfl, rfl, by decide +kernel⟩
theorem witness_MillOperations :
    (∃ (s : State) (m : Fin 144) (e : Issue), Ready s e (↑m) 2 33 false [0, 1, 2]) ∧
    (∃ (s : State) (m : Fin 144) (e : Issue) (x : Instr × Nat), (x ∈ [(Instr.scatterAdd m, 34), (Instr.gatherAdd m, 35)]) ∧ (Ready s e (↑m) 2 x.snd false [0, 1, 2, 3])) ∧
    (∃ (s : State) (m : Fin 144) (e : Issue) (x : Instr × Nat), (x ∈ [(Instr.merge m, 36), (Instr.mergeSum m, 37)]) ∧ (Ready s e (↑m) 2 x.snd false [0, 1, 2])) ∧
    (∃ (s : State) (m : Fin 144) (e : Issue), Ready s e (↑m) 2 34 false [0, 1, 2, 3]) ∧
    (∃ (s : State) (m : Fin 144) (e : Issue), Ready s e (↑m) 2 35 false [0, 1, 2, 3]) ∧
    (∃ (s : State) (m : Fin 144) (e : Issue), Ready s e (↑m) 2 36 false [0, 1, 2]) ∧
    (∃ (s : State) (m : Fin 144) (e : Issue), Ready s e (↑m) 2 37 false [0, 1, 2]) ∧
    (∃ (s : State) (m : Fin 144) (e : Issue), Ready s e (↑m) 2 38 false [0, 1]) ∧
    (∃ (s : State) (m : Fin 144) (e : Issue), Ready s e (↑m) 2 39 false [0, 1, 2]) ∧
    (∃ (s : State) (m : Fin 144) (e : Issue), Ready s e (↑m) 2 40 false [0, 1, 2]) ∧
    (∃ (s : State) (m : Fin 144) (e : Issue), Ready s e (↑m) 2 41 false [0, 1, 2]) ∧
    (∃ (s : State) (m : Fin 144) (e : Issue), Ready s e (↑m) 2 42 false [0, 1, 2, 3]) ∧
    (∃ (s : State) (m : Fin 144) (e : Issue), Ready s e (↑m) 2 43 false [0, 1, 2]) ∧
    (∃ (s : State) (m : Fin 144) (e : Issue), Ready s e (↑m) 2 44 false [0, 1]) ∧
    (∃ (s : State) (m : Fin 144) (e : Issue), Ready s e (↑m) 2 48 false [0, 1]) ∧
    (∃ (s : State) (m : Fin 144) (e : Issue), Ready s e (↑m) 2 49 false [0, 1]) ∧
    (∃ (s : State) (m : Fin 144) (e : Issue), Ready s e (↑m) 2 50 false [0, 1, 2]) ∧
    (∃ (s : State) (m : Fin 144) (e : Issue), Ready s e (↑m) 2 51 false [0, 1]) ∧
    (∃ (s : State) (m : Fin 144) (e : Issue), Ready s e (↑m) 2 52 false [0, 1, 2]) ∧
    (∃ (s : State) (m : Fin 144) (e : Issue), Ready s e (↑m) 2 52 false [0, 1, 2, 3]) :=
  ⟨⟨sRun 2 (noD 33) [] [], 0, isR 2 (noD 33) [] [], ready_of 2 (noD 33) [] [] 33 false [0, 1, 2] (by decide +kernel)⟩,
    ⟨sRun 2 (noD 34) [] [], 0, isR 2 (noD 34) [] [], (.scatterAdd 0, 34), by decide +kernel, ready_of 2 (noD 34) [] [] 34 false [0, 1, 2, 3] (by decide +kernel)⟩,
    ⟨sRun 2 (noD 36) [] [], 0, isR 2 (noD 36) [] [], (.merge 0, 36), by decide +kernel, ready_of 2 (noD 36) [] [] 36 false [0, 1, 2] (by decide +kernel)⟩,
    ⟨sRun 2 (noD 34) [] [], 0, isR 2 (noD 34) [] [], ready_of 2 (noD 34) [] [] 34 false [0, 1, 2, 3] (by decide +kernel)⟩,
    ⟨sRun 2 (noD 35) [] [], 0, isR 2 (noD 35) [] [], ready_of 2 (noD 35) [] [] 35 false [0, 1, 2, 3] (by decide +kernel)⟩,
    ⟨sRun 2 (noD 36) [] [], 0, isR 2 (noD 36) [] [], ready_of 2 (noD 36) [] [] 36 false [0, 1, 2] (by decide +kernel)⟩,
    ⟨sRun 2 (noD 37) [] [], 0, isR 2 (noD 37) [] [], ready_of 2 (noD 37) [] [] 37 false [0, 1, 2] (by decide +kernel)⟩,
    ⟨sRun 2 (noD 38) [] [], 0, isR 2 (noD 38) [] [], ready_of 2 (noD 38) [] [] 38 false [0, 1] (by decide +kernel)⟩,
    ⟨sRun 2 (noD 39) [] [], 0, isR 2 (noD 39) [] [], ready_of 2 (noD 39) [] [] 39 false [0, 1, 2] (by decide +kernel)⟩,
    ⟨sRun 2 (noD 40) [] [], 0, isR 2 (noD 40) [] [], ready_of 2 (noD 40) [] [] 40 false [0, 1, 2] (by decide +kernel)⟩,
    ⟨sRun 2 (noD 41) [] [], 0, isR 2 (noD 41) [] [], ready_of 2 (noD 41) [] [] 41 false [0, 1, 2] (by decide +kernel)⟩,
    ⟨sRun 2 (noD 42) [] [], 0, isR 2 (noD 42) [] [], ready_of 2 (noD 42) [] [] 42 false [0, 1, 2, 3] (by decide +kernel)⟩,
    ⟨sRun 2 (noD 43) [] [], 0, isR 2 (noD 43) [] [], ready_of 2 (noD 43) [] [] 43 false [0, 1, 2] (by decide +kernel)⟩,
    ⟨sRun 2 (noD 44) [] [], 0, isR 2 (noD 44) [] [], ready_of 2 (noD 44) [] [] 44 false [0, 1] (by decide +kernel)⟩,
    ⟨sRun 2 (noD 48) [] [], 0, isR 2 (noD 48) [] [], ready_of 2 (noD 48) [] [] 48 false [0, 1] (by decide +kernel)⟩,
    ⟨sRun 2 (noD 49) [] [], 0, isR 2 (noD 49) [] [], ready_of 2 (noD 49) [] [] 49 false [0, 1] (by decide +kernel)⟩,
    ⟨sRun 2 (noD 50) [] [], 0, isR 2 (noD 50) [] [], ready_of 2 (noD 50) [] [] 50 false [0, 1, 2] (by decide +kernel)⟩,
    ⟨sRun 2 (noD 51) [] [], 0, isR 2 (noD 51) [] [], ready_of 2 (noD 51) [] [] 51 false [0, 1] (by decide +kernel)⟩,
    ⟨sRun 2 (noD 52) [] [], 0, isR 2 (noD 52) [] [], ready_of 2 (noD 52) [] [] 52 false [0, 1, 2] (by decide +kernel)⟩,
    ⟨sRun 2 (noD 52) [] [], 0, isR 2 (noD 52) [] [], ready_of 2 (noD 52) [] [] 52 false [0, 1, 2, 3] (by decide +kernel)⟩⟩
theorem witness_GatherOneRow : ∃ (s : State) (m : Fin 144) (e : Issue) (tab : View) (idx : View) (out : View) (n : Nat) (c : Nat) (rows : Nat) (k : Nat) (r : Nat), (Ready s e (↑m) 2 33 false [0, 1, 2]) ∧ (tab = e.view s false 0) ∧ (idx = e.view s false 1) ∧ (out = e.view s false 2) ∧ (PlainRow out n c) ∧ (tab.slot = none) ∧ (tab.ext = { i0 := n, i1 := rows, i2 := 1, i3 := 1 }) ∧ (tab.w = 8 * c) ∧ (0 < rows) ∧ (tab.base + tab.d.stride.getD 1 0 * (rows - 1) + n * c ≤ 721554505728) ∧ (idx.ext = { i0 := 1, i1 := 1, i2 := 1, i3 := 1 }) ∧ (idx.d.format = 13) ∧ (tab.d.format = out.d.format) ∧ (fmtBlock tab.d.format = 0) ∧ (s.run.set = false) ∧ (r = s.codeAt e.img (e.agent false) idx { i0 := 0, i1 := 0, i2 := 0, i3 := 0 }) ∧ (k < n * c) :=
  ⟨sRun 2 gathI [] d3, 0, isR 2 gathI [] d3, (isR 2 gathI [] d3).view (sRun 2 gathI [] d3) false 0, (isR 2 gathI [] d3).view (sRun 2 gathI [] d3) false 1, (isR 2 gathI [] d3).view (sRun 2 gathI [] d3) false 2, 1, 4, 2, 0, _, ready_of 2 gathI [] d3 33 false [0, 1, 2] (by decide +kernel), rfl, rfl, rfl, ⟨by decide +kernel, by decide +kernel, by decide +kernel, by decide +kernel, by decide +kernel, by decide +kernel⟩, by decide +kernel, by decide +kernel, by decide +kernel, by decide +kernel, by decide +kernel, (by decide +kernel), by decide +kernel, by decide +kernel, by decide +kernel, by decide +kernel, rfl, by decide +kernel⟩
theorem witness_MergedRuns :
    (∃ (s : State) (m : Fin 144) (e : Issue) (v0 v1 out : View) (n0 n1 p : Nat), Ready s e m 2 36 false [0, 1, 2] ∧ v0 = { e.view s false 0 with w := 64 } ∧ v1 = { e.view s false 1 with w := 64 } ∧ out = { e.view s false 2 with w := 64 } ∧ PlainRow v0 n0 8 ∧ PlainRow v1 n1 8 ∧ PlainRow out (n0 + n1) 8 ∧ s.run.set = false ∧ p < n0 + n1 ∧ (out.base + 8 * (n0 + n1) ≤ v0.base ∨ v0.base + 8 * n0 ≤ out.base) ∧ (out.base + 8 * (n0 + n1) ≤ v1.base ∨ v1.base + 8 * n1 ≤ out.base)) ∧
    (∃ (xs : List MRec) (ys : List MRec), (List.Pairwise (fun x y => x.fst ≤ y.fst) xs) ∧ (List.Pairwise (fun x y => x.fst ≤ y.fst) ys)) ∧
    (∃ (xs : List MRec), List.Pairwise (fun x y => x.fst ≤ y.fst) xs) :=
  ⟨⟨sRun 2 mergI [] dM, 0, isR 2 mergI [] dM, _, _, _, 1, 2, 2, ready_of 2 mergI [] dM 36 false [0, 1, 2] (by decide +kernel), rfl, rfl, rfl, ⟨by decide +kernel, by decide +kernel, by decide +kernel, by decide +kernel, by decide +kernel, by decide +kernel⟩, ⟨by decide +kernel, by decide +kernel, by decide +kernel, by decide +kernel, by decide +kernel, by decide +kernel⟩, ⟨by decide +kernel, by decide +kernel, by decide +kernel, by decide +kernel, by decide +kernel, by decide +kernel⟩, by decide +kernel⟩,
    ⟨[(1, 0), (2, 0)], [(1, 0)], by decide +kernel⟩,
    ⟨[(1, 0), (1, 0)], by decide +kernel⟩⟩
theorem witness_RankedAndPlaced :
    (∃ (d : Nat) (cs : List Cand), ((cs.all fun c => (dec32 c.key).isFinite) = true) ∧ (List.Pairwise (fun x y => x.ex < y.ex) cs)) ∧
    (∃ (d : Nat) (cs : List Cand) (c : Cand), ((cs.all fun c => (dec32 c.key).isFinite) = true) ∧ (List.Pairwise (fun x y => x.ex < y.ex) cs) ∧ (c ∈ cs) ∧ (c ∉ rankCands d cs)) ∧
    (∃ (quota : List Nat) (k : Nat) (cs : List (Nat × Nat)) (used : NMap Nat) (r : List (Option Placed) × NMap Nat × Nat), (r = placeSlots quota k cs used) ∧ (List.Pairwise (fun x y => x.fst ≠ y.fst) cs)) ∧
    (∃ (quota : List Nat) (k : Nat) (cs : List (Nat × Nat)) (used : NMap Nat) (r : List (Option Placed) × NMap Nat × Nat) (c : Nat × Nat), (r = placeSlots quota k cs used) ∧ (List.Pairwise (fun x y => x.fst ≠ y.fst) cs) ∧ (none ∈ r.fst) ∧ (c ∈ cs) ∧ (∀ x ∈ List.filterMap id r.fst, x.ex ≠ c.fst)) :=
  ⟨⟨1, [⟨0, 0, 0⟩, ⟨1, 0, 0⟩], by decide +kernel⟩,
    ⟨1, [⟨0, 0, 0⟩, ⟨1, 0, 0⟩], ⟨1, 0, 0⟩, by decide +kernel⟩,
    ⟨[1], 1, [(0, 0)], [], _, rfl, by decide +kernel⟩,
    ⟨[0], 1, [(0, 0)], [], placeSlots [0] 1 [(0, 0)] [], (0, 0), rfl, by decide +kernel⟩⟩
theorem witness_CopiesAndKernels :
    (∃ (s : State) (m : Fin 144) (e : Issue), Ready s e (↑m) 3 64 false [0, 1]) ∧
    (∃ (s : State) (f : Fin 8) (e : Issue), Ready s e (↑f) 5 80 false [0, 1]) ∧
    (∃ (s : State) (m : Fin 144) (e : Issue) (vs : View) (vd : View) (n : Nat) (c : Nat) (k : Nat), (Ready s e (↑m) 3 64 false [0, 1]) ∧ (vs = e.view s false 0) ∧ (vd = e.view s false 1) ∧ (PlainRow vs n c) ∧ (PlainRow vd n c) ∧ (vs.d.format = vd.d.format) ∧ (vs.d.blockAxis = vd.d.blockAxis) ∧ (fmtBlock vs.d.format = 0) ∧ (s.run.set = false) ∧ (k < n * c)) ∧
    (∃ (s : State) (m : Fin 144) (n : Nat) (e : Issue), (Ready s e (↑m) 4 96 false [0, 1, 2, 3]) ∧ (fieldAt e.rc.kernel (e.ins.op 31 0) 4 % 128 = 115)) ∧
    (∃ (s : State) (m : Fin 144) (n : Nat) (imm : Nat) (e : Issue), (Ready s e (↑m) 4 96 false [0, 1, 2, 3]) ∧ (imm < 2048) ∧ (e.m < 152) ∧ (fieldAt e.rc.kernel (e.ins.op 31 0) 4 = encS 2 0 10 imm) ∧ (fieldAt e.rc.kernel (e.ins.op 31 0 + 4) 4 % 128 = 115) ∧ (e.img.uses e.m = true) ∧ (s.bankAt e.m imm = BankState.on) ∧ (s.run.set = false)) ∧
    (∃ (s : State) (m : Fin 144) (e : Issue), Ready s e (↑m) 4 96 false [0, 1, 2, 3]) :=
  ⟨⟨sRun 3 (noD 64) [] [], 0, isR 3 (noD 64) [] [], ready_of 3 (noD 64) [] [] 64 false [0, 1] (by decide +kernel)⟩,
    ⟨sRun 5 (noD 80) [] [], 0, isR 5 (noD 80) [] [], ready_of 5 (noD 80) [] [] 80 false [0, 1] (by decide +kernel)⟩,
    ⟨sRun 3 copyB [] d2, 0, isR 3 copyB [] d2, (isR 3 copyB [] d2).view (sRun 3 copyB [] d2) false 0, (isR 3 copyB [] d2).view (sRun 3 copyB [] d2) false 1, 1, 4, 0, ready_of 3 copyB [] d2 64 false [0, 1] (by decide +kernel), rfl, rfl, ⟨by decide +kernel, by decide +kernel, by decide +kernel, by decide +kernel, by decide +kernel, by decide +kernel⟩, ⟨by decide +kernel, by decide +kernel, by decide +kernel, by decide +kernel, by decide +kernel, by decide +kernel⟩, by decide +kernel⟩,
    ⟨sRun 4 (noD 96) (leBytes 4 0x73) [], 0, 0, isR 4 (noD 96) (leBytes 4 0x73) [], ready_of 4 (noD 96) (leBytes 4 0x73) [] 96 false [0, 1, 2, 3] (by decide +kernel), by decide +kernel⟩,
    ⟨{ sRun 4 (noD 96) (leBytes 4 (encS 2 0 10 8) ++ leBytes 4 0x73) [] with banks := banksOn }, 0, 0, 8, isR 4 (noD 96) (leBytes 4 (encS 2 0 10 8) ++ leBytes 4 0x73) [], ready_at _ _ _ _ _ _ _ (by decide +kernel) (by decide +kernel) rfl, by decide +kernel⟩,
    ⟨sRun 4 (noD 96) [] [], 0, isR 4 (noD 96) [] [], ready_of 4 (noD 96) [] [] 96 false [0, 1, 2, 3] (by decide +kernel)⟩⟩
theorem witness_ImageChecked :
    (∃ (s : State) (h : LeatHdr) (ses : Session) (a : Nat) (n : Nat) (rd : State × List Byte) (r : State × Word32), (ses.control = true) ∧ (a % 8 = 0) ∧ (a + n ≤ 721554505728) ∧ (s.pwr.plCur = 0) ∧ (s.pwr.plBusy = false) ∧ (s.memctl.zeroed = true) ∧ (rd = (s.rx h.port).millerRead a (min n 268435464)) ∧ (r = rd.fst.newOp OpKind.image) ∧ (Admitted s h ses 32 (leBytes 8 a ++ leBytes 8 n))) ∧
    (∃ (s : State) (X : State) (bs : List Byte) (hd : Word32), (hd = BitVec.ofNat 32 (536870912 + (s.opSerial + 1) % 2 ^ 28)) ∧ (X = (s.newOp OpKind.image).fst.loadVerdict (s.newOp OpKind.image).snd bs none)) ∧
    (∃ (s : State) (X : State) (bs : List Byte) (b : Bad) (hd : Word32), (hd = BitVec.ofNat 32 (536870912 + (s.opSerial + 1) % 2 ^ 28)) ∧ (X = (s.newOp OpKind.image).fst.loadVerdict (s.newOp OpKind.image).snd bs (some b))) ∧
    (∃ (s : State) (bs : List Byte), s.loadBusy = true) ∧
    (∃ (s : State) (bs : List Byte), (s.loadBusy = false) ∧ (s.loadNotReady = true)) ∧
    (∃ (s : State) (bs : List Byte) (b : Bad), (s.loadBusy = false) ∧ (s.loadNotReady = false) ∧ (headerBad bs = some b)) ∧
    (∃ (s : State) (bs : List Byte), (s.loadBusy = false) ∧ (s.loadNotReady = false) ∧ (headerBad bs = none) ∧ (s.signed bs = false)) ∧
    (∃ (s : State) (bs : List Byte) (e : List Byte), enrolFind s.nv.enrolment 2 (List.take 8 (List.drop (bs.length - 144) bs)) = some e) ∧
    (∃ (s : State) (bs : List Byte), s.nv.owner = none) :=
  ⟨⟨sLeat, hd 32 (leBytes 8 0 ++ leBytes 8 0), ses1, 0, 0, _, _, by decide +kernel, by decide +kernel, by decide +kernel, by decide +kernel, by decide +kernel, by decide +kernel, rfl, rfl, adm _ _ 32 (leBytes 8 0 ++ leBytes 8 0) (by decide +kernel) (by decide +kernel) rfl rfl rfl⟩,
    ⟨sUp, _, [], _, rfl, rfl⟩,
    ⟨sUp, _, [], ⟨4, 0, 0⟩, _, rfl, rfl⟩,
    ⟨{ sUp with snap := { Snap.init with st := .streaming } }, [], by decide +kernel⟩,
    ⟨{ sUp with boot := Boot.init }, [], by decide +kernel⟩,
    ⟨sUp, [], (headerBad []).get (by decide +kernel), by decide +kernel, by decide +kernel, some_of _ _⟩,
    ⟨sUp, headB, by decide +kernel⟩,
    ⟨sSign, signedB, (enrolFind sSign.nv.enrolment 2 ((signedB.drop (signedB.length - 144)).take 8)).get (by decide +kernel), some_of _ _⟩,
    ⟨sUp, [], by decide +kernel⟩⟩
theorem witness_ImageInstalled :
    (∃ (s : State) (bits : BitVec 152) (img : Image) (o : Op), (s.loading = some img) ∧ (s.opOf OpKind.image = some o) ∧ (s.up = true) ∧ (s.pwr.plCur = 0)) ∧
    (∃ (s : State) (bits : BitVec 152), s.loading = none) :=
  ⟨⟨{ sOp .image .running 0 with loading := some img0 }, 0, img0, opK .image .running 0, rfl, by decide +kernel⟩,
    ⟨sUp, 0, by decide +kernel⟩⟩
theorem witness_JobStarts :
    (∃ (s : State) (h : LeatHdr) (ses : Session) (a : Nat) (n : Nat) (rd : State × List Byte) (b : JobBlock), (ses.control = true) ∧ (a % 8 = 0) ∧ (a + 48 ≤ 721554505728) ∧ (s.pwr.plCur = 0) ∧ (s.pwr.plBusy = false) ∧ (s.memctl.zeroed = true) ∧ (Admitted s h ses 33 (leBytes 8 a))) ∧
    (∃ s : State, Admitted s (hd 33 (leBytes 8 0)) ses1 33 (leBytes 8 0) ∧ s.memctl.zeroed = true ∧ s.pwr.plCur = 0 ∧ s.pwr.plBusy = false ∧ s.startBusy = true) ∧
    (∃ s : State, Admitted s (hd 33 (leBytes 8 0)) ses1 33 (leBytes 8 0) ∧ s.memctl.zeroed = true ∧ s.pwr.plCur = 0 ∧ s.pwr.plBusy = false ∧ s.startBusy = false ∧ jobBlockBytes ((s.rx 0).millerBytes 0 0x30) ≤ 0xA800000000 ∧ ((s.rx 0).millerRead 0 (jobBlockBytes ((s.rx 0).millerBytes 0 0x30))).1.image = none) ∧
    (∃ s : State, Admitted s (hd 33 (leBytes 8 0)) ses1 33 (leBytes 8 0) ∧ s.memctl.zeroed = true ∧ s.pwr.plCur = 0 ∧ s.pwr.plBusy = false ∧ s.startBusy = false ∧ jobBlockBytes ((s.rx 0).millerBytes 0 0x30) = 112 ∧ ∃ d ∈ [0x14], ((s.rx 0).millerRead 0 112).1.image = some imgRt ∧ ((s.rx 0).millerRead 0 112).1.jobRefusal imgRt (JobBlock.parse ((s.rx 0).millerRead 0 112).2) = some d) ∧
    (∃ s : State, Admitted s (hd 33 (leBytes 8 0)) ses1 33 (leBytes 8 0) ∧ s.memctl.zeroed = true ∧ s.pwr.plCur = 0 ∧ s.pwr.plBusy = false ∧ s.startBusy = false ∧ jobBlockBytes ((s.rx 0).millerBytes 0 0x30) = 112 ∧ ((s.rx 0).millerRead 0 112).1.image = some imgRt ∧ ((s.rx 0).millerRead 0 112).1.jobRefusal imgRt (JobBlock.parse ((s.rx 0).millerRead 0 112).2) = none ∧ ((s.rx 0).millerRead 0 112).1.startPages imgRt false = [] ∧ (JobBlock.parse ((s.rx 0).millerRead 0 112).2).cont = false) ∧
    (∃ s : State, Admitted s (hd 33 (leBytes 8 0)) ses1 33 (leBytes 8 0) ∧ s.memctl.zeroed = true ∧ s.pwr.plCur = 0 ∧ s.pwr.plBusy = false ∧ s.startBusy = false ∧ jobBlockBytes ((s.rx 0).millerBytes 0 0x30) = 112 ∧ ((s.rx 0).millerRead 0 112).1.image = some imgRt ∧ ((s.rx 0).millerRead 0 112).1.jobRefusal imgRt (JobBlock.parse ((s.rx 0).millerRead 0 112).2) = none ∧ ((s.rx 0).millerRead 0 112).1.startPages imgRt true = [] ∧ (JobBlock.parse ((s.rx 0).millerRead 0 112).2).cont = true) :=
  ⟨⟨sLeat, hd 33 (leBytes 8 0), ses1, 0, 0, (sLeat, []), JobBlock.parse [], by decide +kernel, by decide +kernel, by decide +kernel, by decide +kernel, by decide +kernel, by decide +kernel, adm _ _ 33 (leBytes 8 0) (by decide +kernel) (by decide +kernel) rfl rfl rfl⟩,
    ⟨sOp .job .running 0, adm _ _ 33 (leBytes 8 0) (by decide +kernel) (by decide +kernel) rfl rfl rfl, by decide +kernel⟩,
    ⟨sLeat, adm _ _ 33 (leBytes 8 0) (by decide +kernel) (by decide +kernel) rfl rfl rfl, by decide +kernel⟩,
    ⟨sBlock 1 [], adm _ _ 33 (leBytes 8 0) (by decide +kernel) (by decide +kernel) rfl rfl rfl, by decide +kernel⟩,
    ⟨sBlock 0 [], adm _ _ 33 (leBytes 8 0) (by decide +kernel) (by decide +kernel) rfl rfl rfl, by decide +kernel⟩,
    ⟨sBlock 0 [(0, 1)], adm _ _ 33 (leBytes 8 0) (by decide +kernel) (by decide +kernel) rfl rfl rfl, by decide +kernel⟩⟩
theorem witness_OperationCommands :
    (∃ (s : State) (h : LeatHdr) (ses : Session) (hd : Word32) (o : Op) (at_ : Nat), (ses.control = true) ∧ (s.op hd = some o) ∧ (o.kind = OpKind.job) ∧ (o.state = OpState.running) ∧ (at_ < 2 ^ 64)) ∧
    (∃ s : State, s.op 1 = some (opK .job .running 0) ∧ Admitted s (hd 48 (leBytes 4 1 ++ leBytes 4 0 ++ leBytes 8 0)) ses1 48 (leBytes 4 1 ++ leBytes 4 0 ++ leBytes 8 0)) ∧
    (∃ s : State, s.op 1 = some (opK .job .running 0) ∧ Admitted s (hd 48 (leBytes 4 1 ++ leBytes 4 1 ++ leBytes 8 0)) ses1 48 (leBytes 4 1 ++ leBytes 4 1 ++ leBytes 8 0)) ∧
    (∃ s : State, s.op 1 = some (opK .job .running 0) ∧ Admitted s (hd 50 (leBytes 4 1)) ses1 50 (leBytes 4 1)) ∧
    (∃ (s : State) (h : LeatHdr) (ses : Session) (hd : Word32) (o : Op), (ses.control = true) ∧ (s.op hd = some o) ∧ (o.kind = OpKind.job) ∧ (o.state = OpState.suspending) ∧ (Admitted s h ses 49 (leBytes 4 (BitVec.toNat hd)))) ∧
    (∃ (s : State) (h : LeatHdr) (ses : Session) (hd : Word32) (o : Op) (img : Image), (ses.control = true) ∧ (s.op hd = some o) ∧ (o.kind = OpKind.job) ∧ (o.state = OpState.suspended) ∧ (o.status = 5) ∧ (s.image = some img) ∧ (s.busyOp OpKind.image = false) ∧ (Admitted s h ses 49 (leBytes 4 (BitVec.toNat hd)))) ∧
    (∃ (s : State) (h : LeatHdr) (ses : Session) (hd : Word32) (o : Op), (s.op hd = some o) ∧ (Admitted s h ses 51 (leBytes 4 (BitVec.toNat hd)))) ∧
    (∃ (s : State) (h : LeatHdr) (ses : Session) (hd : Word32) (status : Nat), (ses.control = true) ∧ (s.op hd = none ∧ status = 8 ∨ (∃ o, s.op hd = some o ∧ o.state.terminal = true) ∧ status = 9)) ∧
    (∃ s : State, s.op 1 = none ∧ Admitted s (hd 48 (leBytes 4 1 ++ leBytes 4 0 ++ leBytes 8 0)) ses1 48 (leBytes 4 1 ++ leBytes 4 0 ++ leBytes 8 0)) ∧
    (∃ s : State, s.op 1 = none ∧ Admitted s (hd 49 (leBytes 4 1)) ses1 49 (leBytes 4 1)) ∧
    (∃ s : State, s.op 1 = none ∧ Admitted s (hd 50 (leBytes 4 1)) ses1 50 (leBytes 4 1)) ∧
    (∃ (s : State) (hd : Word32) (o : Op) (st : OpState) (status : Nat), (s.op hd = some o) ∧ (o.state ≠ st)) :=
  ⟨⟨sOp .job .running 0, hd0, ses1, 1, opK .job .running 0, 0, by decide +kernel⟩,
    ⟨sOp .job .running 0, by decide +kernel, adm _ _ 48 (leBytes 4 1 ++ leBytes 4 0 ++ leBytes 8 0) (by decide +kernel) (by decide +kernel) rfl rfl rfl⟩,
    ⟨sOp .job .running 0, by decide +kernel, adm _ _ 48 (leBytes 4 1 ++ leBytes 4 1 ++ leBytes 8 0) (by decide +kernel) (by decide +kernel) rfl rfl rfl⟩,
    ⟨sOp .job .running 0, by decide +kernel, adm _ _ 50 (leBytes 4 1) (by decide +kernel) (by decide +kernel) rfl rfl rfl⟩,
    ⟨sOp .job .suspending 0, hd 49 (leBytes 4 (BitVec.toNat (1 : Word32))), ses1, 1, opK .job .suspending 0, by decide +kernel, by decide +kernel, by decide +kernel, by decide +kernel, adm _ _ 49 (leBytes 4 (BitVec.toNat (1 : Word32))) (by decide +kernel) (by decide +kernel) rfl rfl rfl⟩,
    ⟨sOp .job .suspended 5, hd 49 (leBytes 4 (BitVec.toNat (1 : Word32))), ses1, 1, opK .job .suspended 5, img0, by decide +kernel, by decide +kernel, by decide +kernel, by decide +kernel, by decide +kernel, rfl, by decide +kernel, adm _ _ 49 (leBytes 4 (BitVec.toNat (1 : Word32))) (by decide +kernel) (by decide +kernel) rfl rfl rfl⟩,
    ⟨sOp .job .running 0, hd 51 (leBytes 4 (BitVec.toNat (1 : Word32))), ses1, 1, opK .job .running 0, by decide +kernel, adm _ _ 51 (leBytes 4 (BitVec.toNat (1 : Word32))) (by decide +kernel) (by decide +kernel) rfl rfl rfl⟩,
    ⟨sOp .job .done 0, hd0, ses1, 1, 9, by decide +kernel, .inr ⟨⟨opK .job .done 0, (by decide +kernel), rfl⟩, rfl⟩⟩,
    ⟨sLeat, by decide +kernel, adm _ _ 48 (leBytes 4 1 ++ leBytes 4 0 ++ leBytes 8 0) (by decide +kernel) (by decide +kernel) rfl rfl rfl⟩,
    ⟨sLeat, by decide +kernel, adm _ _ 49 (leBytes 4 1) (by decide +kernel) (by decide +kernel) rfl rfl rfl⟩,
    ⟨sLeat, by decide +kernel, adm _ _ 50 (leBytes 4 1) (by decide +kernel) (by decide +kernel) rfl rfl rfl⟩,
    ⟨sOp .job .running 0, 1, opK .job .running 0, .done, 0, by decide +kernel⟩⟩
theorem witness_WordsVerified :
    (∃ (d : Nat) (i : Nat), (d < 2 ^ 64) ∧ (i < 64)) ∧
    (∃ (d : Nat) (c : Nat), (d < 2 ^ 64) ∧ (c < 8)) ∧
    (∃ (d : Nat) (i : Nat) (j : Nat), (d < 2 ^ 64) ∧ (i < 64) ∧ (j < 64) ∧ (i ≠ j)) ∧
    (∃ (d : Nat) (i : Nat) (c : Nat), (d < 2 ^ 64) ∧ (i < 64) ∧ (c < 8)) ∧
    (∃ (d : Nat) (c : Nat) (c' : Nat), (d < 2 ^ 64) ∧ (c < 8) ∧ (c' < 8) ∧ (c ≠ c')) ∧
    (∃ (d : Nat) (c : Nat), c < 8) ∧
    (∃ (d : Nat) (i : Nat), i < 64) ∧
    (∃ (d : Nat) (y : Nat), (y ≠ 0) ∧ (∀ (c : Nat), c < 8 → y ≠ 2 ^ c) ∧ (∀ (i : Nat), i < 64 → y ≠ hSets.getD i 0)) ∧
    (∃ (s : State) (w : Nat) (d : Nat), eccOf (s.rawWord w) (s.synOf w) = Ecc.ce d) ∧
    (∃ (s : State) (w : Nat), (eccOf (s.rawWord w) (s.synOf w) = Ecc.ue) ∧ (s.memctl.ueValid = false)) ∧
    (∃ (s : State) (w : Nat) (d : Nat) (patrol : Bool), eccOf (s.rawWord w) (s.synOf w) = Ecc.ce d) ∧
    (∃ (s : State) (w : Nat) (m : Nat) (patrol : Bool), (eccOf (s.rawWord w) (s.synOf w) = Ecc.ue) ∧ (hopperMill (8 * w) = some m)) :=
  ⟨⟨5, 0, by decide +kernel⟩,
    ⟨5, 7, by decide +kernel⟩,
    ⟨5, 0, 63, by decide +kernel⟩,
    ⟨5, 63, 7, by decide +kernel⟩,
    ⟨5, 0, 7, by decide +kernel⟩,
    ⟨5, 7, by decide +kernel⟩,
    ⟨5, 63, by decide +kernel⟩,
    ⟨5, 3, by decide +kernel⟩,
    ⟨{ sUp with syn := [(0, 1)] }, 0, 0, by decide +kernel⟩,
    ⟨{ sUp with syn := [(0, 3)] }, 0, by decide +kernel⟩,
    ⟨{ sUp with syn := [(0, 1)] }, 0, 0, true, by decide +kernel⟩,
    ⟨{ sUp with syn := [(hopperBase 0 / 8, 3)] }, hopperBase 0 / 8, 0, true, by decide +kernel⟩⟩
theorem witness_ScrubsAndSelfTests :
    (∃ (s : State) (h : LeatHdr) (ses : Session) (v : Nat) (hd : Word32), (ses.control = true) ∧ (v < 8) ∧ (0 < v) ∧ (s.pwr.plCur = 0) ∧ (s.pwr.plBusy = false) ∧ (s.busyOp OpKind.scrub = false) ∧ (s.busyOp OpKind.selfTest = false) ∧ (2 ≤ v → s.jobOpen = false ∧ s.snap.st = SnapState.idle) ∧ (hd = BitVec.ofNat 32 (1342177280 + (s.opSerial + 1) % 2 ^ 28)) ∧ (Admitted s h ses 36 (leBytes 4 v))) ∧
    (∃ (s : State) (h : LeatHdr) (ses : Session) (v : Nat), (ses.control = true) ∧ (v < 2 ^ 32) ∧ (s.pwr.plCur = 0) ∧ (s.pwr.plBusy = false) ∧ (s.busyOp OpKind.scrub = true ∨ s.busyOp OpKind.selfTest = true ∨ 2 ≤ v % 8 ∧ (s.jobOpen = true ∨ s.snap.st ≠ SnapState.idle)) ∧ (Admitted s h ses 36 (leBytes 4 v))) ∧
    (∃ (s : State) (o : Op) (st : OpState) (status : Nat), (s.opOf OpKind.scrub = some o) ∧ (s.pwr.plCur = 0) ∧ (s.up = true) ∧ (o.state = OpState.running ∧ s.work.scrubLine + 1 = scrubTotal s.work.scrubStores ∧ st = OpState.done ∧ status = 0 ∨ o.state = OpState.cancelling ∧ st = OpState.cancelled ∧ status = 1 ∨ o.state = OpState.suspending ∧ st = OpState.suspended ∧ status = 0)) ∧
    (∃ (s : State) (o : Op), (s.opOf OpKind.scrub = some o) ∧ (s.pwr.plCur = 0) ∧ (s.up = true) ∧ (o.state = OpState.running) ∧ (s.work.scrubLine + 1 ≠ scrubTotal s.work.scrubStores)) ∧
    (∃ (s : State) (p : Fin 12) (a : Nat), (s.up = true) ∧ (s.memctl.patrolOn.getLsbD ↑p = true) ∧ (pkgLine (↑p) (NMap.get 0 s.memctl.patrol ↑p) = some a)) ∧
    (∃ (s : State) (p : Fin 12), s.selfRefresh = true) ∧
    (∃ (s : State) (p : Fin 12) (a : Nat), (s.up = true) ∧ (s.memctl.patrolOn.getLsbD ↑p = true) ∧ (s.selfRefresh = false) ∧ (pkgLine (↑p) (NMap.get 0 s.memctl.patrol ↑p) = some a)) ∧
    (∃ (s : State) (h : LeatHdr) (ses : Session) (hd : Word32), (ses.control = true) ∧ (s.pwr.plCur = 0) ∧ (s.pwr.plBusy = false) ∧ (s.jobOpen = false) ∧ (s.snap.st = SnapState.idle) ∧ (∀ (k : OpKind), k ∈ [OpKind.snapshot, OpKind.restore, OpKind.image, OpKind.scrub, OpKind.selfTest] → s.busyOp k = false) ∧ (hd = BitVec.ofNat 32 (1610612736 + (s.opSerial + 1) % 2 ^ 28)) ∧ (Admitted s h ses 37 [])) ∧
    (∃ (s : State) (h : LeatHdr) (ses : Session), (ses.control = true) ∧ (s.pwr.plCur = 0) ∧ (s.pwr.plBusy = false) ∧ (s.jobOpen = true) ∧ (Admitted s h ses 37 [])) ∧
    (∃ (s : State) (pass : Bool) (o : Op) (m : Nat), (s.opOf OpKind.selfTest = some o) ∧ (s.op o.handle = some o) ∧ (s.pwr.plCur = 0) ∧ (s.up = true) ∧ (s.image = none) ∧ (m = s.work.testMill) ∧ (m < 152)) :=
  ⟨⟨sLeat, hd 36 (leBytes 4 7), ses1, 7, _, by decide +kernel, by decide +kernel, by decide +kernel, by decide +kernel, by decide +kernel, (by decide +kernel), by decide +kernel, by decide +kernel, rfl, adm _ _ 36 (leBytes 4 7) (by decide +kernel) (by decide +kernel) rfl rfl rfl⟩,
    ⟨sOp .scrub .running 0, hd 36 (leBytes 4 1), ses1, 1, by decide +kernel, by decide +kernel, by decide +kernel, by decide +kernel, by decide +kernel, adm _ _ 36 (leBytes 4 1) (by decide +kernel) (by decide +kernel) rfl rfl rfl⟩,
    ⟨{ sOp .scrub .running 0 with work := ⟨1, scrubTotal 1 - 1, 0⟩ }, opK .scrub .running 0, .done, 0, by decide +kernel⟩,
    ⟨{ sOp .scrub .running 0 with work := ⟨4, 0, 0⟩ }, opK .scrub .running 0, by decide +kernel⟩,
    ⟨sUp, 0, 0, by decide +kernel⟩,
    ⟨{ sUp with image := some img0 }, 0, by decide +kernel⟩,
    ⟨sUp, 0, 0, by decide +kernel⟩,
    ⟨sLeat, hd 37 ([]), ses1, _, by decide +kernel, by decide +kernel, by decide +kernel, by decide +kernel, by decide +kernel, by decide +kernel, rfl, adm _ _ 37 ([]) (by decide +kernel) (by decide +kernel) rfl rfl rfl⟩,
    ⟨sOp .job .running 0, hd 37 ([]), ses1, by decide +kernel, by decide +kernel, by decide +kernel, by decide +kernel, adm _ _ 37 ([]) (by decide +kernel) (by decide +kernel) rfl rfl rfl⟩,
    ⟨{ sOp .selfTest .running 0 with image := none }, true, opK .selfTest .running 0, 0, by decide +kernel⟩⟩
theorem witness_AttestAndSetNet :
    (∃ (s : State) (h : LeatHdr) (ses : Session) (nonce : List Byte) (off : Nat), (nonce.length = 64) ∧ (off < 2 ^ 32) ∧ (Admitted s h ses 64 (nonce ++ leBytes 4 off))) ∧
    (∃ (s : State) (nonce : List Byte) (r : List Byte), s.sec.report = some (nonce, r)) ∧
    (∃ (s : State) (nonce : List Byte), nonce.length = 64) ∧
    (∃ (s : State) (h : LeatHdr) (ses : Session) (p : Nat) (ip : List Byte) (rest : List Byte), (ses.control = true) ∧ (p < 2) ∧ (ip.length = 4) ∧ (rest.length = 4) ∧ (Admitted s h ses 67 ([BitVec.ofNat 8 p, 1, 24, 0] ++ ip ++ rest))) ∧
    (∃ (s : State) (h : LeatHdr) (ses : Session) (p : Nat) (m : Nat) (pre : Byte) (ip : List Byte) (rest : List Byte), (ses.control = true) ∧ (p < 2) ∧ (m < 2) ∧ (ip.length = 4) ∧ (rest.length = 4) ∧ (Admitted s h ses 67 ([BitVec.ofNat 8 p, BitVec.ofNat 8 m, pre, 0] ++ ip ++ rest))) :=
  ⟨⟨sLeat, hd 64 (List.replicate 64 0 ++ leBytes 4 0), ses1, List.replicate 64 0, 0, by decide +kernel, by decide +kernel, adm _ _ 64 (List.replicate 64 0 ++ leBytes 4 0) (by decide +kernel) (by decide +kernel) rfl rfl rfl⟩,
    ⟨{ sUp with sec := { Sec.init with report := some ([], []) } }, [], [], by decide +kernel⟩,
    ⟨sUp, List.replicate 64 0, by decide +kernel⟩,
    ⟨sLeat, hd 67 ([BitVec.ofNat 8 0, 1, 24, 0] ++ [1, 2, 3, 4] ++ [0, 0, 0, 0]), ses1, 0, [1, 2, 3, 4], [0, 0, 0, 0], by decide +kernel, by decide +kernel, by decide +kernel, by decide +kernel, adm _ _ 67 ([BitVec.ofNat 8 0, 1, 24, 0] ++ [1, 2, 3, 4] ++ [0, 0, 0, 0]) (by decide +kernel) (by decide +kernel) rfl rfl rfl⟩,
    ⟨sLeat, hd 67 ([BitVec.ofNat 8 0, BitVec.ofNat 8 1, 24, 0] ++ [1, 2, 3, 4] ++ [0, 0, 0, 0]), ses1, 0, 1, 24, [1, 2, 3, 4], [0, 0, 0, 0], by decide +kernel, by decide +kernel, by decide +kernel, by decide +kernel, by decide +kernel, adm _ _ 67 ([BitVec.ofNat 8 0, BitVec.ofNat 8 1, 24, 0] ++ [1, 2, 3, 4] ++ [0, 0, 0, 0]) (by decide +kernel) (by decide +kernel) rfl rfl rfl⟩⟩
theorem witness_GroupCommands :
    (∃ (s : State) (h : LeatHdr) (ses : Session), (ses.control = true) ∧ (Admitted s h ses 65 [])) ∧
    (∃ (s : State) (h : LeatHdr) (ses : Session), (ses.control = true) ∧ (s.pwr.plCur = 0) ∧ (s.pwr.plBusy = false) ∧ (Admitted s h ses 34 [])) ∧
    (∃ s : State, s.run.job ≠ 0 ∧ s.snap.held = true ∧ Admitted s (hd 34 ([])) ses1 34 []) ∧
    (∃ s : State, s.run.job ≠ 0 ∧ s.snap.held = false ∧ Admitted s (hd 34 ([])) ses1 34 []) ∧
    (∃ (s : State) (h : LeatHdr) (ses : Session) (img : Image) (f : Nat) (sp : Nat), (ses.control = true) ∧ (f < 256) ∧ (sp < 256) ∧ (s.image = some img) ∧ (Admitted s h ses 66 [BitVec.ofNat 8 f, BitVec.ofNat 8 sp, 0, 0])) ∧
    (∃ (s : State) (img : Image) (f : Nat) (sp : Nat), (s.takeoverOk f sp = true) ∧ (s.wheel.heldFrames = []) ∧ (s.run.inStep = false) ∧ ((List.all s.wheel.records fun r => r.snd.isNone) = true)) ∧
    (∃ s : State, s.takeoverOk 0 0 = true) :=
  ⟨⟨sLeat, hd 65 ([]), ses1, by decide +kernel, adm _ _ 65 ([]) (by decide +kernel) (by decide +kernel) rfl rfl rfl⟩,
    ⟨sLeat, hd 34 ([]), ses1, by decide +kernel, by decide +kernel, by decide +kernel, adm _ _ 34 ([]) (by decide +kernel) (by decide +kernel) rfl rfl rfl⟩,
    ⟨{ sJob Run.init Wheel.init with snap := { Snap.init with held := true } }, by decide +kernel, by decide +kernel, adm _ _ 34 ([]) (by decide +kernel) (by decide +kernel) rfl rfl rfl⟩,
    ⟨sJob Run.init Wheel.init, by decide +kernel, by decide +kernel, adm _ _ 34 ([]) (by decide +kernel) (by decide +kernel) rfl rfl rfl⟩,
    ⟨sOp .job .running 0, hd 66 ([BitVec.ofNat 8 0, BitVec.ofNat 8 1, 0, 0]), ses1, img0, 0, 1, by decide +kernel, by decide +kernel, by decide +kernel, rfl, adm _ _ 66 ([BitVec.ofNat 8 0, BitVec.ofNat 8 1, 0, 0]) (by decide +kernel) (by decide +kernel) rfl rfl rfl⟩,
    ⟨{ sJob Run.init { Wheel.init with stalled := true, roles := [1, 7] } with flume := [(0, fp .down), (1, fp .active)] }, imgRt, 0, 1, by decide +kernel⟩,
    ⟨{ sJob Run.init { Wheel.init with stalled := true, roles := [1] } with flume := [(0, { fp .active with peerSerial := some 0 })] }, by decide +kernel⟩⟩
theorem witness_FirmwareUpdates :
    (∃ (s : State) (h : LeatHdr) (ses : Session) (a : Nat) (n : Nat), (ses.control = true) ∧ (a < 2 ^ 64) ∧ (n < 2 ^ 64) ∧ (Admitted s h ses 80 (leBytes 8 a ++ leBytes 8 n))) ∧
    (∃ (s : State) (ok : Bool), (s.up = true) ∧ (s.sec.fw.busy = true) ∧ (s.sec.fw.phase = 1) ∧ (fwCheck s.nv s.sec.fw.image = 1)) ∧
    (∃ (s : State) (ok : Bool), (s.up = true) ∧ (s.sec.fw.busy = true) ∧ (s.sec.fw.phase = 1) ∧ (fwCheck s.nv s.sec.fw.image ≠ 1)) ∧
    (∃ (s : State), (s.up = true) ∧ (s.sec.fw.busy = true) ∧ (s.sec.fw.phase = 2)) ∧
    (∃ (s : State), (s.up = true) ∧ (s.sec.fw.busy = true) ∧ (s.sec.fw.phase ≠ 1)) ∧
    (∃ (s : State), (s.up = true) ∧ (s.sec.fw.busy = true) ∧ (s.sec.fw.phase = 3) ∧ (s.sec.fw.image.length ≤ 33554432)) ∧
    (∃ (s : State), (s.up = true) ∧ (s.sec.fw.busy = true) ∧ (s.sec.fw.phase = 4)) :=
  ⟨⟨sLeat, hd 80 (leBytes 8 0 ++ leBytes 8 0), ses1, 0, 0, by decide +kernel, by decide +kernel, by decide +kernel, adm _ _ 80 (leBytes 8 0 ++ leBytes 8 0) (by decide +kernel) (by decide +kernel) rfl rfl rfl⟩,
    ⟨{ sUp with nv := nvFw, sec := { Sec.init with fw := ⟨true, 1, 0, 0, 0, 0, fwImg⟩ } }, true, by decide +kernel, by decide +kernel, by decide +kernel, fw_ok⟩,
    ⟨{ sUp with nv := nvFw, sec := { Sec.init with fw := ⟨true, 1, 0, 0, 0, 0, []⟩ } }, true, by decide +kernel⟩,
    ⟨{ sUp with nv := nvFw, sec := { Sec.init with fw := ⟨true, 2, 0, 0, 0, 0, []⟩ } }, by decide +kernel⟩,
    ⟨{ sUp with nv := nvFw, sec := { Sec.init with fw := ⟨true, 2, 0, 0, 0, 0, []⟩ } }, by decide +kernel⟩,
    ⟨{ sUp with nv := nvFw, sec := { Sec.init with fw := ⟨true, 3, 0, 0, 0, 0, []⟩ } }, by decide +kernel⟩,
    ⟨{ sUp with nv := nvFw, sec := { Sec.init with fw := ⟨true, 4, 0, 0, 0, 0, []⟩ } }, by decide +kernel⟩⟩
theorem witness_StepAdmission :
    (∃ (s : State) (img : Image), (s.image = some img) ∧ (s.atBoundary img = true) ∧ (s.jobRuns = true) ∧ (s.clk.lost = false) ∧ (s.snapFirst = false) ∧ (s.run.stepLimit = 0 ∨ s.run.step < s.run.stepLimit) ∧ (img.hasRt = true → s.run.skips < img.rtSkipLimit) ∧ (∀ (k : Nat), s.run.suspendAt = some k → s.run.step < k) ∧ (img.hasRt = true → s.protectedIn img.rtState 256 = []) ∧ (img.exchangeCount = 0) ∧ (s.wheel.heldFrames = []) ∧ (img.rtState + 256 ≤ 721554505728) ∧ (s.syn = []) ∧ (∀ (e : Nat), img.weirOf s.ctx.table img.rtFwdWeir = some e → img.weirN e = 0 ∨ ((s.wheelCounted img e).weirSt (img.weirPhys e)).counted.length ≠ img.weirN e)) ∧
    (∃ (s : State) (img : Image), (s.image = some img) ∧ (s.atBoundary img = true) ∧ (s.jobRuns = true) ∧ (s.clk.lost = false) ∧ (s.snapFirst = false) ∧ (0 < s.run.stepLimit) ∧ (s.run.stepLimit ≤ s.run.step)) ∧
    (∃ (s : State) (img : Image), (s.image = some img) ∧ (s.atBoundary img = true) ∧ (s.jobRuns = true) ∧ (s.clk.lost = false) ∧ (s.snapFirst = false) ∧ (s.run.stepLimit = 0 ∨ s.run.step < s.run.stepLimit)) ∧
    (∃ s : State, imgRt.hasRt = true ∧ imgRt.rtSkipLimit ≤ s.run.skips ∧ s.atBoundary imgRt = true) ∧
    (∃ s : State, s.run.suspendAt = some 0 ∧ s.run.skips < imgRt.rtSkipLimit ∧ s.atBoundary imgRt = true) :=
  ⟨⟨sJob Run.init Wheel.init, imgRt, rfl, by decide +kernel, by decide +kernel, by decide +kernel, by decide +kernel, by decide +kernel, by decide +kernel, (fun _ h => nomatch h), by decide +kernel, by decide +kernel, by decide +kernel, by decide +kernel, rfl, fun e h => absurd h (by rw [show imgRt.weirOf (sJob Run.init Wheel.init).ctx.table imgRt.rtFwdWeir = none by decide +kernel]; exact fun h => nomatch h)⟩,
    ⟨sJob { Run.init with stepLimit := 1, step := 1 } Wheel.init, imgRt, rfl, by decide +kernel⟩,
    ⟨sJob { Run.init with skips := 8 } Wheel.init, imgRt, rfl, by decide +kernel⟩,
    ⟨sJob { Run.init with skips := 8 } Wheel.init, by decide +kernel⟩,
    ⟨sJob { Run.init with suspendAt := some 0 } Wheel.init, by decide +kernel⟩⟩
theorem witness_StepDecision :
    (∃ (s : State) (img : Image) (rs : List (Word64 × Word64)) (v : Votes), (UnderDecision s img) ∧ (img.hasRt = true) ∧ (s.wheel.exchanging = true) ∧ (s.allRecords = some rs) ∧ (v = votesOf rs) ∧ (s.decisionPages img = []) ∧ (v.late = false) ∧ (v.digest = false) ∧ (v.cMin ≠ 0) ∧ (256 * (s.wheel.p * img.rtM - v.cMin) ≤ img.rtSkipFraction * (s.wheel.p * img.rtM))) ∧
    (AreasApart imgRt) ∧
    (∃ (s : State) (img : Image) (rs : List (Word64 × Word64)) (v : Votes), (UnderDecision s img) ∧ (img.hasRt = true) ∧ (s.wheel.exchanging = true) ∧ (s.allRecords = some rs) ∧ (v = votesOf rs) ∧ (s.decisionPages img = []) ∧ (v.late = true ∨ v.digest = true ∨ v.cMin = 0 ∨ img.rtSkipFraction * (s.wheel.p * img.rtM) < 256 * (s.wheel.p * img.rtM - v.cMin))) ∧
    (∃ (s : State) (img : Image), (UnderDecision s img) ∧ (img.hasRt = false)) ∧
    (∃ (s : State) (img : Image), (s.image = some img) ∧ (img.hasRt = true) ∧ (s.wheel.exchanging = true) ∧ (s.run.inStep = true) ∧ (s.wheel.stalled = false) ∧ (NMap.get none s.wheel.records s.wheel.device = none) ∧ (s.wheel.suspected = false) ∧ (s.wheel.heldFrames = [])) ∧
    (∃ (s : State), ∀ (d : Nat), d < s.wheel.p → NMap.get none s.wheel.records d ≠ none) ∧
    (∃ (s : State) (img : Image), s.run.backward = true) ∧
    (∃ (s : State) (img : Image), (s.run.backward = false) ∧ (s.groupTotal img.gradGroup false ≤ s.run.gradNan)) :=
  ⟨⟨sJob inStepR (wRec 0x10000), imgRt, [(0x10000, 1)], _, under_of _ _ rfl rfl, by decide +kernel, by decide +kernel, by decide +kernel, rfl, by decide +kernel⟩,
    ⟨by decide +kernel, by decide +kernel, by decide +kernel, by decide +kernel⟩,
    ⟨sJob inStepR (wRec 0x10002), imgRt, [(0x10002, 1)], _, under_of _ _ rfl rfl, by decide +kernel, by decide +kernel, by decide +kernel, rfl, by decide +kernel⟩,
    ⟨{ sJob inStepR Wheel.init with image := some img0 }, img0, ⟨rfl, rfl, by decide +kernel, rfl, rfl, rfl, rfl, rfl⟩, by decide +kernel⟩,
    ⟨sJob inStepR { wRec 0 with records := [] }, imgRt, rfl, by decide +kernel⟩,
    ⟨sJob inStepR (wRec 0), by decide +kernel⟩,
    ⟨sJob { Run.init with backward := true } Wheel.init, imgRt, by decide +kernel⟩,
    ⟨sJob Run.init Wheel.init, imgRt, by decide +kernel⟩⟩
theorem witness_BucketsAndExchanges :
    (∃ (s : State) (u : State) (img : Image) (b : Nat), (s.image = some img) ∧ (s.wheel.active = true) ∧ (s.wheel.stalled = false) ∧ (b = s.wheel.nextLaunch) ∧ (b < img.bucketCount) ∧ (s.inFlight < 4) ∧ (s.syn = [])) ∧
    (∃ (s : State), s.inFlight < 4) ∧
    (∃ (s : State) (img : Image) (b : Nat) (c : Nat), (s.image = some img) ∧ (Quiet s) ∧ ((s.bucketSt b).st = BucketState.filling) ∧ (s.wheel.stalled = false) ∧ (s.wheel.heldFrames = []) ∧ (2 ≤ (s.bucketSt b).passed ∨ s.wheelReleased img (img.bucket b).fill = true) ∧ (c = if 2 ≤ (s.bucketSt b).passed then (s.bucketSt b).count else s.contribution img)) ∧
    (∃ (s : State) (img : Image) (b : Nat) (c : Nat) (v : List Nat), (s.image = some img) ∧ (Quiet s) ∧ (s.shardReady img b = true) ∧ (v = (s.shardVals img b).fst) ∧ (c = s.shardCount img b)) ∧
    (∃ (s : State) (img : Image) (b : Nat), (s.image = some img) ∧ (Quiet s) ∧ ((s.bucketSt b).st = BucketState.reduced) ∧ (b = s.wheel.nextGather) ∧ (s.wheel.stalled = false) ∧ (s.wheel.heldFrames = []) ∧ (4 ≤ (s.bucketSt b).passed ∨ s.wheelReleased img (img.bucket b).updated = true)) ∧
    (∃ s : State, (imgX 2 0 1).ringStages s.wheel.device ≠ [] ∧ (s.bucketSt 0).st = .reduced ∧ (s.bucketSt 0).passed = 4) ∧
    (∃ s : State, (imgX 1 0 1).ringStages s.wheel.device = [] ∧ (s.bucketSt 0).st = .reduced ∧ (s.bucketSt 0).passed = 4) ∧
    (∃ (s u : State) (img : Image) (a : Nat) (c : ExchCtx), s.image = some img ∧ Quiet s ∧ s.wheel.active = true ∧ s.wheel.stalled = false ∧ a < img.exchangeCount ∧ (s.exchSt a).sent = false ∧ (2 ≤ (s.exchSt a).passed ∨ (s.exchSt a).passed = 1 ∧ s.wheelReleased img (img.exch a).sendWeir = true) ∧ u = State.setExch (if 2 ≤ (s.exchSt a).passed then s else s.wheelTake img (img.exch a).sendWeir) a { s.exchSt a with passed := max 2 (s.exchSt a).passed, sent := true } ∧ u.exchCtx img a = some c ∧ c.x.ret = false) ∧
    (∃ (s : State) (c : ExchCtx) (y : ExchDef), s.exchCtx (imgX 2 0 2) 1 = some c ∧ c.x.ret = true ∧ (imgX 2 0 2).dispatchExch c.x.router 1 = some y) ∧
    (∃ (s : State) (img : Image) (a : Nat) (c : ExchCtx) (f : Frame), f ∈ s.dispatchFrames img a c) ∧
    (∃ (s : State) (img : Image) (a : Nat), (s.image = some img) ∧ (s.wheel.active = true) ∧ ((s.exchSt a).passed < 3) ∧ ((s.exchSt a).sent = true) ∧ (s.exchComplete img a = true)) ∧
    (∃ (s : State) (img : Image), (s.image = some img) ∧ (s.wheel.active = true) ∧ (img.hasRt = true) ∧ (s.wheel.atCommit = false) ∧ (∀ (b : Nat), b < img.bucketCount → (s.bucketSt b).st = BucketState.gathered) ∧ (∀ (a : Nat), a < img.exchangeCount → (s.exchSt a).passed = 3)) ∧
    (∃ (s : State), s.wheel.atCommit = true) :=
  ⟨⟨sGa 2 1 Bucket.init ex2, sGa 2 1 Bucket.init ex2, imgX 2 0 1, 0, rfl, by decide +kernel⟩,
    ⟨sGa 2 1 ringB ex2, by decide +kernel⟩,
    ⟨sGa 2 1 { Bucket.init with st := .filling, passed := 2 } ex2, imgX 2 0 1, 0, _, rfl, quiet_of _ (by decide +kernel), by decide +kernel, by decide +kernel, by decide +kernel, by decide +kernel, rfl⟩,
    ⟨sGa 2 1 { ringB with stage := 1 } ex2, imgX 2 0 1, 0, _, _, rfl, quiet_of _ (by decide +kernel), by decide +kernel, rfl, rfl⟩,
    ⟨sGa 2 1 { Bucket.init with st := .reduced, passed := 4 } ex2, imgX 2 0 1, 0, rfl, quiet_of _ (by decide +kernel), by decide +kernel⟩,
    ⟨sGa 2 1 { Bucket.init with st := .reduced, passed := 4 } ex2, by decide +kernel⟩,
    ⟨sGa 1 1 { Bucket.init with st := .reduced, passed := 4 } ex2, by decide +kernel⟩,
    ⟨sGa 2 1 Bucket.init ex2, State.setExch (sGa 2 1 Bucket.init ex2) 0 { ex2 with sent := true }, imgX 2 0 1, 0, ((State.setExch (sGa 2 1 Bucket.init ex2) 0 { ex2 with sent := true }).exchCtx (imgX 2 0 1) 0).get (by decide +kernel), rfl, quiet_of _ (by decide +kernel), by decide +kernel, by decide +kernel, by decide +kernel, by decide +kernel, by decide +kernel, rfl, some_of _ _, by decide +kernel⟩,
    ⟨sGa 2 2 Bucket.init ex2, ((sGa 2 2 Bucket.init ex2).exchCtx (imgX 2 0 2) 1).get (by decide +kernel), ((imgX 2 0 2).dispatchExch 0 1).get (by decide +kernel), some_of _ _, by decide +kernel⟩,
    ⟨sGa 2 1 Bucket.init ex2, imgX 2 0 1, 0, ((sGa 2 1 Bucket.init ex2).exchCtx (imgX 2 0 1) 0).get (by decide +kernel), ((sGa 2 1 Bucket.init ex2).dispatchFrames (imgX 2 0 1) 0 (((sGa 2 1 Bucket.init ex2).exchCtx (imgX 2 0 1) 0).get (by decide +kernel))).head (by decide +kernel), List.head_mem _⟩,
    ⟨sGa 2 1 Bucket.init exSent, imgX 2 0 1, 0, rfl, by decide +kernel⟩,
    ⟨sJob inStepR { Wheel.init with active := true }, imgRt, rfl, by decide +kernel⟩,
    ⟨{ sUp with wheel := { Wheel.init with atCommit := true } }, by decide +kernel⟩⟩
theorem witness_SnapshotOpens :
    (∃ (s : State) (img : Image) (o : Op), (s.image = some img) ∧ (s.atBoundary img = true) ∧ (s.snap.held = true) ∧ (Quiet s) ∧ (s.op s.snap.heldHandle = some o) ∧ (o.state = OpState.running) ∧ (s.run.snapBase + s.run.snapLen ≤ 721554505728) ∧ (s.run.millFound = []) ∧ ((s.capturePond img).length + (s.captureHop img).length + 1 ≤ s.run.snapLen / pageBytes)) ∧
    (∃ (s : State) (page : Nat) (i : Nat) (k : Nat) (p : SnapPage), (s.syn = []) ∧ (page < 344064) ∧ (s.protectedPage page = true) ∧ (s.run.millFound = []) ∧ ((s.snap.touched.any fun x => x.wait.page == page) = true) ∧ (s.freeSlot = some k) ∧ (s.snap.pageAt page = some i) ∧ (s.snap.pages[i]? = some p) ∧ (s.wheel.heldFrames = []) ∧ (s.snap.base + s.snap.slotCount * pageBytes ≤ 721554505728) ∧ (p.phys + pageBytes ≤ s.snap.base ∨ s.snap.base + s.snap.slotCount * pageBytes ≤ p.phys)) ∧
    (∃ (s : State) (page : Nat) (w : Touched) (since : Nat), (s.protectedPage page = true) ∧ (s.freeSlot = some 0) ∧ (s.snap.pageAt page = some 0) ∧ (List.find? (fun x => x.wait.page == page) s.snap.touched = some w) ∧ (w.slotSince = some since)) ∧
    (∃ (s : State) (page : Nat), s.freeSlot = none) ∧
    (∃ (s : State) (k : Nat), s.freeSlot = some k) :=
  ⟨⟨{ sJob { Run.init with snapBase := 0x200000, snapLen := 0x200000 } Wheel.init with snap := { Snap.init with held := true, heldHandle := 1 } }, imgRt, opK .job .running 0, rfl, by decide +kernel, by decide +kernel, quiet_of _ (by decide +kernel), by decide +kernel⟩,
    ⟨sSn .streaming [pg], 0, 0, 0, pg, by decide +kernel⟩,
    ⟨sSn .streaming [pg], 0, ⟨⟨0, 0x3001, 1⟩, 5, some 7⟩, 7, by decide +kernel⟩,
    ⟨sUp, 0, by decide +kernel⟩,
    ⟨sSn .streaming [pg], 0, by decide +kernel⟩⟩
theorem witness_SnapshotStream :
    (∃ (s : State) (u : State) (i : Nat) (k : Nat) (p : SnapPage), (s.snap.st = SnapState.streaming) ∧ (s.answeredPage = some i) ∧ (s.snap.pages[i]? = some p) ∧ (p.slot = some k)) ∧
    (∃ (s : State) (u : State) (i : Nat) (p : SnapPage), (s.snap.st = SnapState.streaming) ∧ (s.answeredPage = some i) ∧ (s.snap.pages[i]? = some p) ∧ (p.slot = none) ∧ (p.store = 0) ∧ (s.snap.final = false)) ∧
    (∃ (s : State), (s.snap.st = SnapState.streaming) ∧ (s.answeredPage = none)) ∧
    (∃ (s : State) (i : Nat) (p : SnapPage), (s.snap.st = SnapState.streaming) ∧ (s.snap.inFlight = false) ∧ (s.snap.nextPage = some i) ∧ (s.snap.pages[i]? = some p) ∧ (s.syn = [])) ∧
    (∃ (sn : Snap) (i : Nat) (j : Nat) (p : SnapPage) (q : SnapPage), (sn.nextPage = some i) ∧ (sn.pages[i]? = some p) ∧ (sn.pages[j]? = some q) ∧ (q.sent = false)) ∧
    (∃ (sn : Snap) (i : Nat) (j : Nat) (p : SnapPage) (q : SnapPage), (sn.nextPage = some i) ∧ (sn.pages[i]? = some p) ∧ (sn.pages[j]? = some q) ∧ (q.sent = false) ∧ (p.slot = none) ∧ (q.slot = some 1) ∧ (i ≠ j)) ∧
    (∃ (sn : Snap) (i : Nat) (j : Nat) (p : SnapPage) (q : SnapPage), (sn.nextPage = some i) ∧ (sn.pages[i]? = some p) ∧ (sn.pages[j]? = some q) ∧ (q.sent = false) ∧ (p.slot = some 0) ∧ (q.slot = some 1) ∧ (1 < sn.slotCount)) ∧
    (∃ (s : State), (s.snap.st = SnapState.streaming) ∧ (s.snap.pagesLeft = 0)) ∧
    (∃ (s : State) (o : Op), (s.snap.st = SnapState.sealing) ∧ ((s.snapReq fun x => x == ReqOwner.snapTable) = false) ∧ (s.op s.snap.handle = some o) ∧ (o.state = OpState.running) ∧ (s.run.failed = false)) ∧
    (∃ (s : State) (o : Op), (s.snap.st ≠ SnapState.idle) ∧ (s.snapLost = true) ∧ (s.op s.snap.handle = some o) ∧ (o.state = OpState.running) ∧ (s.wheel.heldFrames = []) ∧ (s.run.failed = false)) :=
  ⟨⟨sSn .streaming [{ pg with slot := some 0, sent := true }], sSn .streaming [{ pg with slot := some 0, sent := true }], 0, 0, { pg with slot := some 0, sent := true }, by decide +kernel⟩,
    ⟨sSn .streaming [{ pg with sent := true }], sSn .streaming [{ pg with sent := true }], 0, { pg with sent := true }, by decide +kernel⟩,
    ⟨sSn .streaming [], by decide +kernel⟩,
    ⟨sSn .streaming [pg], 0, pg, by decide +kernel⟩,
    ⟨(sSn .streaming [pg, pg]).snap, 0, 1, pg, pg, by decide +kernel⟩,
    ⟨(sSn .streaming [pg, { pg with slot := some 1 }]).snap, 0, 1, pg, { pg with slot := some 1 }, by decide +kernel⟩,
    ⟨{ (sSn .streaming [{ pg with slot := some 1 }, { pg with slot := some 0 }]).snap with slotCount := 2 }, 1, 0, { pg with slot := some 0 }, { pg with slot := some 1 }, by decide +kernel⟩,
    ⟨sSn .streaming [], by decide +kernel⟩,
    ⟨sSn .sealing [], opK .snapshot .running 0, by decide +kernel⟩,
    ⟨{ sSn .streaming [] with qps := [] }, opK .snapshot .running 0, by decide +kernel⟩⟩
theorem witness_Restores :
    (∃ (s : State) (h : LeatHdr) (ses : Session) (a : Nat), (ses.control = true) ∧ (a < 2 ^ 64) ∧ (s.pwr.plCur = 0) ∧ (s.pwr.plBusy = false) ∧ (Admitted s h ses 35 (leBytes 8 a))) ∧
    (∃ s : State, Admitted s (hd 35 (leBytes 8 0)) ses1 35 (leBytes 8 0) ∧ s.memctl.zeroed = true ∧ s.busyOp .restore = true) ∧
    (∃ s : State, Admitted s (hd 35 (leBytes 8 1)) ses1 35 (leBytes 8 1) ∧ s.memctl.zeroed = true ∧ s.busyOp .restore = false) ∧
    (∃ s : State, Admitted s (hd 35 (leBytes 8 0xA800000000)) ses1 35 (leBytes 8 0xA800000000) ∧ s.memctl.zeroed = true ∧ s.busyOp .restore = false) ∧
    (∃ s : State, Admitted s (hd 35 (leBytes 8 0)) ses1 35 (leBytes 8 0) ∧ s.memctl.zeroed = true ∧ s.busyOp .restore = false ∧ (((s.rx 0).millerRead 0 224).1.jobRuns = true ∨ ((s.rx 0).millerRead 0 224).1.run.job ≠ 0 ∨ ((s.rx 0).millerRead 0 224).1.snap.st ≠ .idle)) ∧
    (∃ s : State, Admitted s (hd 35 (leBytes 8 0)) ses1 35 (leBytes 8 0) ∧ s.memctl.zeroed = true ∧ s.busyOp .restore = false ∧ ((s.rx 0).millerRead 0 224).1.jobRuns = false ∧ ((s.rx 0).millerRead 0 224).1.run.job = 0 ∧ ((s.rx 0).millerRead 0 224).1.snap.st = .idle ∧ ((s.rx 0).millerRead 0 224).1.image = none) ∧
    (∃ s : State, Admitted s (hd 35 (leBytes 8 0)) ses1 35 (leBytes 8 0) ∧ s.memctl.zeroed = true ∧ s.busyOp .restore = false ∧ ((s.rx 0).millerRead 0 224).1.jobRuns = false ∧ ((s.rx 0).millerRead 0 224).1.run.job = 0 ∧ ((s.rx 0).millerRead 0 224).1.snap.st = .idle ∧ ((s.rx 0).millerRead 0 224).1.image = some img0 ∧ qpDescValid (((s.rx 0).millerRead 0 224).2.take 64) = true) ∧
    (∃ (s : State) (img : Image) (data : List Byte) (q : Qp) (r : Req) (o : Op) (a : Nat), (s.image = some img) ∧ (s.pageReq = some r) ∧ (s.qp 384 = some q) ∧ (s.restore.busy = true) ∧ (s.restore.paging = true) ∧ (data.length = pageBytes) ∧ (s.opOf OpKind.restore = some o) ∧ (o.state = OpState.running)) ∧
    (∃ (s : State) (data : List Byte), data.length = pageBytes ∧ sha512 data = slice (s.restore.entry s.restore.next) 16 64 ∧ entryAddr img0 (s.restore.entry s.restore.next) = some 0) ∧
    (∃ (s : State) (data : List Byte), data.length = pageBytes ∧ sha512 data ≠ slice (s.restore.entry s.restore.next) 16 64 ∧ s.restore.retried = false) ∧
    (∃ (s : State) (data : List Byte), data.length = pageBytes ∧ sha512 data ≠ slice (s.restore.entry s.restore.next) 16 64 ∧ s.restore.retried = true) ∧
    (∃ (s : State) (img : Image), (s.image = some img) ∧ (s.restore.busy = true) ∧ (s.restore.paging = true) ∧ (s.restore.next = s.restore.count) ∧ (s.pageReq = none) ∧ (s.restHeld = false)) ∧
    (∃ (s : State), s.restore.busy = false) :=
  ⟨⟨sLeat, hd 35 (leBytes 8 0), ses1, 0, by decide +kernel, by decide +kernel, by decide +kernel, by decide +kernel, adm _ _ 35 (leBytes 8 0) (by decide +kernel) (by decide +kernel) rfl rfl rfl⟩,
    ⟨sOp .restore .running 0, adm _ _ 35 (leBytes 8 0) (by decide +kernel) (by decide +kernel) rfl rfl rfl, by decide +kernel⟩,
    ⟨sLeat, adm _ _ 35 (leBytes 8 1) (by decide +kernel) (by decide +kernel) rfl rfl rfl, by decide +kernel⟩,
    ⟨sLeat, adm _ _ 35 (leBytes 8 0xA800000000) (by decide +kernel) (by decide +kernel) rfl rfl rfl, by decide +kernel⟩,
    ⟨sJob Run.init Wheel.init, adm _ _ 35 (leBytes 8 0) (by decide +kernel) (by decide +kernel) rfl rfl rfl, by decide +kernel⟩,
    ⟨sLeat, adm _ _ 35 (leBytes 8 0) (by decide +kernel) (by decide +kernel) rfl rfl rfl, by decide +kernel⟩,
    ⟨{ sLeat with image := some img0, mem := [(1, 1)] }, adm _ _ 35 (leBytes 8 0) (by decide +kernel) (by decide +kernel) rfl rfl rfl, by decide +kernel⟩,
    ⟨sRest [] false, img0, List.replicate pageBytes 0, qpOf [rq2], rq2, opK .restore .running 0, 0, rfl, by decide +kernel, by decide +kernel, by decide +kernel, by decide +kernel, List.length_replicate, by decide +kernel⟩,
    ⟨sRest (sha512 (List.replicate pageBytes 0)) false, List.replicate pageBytes 0, List.length_replicate, sRest_digest _, sRest_addr _⟩,
    ⟨sRest [] false, List.replicate pageBytes 0, List.length_replicate, sRest_differs _ _, rfl⟩,
    ⟨sRest [] true, List.replicate pageBytes 0, List.length_replicate, sRest_differs _ _, rfl⟩,
    ⟨{ sRest [] false with qps := [], restore := { Restore.init with busy := true, paging := true } }, img0, rfl, by decide +kernel⟩,
    ⟨sUp, by decide +kernel⟩⟩
theorem witness_StepRunsCommand :
    (∃ (s : State) (c : Instr) (cs : List Instr), s.pending = c :: cs) ∧
    (∃ (s : State), s.pending = []) ∧
    (∃ (s : State), (s.pending = []) ∧ (s.image = none) ∧ (s.wheel.heldFrames = []) ∧ (s.time.running = true)) :=
  ⟨⟨{ sUp with pending := [.pwrEnFall] }, .pwrEnFall, [], by decide +kernel⟩,
    ⟨sUp, by decide +kernel⟩,
    ⟨sUp, by decide +kernel⟩⟩
theorem witness_ResetState :
    (∃ (p : Nat × Nat), p ∈ [(0, 1347158024), (4, 16777474), (8, 45846275), (512, 16711680), (768, 0), (776, 0), (1024, 0), (65536, 1678439100), (65540, 0), (65544, 0), (65548, 16711680), (65552, 1), (131072, 0), (196608, 0), (196620, 0), (262144, 2147483648), (262160, 39329984), (262164, 1008710), (262400, 0), (262432, 267386880), (327680, 255), (327684, 0), (393216, 3223265392), (393220, 1879048192), (458752, 3223265392), (458756, 1879048192), (589824, 0), (655360, 0), (655364, 0), (2097152, 0)]) ∧
    (∃ (n : Nat), n < 8) ∧
    (∃ (n : Nat), n < 12) ∧
    (∃ (n : Nat), n < 18) :=
  ⟨⟨(0, 1347158024), by decide +kernel⟩,
    ⟨7, by decide +kernel⟩,
    ⟨11, by decide +kernel⟩,
    ⟨17, by decide +kernel⟩⟩
theorem witness_CanonicalKept : ∃ (s : State) (t : State), (s.Canonical) ∧ (step s = Host.Outcome.next t) :=
  ⟨State.reset, _, ⟨by decide +kernel, by decide +kernel, by decide +kernel, by decide +kernel⟩, rfl⟩

end Sys2Proof.Tests
end

/-! PROOF. What an access to a Hopper does while nothing disturbs it: where its bytes lie, what a read, a store and an access that a
fixed rule resolves leave behind (R82, R84, R89, R101). -/
namespace Sys2Proof

/-! ### Lists of different numbers -/

theorem NMap.mem_insert {α : Type} {m : NMap α} {k : Nat} {v : α} {e : Nat × α} (h : e ∈ NMap.insert m k v) : e = (k, v) ∨ e ∈ m := by
  induction m with
  | nil => simpa [NMap.insert] using h
  | cons x m ih =>
    simp only [NMap.insert] at h
    split at h
    · simpa using h
    · rcases List.mem_cons.1 h with rfl | h
      · exact .inr List.mem_cons_self
      · exact (ih h).imp_right (List.mem_cons_of_mem _)

theorem NMap.key_of_mem_set {m : NMap Nat} {k v : Nat} {e : Nat × Nat} (h : e ∈ NMap.set 0 m k v) : e.1 = k ∨ e ∈ m := by
  have erased {e : Nat × Nat} (h : e ∈ NMap.erase m k) : e ∈ m := ((NMap.mem_erase m k e).1 h).1
  simp only [NMap.set] at h
  split at h
  · exact .inr (erased h)
  · exact (NMap.mem_insert h).imp (congrArg Prod.fst) erased

end Sys2Proof

namespace Sys2Proof.Machine

/-- The different numbers of a list are numbers of the list. -/
theorem mem_of_mem_distinct {xs : List Nat} {x : Nat} (h : x ∈ distinct xs) : x ∈ xs := by
  suffices key : ∀ (xs : List Nat) (m : NMap Nat) (e : Nat × Nat),
      e ∈ xs.foldl (fun (m : NMap Nat) x => if NMap.get 0 m x = 1 then m else NMap.set 0 m x 1) m → e.1 ∈ xs ∨ e ∈ m by
    obtain ⟨e, he, rfl⟩ := List.mem_map.1 h
    exact (key xs [] e he).resolve_right List.not_mem_nil
  intro xs
  induction xs with
  | nil => exact fun m e he => .inr he
  | cons y ys ih =>
    intro m e he
    simp only [List.foldl_cons] at he
    rcases ih _ e he with hys | hm
    · exact .inl (List.mem_cons_of_mem _ hys)
    · split at hm
      · exact .inr hm
      · exact (NMap.key_of_mem_set hm).imp_left fun hk => List.mem_cons.2 (.inl hk)

/-- Core alone has no such lemma, and the proofs are also built without Mathlib. -/
theorem filter_never {α : Type} (xs : List α) : xs.filter (fun _ => false) = [] := List.filter_eq_nil_iff.2 fun _ _ => Bool.false_ne_true

@[simp] theorem distinct_nil : distinct [] = [] := rfl
@[simp] theorem distinct_singleton (x : Nat) : distinct [x] = [x] := rfl

/-! ### Whole bytes of an element -/

/-- Byte `i` of a number's little-endian bytes. -/
theorem getD_leBytes (n v i : Nat) (h : i < n) : (leBytes n v).getD i 0 = BitVec.ofNat 8 (v / 256 ^ i) := by
  induction n generalizing v i with
  | zero => omega
  | succ n ih =>
    cases i with
    | zero => simp [leBytes]
    | succ i => rw [leBytes, List.getD_cons_succ, ih _ _ (by omega), Nat.div_div_eq_div_mul, ← Nat.pow_succ']

/-- An element of whole bytes leaves nothing of the bytes it is merged into. -/
theorem Put.merge_wholeBytes (a n v i : Nat) (old : Byte) (h : i < n) :
    (⟨a, 0, 8 * n, v⟩ : Put).merge i old = BitVec.ofNat 8 (v / 256 ^ i) := by
  have h256 : 256 ^ i = 2 ^ (8 * i) := by rw [Nat.pow_mul]
  refine BitVec.eq_of_getLsbD_eq fun j hj => ?_
  have hin : j + 8 * i < 8 * n := by omega
  simp only [Put.merge, h256, BitVec.getLsbD_or, BitVec.getLsbD_and, BitVec.getLsbD_not, BitVec.getLsbD_ofNat, Nat.pow_zero, Nat.mul_one,
    Nat.testBit_div_two_pow, Nat.testBit_mod_two_pow, Nat.testBit_two_pow_sub_one]
  simp [hj, hin]

/-! ### Presentations, links and checks -/

/-- A step that adds to the presentations alone, taken for each element of a list, adds to the presentations alone. -/
theorem State.foldl_due {β : Type} {f : State → β → State} (hf : ∀ s b, ∃ d, f s b = { s with due := d }) (bs : List β) (s : State) :
    ∃ d, bs.foldl f s = { s with due := d } := by
  induction bs generalizing s with
  | nil => exact ⟨s.due, rfl⟩
  | cons b bs ih =>
    obtain ⟨d, hd⟩ := hf s b
    obtain ⟨d', hd'⟩ := ih { s with due := d }
    exact ⟨d', by rw [List.foldl_cons, hd, hd']⟩

theorem State.present_due (s : State) (key : Nat) (x : Due) : ∃ d, s.present key x = { s with due := d } := by
  unfold State.present
  split
  · exact ⟨s.due, rfl⟩
  · exact ⟨_, rfl⟩

/-- Presenting an access adds to the presentations alone. -/
theorem State.presentAll_due (s : State) (img : Image) (ag : Agent) (w : Bool) (as : List Nat) :
    ∃ d, s.presentAll img ag w as = { s with due := d } :=
  State.foldl_due (fun t _ => State.foldl_due (fun u _ => u.present_due _ _) _ t) _ s

/-- What a fixed rule says of an access does not depend on the presentations that wait. -/
theorem State.deny_due (s : State) (d : NMap (List Due)) (img : Image) (ag : Agent) (a : Nat) :
    State.deny { s with due := d } img ag a = s.deny img ag a := rfl

theorem State.linkErrors_clean {s : State} (h : s.noc = []) (img : Image) (ag : Agent) (w : Bool) (g : Option Nat) (as : List Nat) :
    s.linkErrors img ag w g as = s := by simp [State.linkErrors, h]

theorem State.synOf_clean {s : State} (h : s.syn = []) (w : Nat) : s.synOf w = 0 := by simp [State.synOf, h]

theorem State.byte_clean {s : State} (h : s.syn = []) (a : Nat) : s.byte a = NMap.get 0 s.mem a := by
  simp [State.byte, State.rawByte, State.synOf_clean h]

theorem State.poke_clean {s : State} (h : s.syn = []) (a : Nat) (b : Byte) : s.poke a b = s.setByte a b := by
  simp [State.poke, State.settle, State.synOf_clean h]

theorem Quiet.wakingAt {s : State} (q : Quiet s) (a : Nat) : s.wakingAt a = false := by
  unfold State.wakingAt
  split
  · exact beq_false_of_ne (q.banks _)
  · rfl

theorem Quiet.any_wakingAt {s : State} (q : Quiet s) (as : List Nat) : as.any s.wakingAt = false :=
  List.any_eq_false.2 fun a _ => by rw [q.wakingAt a]; exact Bool.false_ne_true

theorem Quiet.due {s : State} (q : Quiet s) (d : NMap (List Due)) : Quiet { s with due := d } :=
  ⟨q.syn, q.kettleSyn, q.links, q.snap, q.banks⟩

theorem State.verifyWords_nil (s : State) : s.verifyWords [] = (s, []) := rfl
theorem State.ueOutcome_nil (s : State) (g : Option Nat) : s.ueOutcome g [] = s := rfl

/-- A part of an operation that leaves the run as it was lets the operation go on. -/
theorem outOf_go {s t : State} (h : t.run = s.run) : outOf s t = .go t := by simp [outOf, h]

/-! ### Accesses that are performed at once -/

/-- Every byte of an access reaches its own address, outside the data region and by no fixed rule, as does the first byte of its
128 B quarter. -/
structure State.Served (s : State) (img : Image) (ag : Agent) (as : List Nat) : Prop where
  own : ∀ a ∈ as, s.xlat img a = a
  performed : ∀ a ∈ as, s.deny img ag a = none
  quarter : ∀ a ∈ as, s.deny img ag (a / 128 * 128) = none
  noData : ∀ a ∈ as, regionOf a ≠ .data

section
variable {s : State} {img : Image} {ag : Agent} {as : List Nat}

theorem State.Served.mono (h : s.Served img ag as) {bs : List Nat} (hbs : ∀ b ∈ bs, b ∈ as) : s.Served img ag bs :=
  ⟨fun b hb => h.own b (hbs b hb), fun b hb => h.performed b (hbs b hb), fun b hb => h.quarter b (hbs b hb),
    fun b hb => h.noData b (hbs b hb)⟩

theorem State.Served.due (h : s.Served img ag as) (d : NMap (List Due)) : State.Served { s with due := d } img ag as :=
  ⟨h.own, h.performed, h.quarter, h.noData⟩

/-- The addresses that the access reaches are the addresses it names. -/
theorem State.Served.distinct_xlat (h : s.Served img ag as) : s.Served img ag (distinct (as.map (s.xlat img))) := by
  rw [List.map_congr_left h.own, List.map_id']
  exact h.mono fun _ => mem_of_mem_distinct

theorem State.Served.countDenied (h : s.Served img ag as) : s.countDenied img ag as = s := by
  have none_denied : (distinct (as.map (· / 128))).filterMap (fun q => s.deny img ag (q * 128)) = [] := by
    refine List.filterMap_eq_nil_iff.2 fun q hq => ?_
    obtain ⟨a, ha, rfl⟩ := List.mem_map.1 (mem_of_mem_distinct hq)
    exact h.quarter a ha
  rw [State.countDenied, none_denied, List.foldl_nil]

theorem State.Served.waitsOn (h : s.Served img ag as) : s.waitsOn img ag as = [] := by
  unfold State.waitsOn
  induction as with
  | nil => rfl
  | cons a as ih =>
    rw [List.foldl_cons, if_neg fun hd => h.noData a List.mem_cons_self hd.1]
    exact ih (h.mono fun _ => List.mem_cons_of_mem a)

/-- A read that is performed at once presents its turns and does nothing else. -/
theorem State.Served.fetch (h : s.Served img ag as) (q : Quiet s) (g : Option Nat) (alloc : Bool) :
    ∃ d, s.fetch img ag g alloc as = .go { s with due := d } := by
  have hx := h.distinct_xlat
  generalize hxs : distinct (as.map (s.xlat img)) = xs at hx
  obtain ⟨d, hd⟩ := s.presentAll_due img ag false xs
  have no_data : (xs.filter fun a => (s.deny img ag a).isNone).filter (fun a => decide (regionOf a = .data)) = [] := by
    refine List.filter_eq_nil_iff.2 fun a ha hd => ?_
    exact hx.noData a (List.mem_filter.1 ha).1 (of_decide_eq_true hd)
  refine ⟨d, ?_⟩
  simp only [State.fetch, hxs, q.any_wakingAt, Bool.false_eq_true, if_false, hd, State.linkErrors_clean (s := { s with due := d }) q.links,
    (hx.due d).countDenied, State.synOf_clean (s := { s with due := d }) q.syn, ne_eq, not_true_eq_false, decide_false, filter_never,
    no_data, State.verifyWords_nil, State.ueOutcome_nil, List.map_nil, distinct_nil, List.foldl_nil]
  exact outOf_go rfl

/-- A store that is performed at once presents its turns and stores its elements. -/
theorem State.Served.deposit {ps : List Put} (h : s.Served img ag (ps.flatMap Put.bytes)) (q : Quiet s) (g : Option Nat) :
    ∃ d, s.deposit img ag g ps = .go (ps.foldl (fun v p => v.putOne img ag p) { s with due := d }) := by
  have hx := h.distinct_xlat
  rw [List.map_flatMap] at hx
  generalize hxs : distinct (ps.flatMap fun p => p.bytes.map (s.xlat img)) = xs at hx
  obtain ⟨d, hd⟩ := s.presentAll_due img ag true xs
  have unprotected : s.waitsOn img ag (xs.filter fun a => (s.deny img ag a).isNone) = [] :=
    (hx.mono fun _ ha => (List.mem_filter.1 ha).1).waitsOn
  refine ⟨d, ?_⟩
  simp only [State.deposit, hxs, q.any_wakingAt, unprotected, List.isEmpty_nil, Bool.not_true, Bool.false_eq_true, if_false, hd,
    State.seeBitmap, q.snap, if_true, State.linkErrors_clean (s := { s with due := d }) q.links, (hx.due d).countDenied,
    State.synOf_clean (s := { s with due := d }) q.syn, ne_eq, not_true_eq_false, decide_false, Bool.false_and, filter_never,
    State.verifyWords_nil, State.ueOutcome_nil, outOf_go (s := s) (t := { s with due := d }) rfl]

/-- A read that a fixed rule resolves presents its turn and counts the access. -/
theorem State.fetch_denied {a k : Nat} (q : Quiet s) (hown : s.xlat img a = a) (hdeny : s.deny img ag a = some k)
    (hquarter : s.deny img ag (a / 128 * 128) = some k) (g : Option Nat) (alloc : Bool) :
    ∃ d, s.fetch img ag g alloc [a] = .go (State.accessFault { s with due := d } k) := by
  obtain ⟨d, hd⟩ := s.presentAll_due img ag false [a]
  refine ⟨d, ?_⟩
  have fault : State.countDenied { s with due := d } img ag [a] = State.accessFault { s with due := d } k := by
    simp only [State.countDenied, List.map_cons, List.map_nil, distinct_singleton, State.deny_due, hquarter, List.filterMap_cons,
      List.filterMap_nil, List.foldl_cons, List.foldl_nil]
  have denied : [a].filter (fun b => (s.deny img ag b).isNone) = [] := by
    simp only [List.filter_cons, List.filter_nil, hdeny, Option.isNone_some, Bool.false_eq_true, if_false]
  simp only [State.fetch, List.map_cons, List.map_nil, distinct_singleton, hown, denied, List.any_nil, Bool.false_eq_true, if_false, hd,
    State.linkErrors_clean (s := { s with due := d }) q.links, fault, distinct_nil, List.filter_nil,
    State.verifyWords_nil, State.ueOutcome_nil, List.foldl_nil]
  exact outOf_go (State.raise_run _ _ _ _)

end

/-! ### What is read and stored -/

/-- Bytes that no fixed rule touches read as they stand. -/
theorem State.fabNum_served {s : State} {img : Image} {ag : Agent} {a n : Nat}
    (h : s.Served img ag ((List.range n).map (a + ·))) : s.fabNum img ag a n = s.num a n := by
  refine congrArg leNat (List.map_congr_left fun i hi => ?_)
  have hm : a + i ∈ (List.range n).map (a + ·) := List.mem_map_of_mem hi
  simp [State.fabByte, h.own _ hm, h.performed _ hm]

/-- An element of whole bytes replaces its bytes and changes nothing else. -/
theorem State.putOne_wholeBytes {s : State} {img : Image} {ag : Agent} {a n : Nat} (hsyn : s.syn = [])
    (h : s.Served img ag ((List.range n).map (a + ·))) (v : Nat) :
    ∃ m, s.putOne img ag ⟨a, 0, 8 * n, v⟩ = { s with mem := m } ∧
      ∀ x, NMap.get 0 m x = if a ≤ x ∧ x < a + n then (leBytes n v).getD (x - a) 0 else NMap.get 0 s.mem x := by
  have bytes_stored : ∀ k ≤ n, ∃ m, (List.range k).foldl (fun t i => t.putByte img ag ⟨a, 0, 8 * n, v⟩ i) s = { s with mem := m } ∧
      ∀ x, NMap.get 0 m x = if a ≤ x ∧ x < a + k then (leBytes n v).getD (x - a) 0 else NMap.get 0 s.mem x := by
    intro k
    induction k with
    | zero => exact fun _ => ⟨s.mem, rfl, fun x => by rw [if_neg (by omega)]⟩
    | succ k ih =>
      intro hk
      obtain ⟨m, hm, hget⟩ := ih (by omega)
      have hmem : a + k ∈ (List.range n).map (a + ·) := List.mem_map_of_mem (List.mem_range.2 hk)
      have put : State.putByte { s with mem := m } img ag ⟨a, 0, 8 * n, v⟩ k =
          State.setByte { s with mem := m } (a + k) ((leBytes n v).getD k 0) := by
        have hown : State.xlat { s with mem := m } img (a + k) = a + k := h.own _ hmem
        have hdeny : State.deny { s with mem := m } img ag (a + k) = none := h.performed _ hmem
        simp only [State.putByte, hown, hdeny, State.poke_clean (s := { s with mem := m }) hsyn, Put.merge_wholeBytes a n v k _ hk,
          getD_leBytes n v k hk, Option.isSome_none, Bool.false_eq_true, if_false]
      refine ⟨NMap.set 0 m (a + k) ((leBytes n v).getD k 0), ?_, fun x => ?_⟩
      · rw [List.range_succ, List.foldl_append, hm, List.foldl_cons, put]
        rfl
      · rw [NMap.get_set, hget]
        by_cases hx : x = a + k
        · subst hx
          rw [if_pos rfl, if_pos (by omega), Nat.add_sub_cancel_left]
        · rw [if_neg hx]
          have hin : (a ≤ x ∧ x < a + k) ↔ (a ≤ x ∧ x < a + (k + 1)) := by omega
          simp only [hin]
  have hbytes : (0 + 8 * n + 7) / 8 = n := by omega
  rw [State.putOne, hbytes]
  exact bytes_stored n (Nat.le_refl n)

/-- A word of whole bytes is stored: its turns wait, its bytes are replaced and nothing else changes. -/
theorem State.deposit_wholeBytes {s : State} {img : Image} {ag : Agent} {a n : Nat} (q : Quiet s)
    (h : s.Served img ag ((List.range n).map (a + ·))) (g : Option Nat) (v : Nat) :
    ∃ d m, s.deposit img ag g [⟨a, 0, 8 * n, v⟩] = .go { s with due := d, mem := m } ∧
      ∀ x, NMap.get 0 m x = if a ≤ x ∧ x < a + n then (leBytes n v).getD (x - a) 0 else NMap.get 0 s.mem x := by
  have hbytes : [(⟨a, 0, 8 * n, v⟩ : Put)].flatMap Put.bytes = (List.range n).map (a + ·) := by
    simp [Put.bytes, show (8 * n + 7) / 8 = n by omega]
  obtain ⟨d, hd⟩ := State.Served.deposit (hbytes ▸ h) q g
  obtain ⟨m, hm, hget⟩ := State.putOne_wholeBytes (s := { s with due := d }) q.syn (h.due d) v
  exact ⟨d, m, by rw [hd, List.foldl_cons, hm, List.foldl_nil], hget⟩

/-! ### Addresses of a Hopper -/

theorem regionOf_hopper {m o : Nat} (hm : m < 152) (ho : o < 0x200000) : regionOf (hopperBase m + o) = .hopper m o := by
  have hdiv : (hopperBase m + o - 0x020000000000) / 0x200000 = m := by unfold hopperBase; omega
  have hmod : (hopperBase m + o - 0x020000000000) % 0x200000 = o := by unfold hopperBase; omega
  unfold regionOf
  rw [if_neg (by unfold hopperBase; omega), if_neg (by unfold hopperBase; omega), if_neg (by unfold hopperBase; omega),
    if_neg (by unfold hopperBase; omega), if_neg (by unfold hopperBase; omega), if_pos (by unfold hopperBase; omega), hdiv, hmod]

/-- With the first parameter set in force an address of a Hopper is its own. -/
theorem State.xlat_hopper {s : State} {img : Image} {m o : Nat} (hset : s.run.set = false) (hm : m < 152) (ho : o < 0x200000) :
    s.xlat img (hopperBase m + o) = hopperBase m + o := by
  have hlt : hopperBase m + o < 2 ^ 48 := by unfold hopperBase; omega
  rw [State.xlat, Nat.mod_eq_of_lt hlt, hset]
  rfl

theorem State.deny_of_regionOf {s : State} {img : Image} {m m' c o a : Nat} (h : regionOf a = .hopper m o) :
    s.deny img (.mill m' c) a = s.denyHopper img m o := by simp only [State.deny, h]

theorem State.deny_hopper {s : State} {img : Image} {m m' c o : Nat} (hm : m < 152) (ho : o < 0x200000) :
    s.deny img (.mill m' c) (hopperBase m + o) = s.denyHopper img m o := State.deny_of_regionOf (regionOf_hopper hm ho)

theorem State.denyHopper_on {s : State} {img : Image} {m o : Nat} (huse : img.uses m = true) (hon : s.bankAt m o = .on) :
    s.denyHopper img m o = none := by simp [State.denyHopper, huse, hon]

theorem State.denyHopper_off {s : State} {img : Image} {m o : Nat} (huse : img.uses m = true) (hoff : s.bankAt m o = .off) :
    s.denyHopper img m o = some (cHopper m 5) := by simp [State.denyHopper, huse, hoff]

/-- Offsets of one bank are in the same state. -/
theorem State.bankAt_congr {s : State} {m o o' : Nat} (h : o / 0x20000 = o' / 0x20000) : s.bankAt m o = s.bankAt m o' := by
  rw [State.bankAt, h, State.bankAt]

/-- The quarter of a Hopper's byte starts in the same Hopper. -/
theorem hopperBase_quarter (m o : Nat) : (hopperBase m + o) / 128 * 128 = hopperBase m + o / 128 * 128 := by
  unfold hopperBase; omega

/-- Bytes of one bank that is ON are served to a Mill's engines and to its scalar core. -/
theorem State.served_of_on {s : State} {img : Image} {m m' c o n : Nat} (hset : s.run.set = false) (hm : m < 152) (ho : o < 0x200000)
    (huse : img.uses m = true) (hon : s.bankAt m o = .on) (hbank : o % 0x20000 + n ≤ 0x20000) :
    s.Served img (.mill m' c) ((List.range n).map (hopperBase m + o + ·)) := by
  have performed (x : Nat) (hx : x / 0x20000 = o / 0x20000) : s.deny img (.mill m' c) (hopperBase m + x) = none := by
    rw [State.deny_hopper hm (by omega)]
    exact State.denyHopper_on huse ((State.bankAt_congr hx).trans hon)
  have inside (a : Nat) (ha : a ∈ (List.range n).map (hopperBase m + o + ·)) : ∃ x, a = hopperBase m + x ∧ x / 0x20000 = o / 0x20000 := by
    obtain ⟨i, hi, rfl⟩ := List.mem_map.1 ha
    have := List.mem_range.1 hi
    exact ⟨o + i, Nat.add_assoc _ _ _, by omega⟩
  refine ⟨fun a ha => ?_, fun a ha => ?_, fun a ha => ?_, fun a ha => ?_⟩ <;> obtain ⟨x, rfl, hx⟩ := inside a ha
  · exact State.xlat_hopper hset hm (by omega)
  · exact performed x hx
  · exact hopperBase_quarter m x ▸ performed _ (by omega)
  · rw [regionOf_hopper hm (by omega)]
    exact Region.noConfusion

/-- An access to a bank that is OFF counts OFF_BANK_ACCESS, and its turn waits. -/
theorem State.fetch_off {s : State} {img : Image} {m m' c o : Nat} (q : Quiet s) (hset : s.run.set = false) (hm : m < 152)
    (ho : o < 0x200000) (huse : img.uses m = true) (hoff : s.bankAt m o = .off) (g : Option Nat) (alloc : Bool) :
    ∃ d, s.fetch img (.mill m' c) g alloc [hopperBase m + o] = .go (State.accessFault { s with due := d } (cHopper m 5)) := by
  refine State.fetch_denied q (State.xlat_hopper hset hm ho) ?_ ?_ g alloc
  · rw [State.deny_hopper hm ho, State.denyHopper_off huse hoff]
  · rw [hopperBase_quarter, State.deny_hopper hm (by omega), State.denyHopper_off huse]
    exact (State.bankAt_congr (by omega)).trans hoff

/-- An access that a fixed rule resolves counts once, and besides changes Leat, the outputs and counters alone. -/
theorem State.accessFault_frame (s : State) (k : Nat) : s.accessFault k = { s with
    leat := (s.accessFault k).leat, out := (s.accessFault k).out, cnt := (s.accessFault k).cnt } :=
  State.raise_frame (s.count k) _ _ _

theorem State.source_accessFault (s : State) (k : Nat) (hk : k ∉ eventCounters) : (s.accessFault k).source k = s.source k + 1 := by
  rw [State.accessFault, State.raise_source _ _ _ _ _ hk, State.source_count, if_pos rfl]

theorem cHopper_notMem_eventCounters {m : Nat} (hm : m < 152) (k : Nat) (hk : k < 8) : cHopper m k ∉ eventCounters := by
  simp only [eventCounters, cHopper, List.mem_cons, List.not_mem_nil, or_false]
  omega

end Sys2Proof.Machine

/-! PROOF. Compare-and-swap and count-equal at a Hopper (R88, R89, R101). -/
namespace Sys2Proof.Machine

/-! ### The operations at a data address -/

section
variable {s : State} {img : Image} {ag : Agent} {a : Nat}

theorem State.cas_served (m x y : Nat) (h : s.Served img ag ((List.range 8).map (a + ·))) (g : Option Nat) :
    s.cas img ag g m a x y = ((s.fetch img ag g true ((List.range 8).map (a + ·))).andThen fun t =>
      if s.num a 8 = x then t.deposit img ag g [⟨a, 0, 64, y⟩] else .go (t.count (cHopper m 7)), s.num a 8) := by
  have hmem : a ∈ (List.range 8).map (a + ·) := List.mem_map.2 ⟨0, List.mem_range.2 (by decide), rfl⟩
  simp [State.cas, h.own a hmem, h.performed a hmem, State.fabNum_served h]

/-- A compare-and-swap that finds the expected word replaces it. -/
theorem State.cas_match (m x y : Nat) (q : Quiet s) (h : s.Served img ag ((List.range 8).map (a + ·))) (g : Option Nat)
    (heq : s.num a 8 = x) : ∃ d μ, s.cas img ag g m a x y = (.go { s with due := d, mem := μ }, s.num a 8) ∧
      ∀ b, NMap.get 0 μ b = if a ≤ b ∧ b < a + 8 then (leBytes 8 y).getD (b - a) 0 else NMap.get 0 s.mem b := by
  obtain ⟨d, hd⟩ := h.fetch q g true
  obtain ⟨d', μ, hμ, hget⟩ := State.deposit_wholeBytes (q.due d) (h.due d) g y
  refine ⟨d', μ, ?_, hget⟩
  rw [State.cas_served m x y h, hd, Out.andThen, if_pos heq]
  exact congrArg (·, s.num a 8) hμ

/-- A compare-and-swap that finds another word counts CAS_MISS. -/
theorem State.cas_miss (m x y : Nat) (q : Quiet s) (h : s.Served img ag ((List.range 8).map (a + ·))) (g : Option Nat)
    (hne : s.num a 8 ≠ x) :
    ∃ d, s.cas img ag g m a x y = (.go (State.count { s with due := d } (cHopper m 7)), s.num a 8) := by
  obtain ⟨d, hd⟩ := h.fetch q g true
  exact ⟨d, by rw [State.cas_served m x y h, hd, Out.andThen, if_neg hne]⟩

/-- How many elements of `width` bytes of the line at `a` equal the low bytes of `value` (R88). -/
def State.equalCount (s : State) (a width value : Nat) : Nat :=
  ((List.range (512 / width)).filter fun i => s.num (a + width * i) width == value % 256 ^ width).length

theorem State.countEq_served (value : Nat) {width : Nat} (q : Quiet s) (h : s.Served img ag ((List.range 512).map (a + ·)))
    (g : Option Nat) : ∃ d, s.countEq img ag g a width value = (.go { s with due := d }, s.equalCount a width value) := by
  obtain ⟨d, hd⟩ := h.fetch q g true
  have hmem : a ∈ (List.range 512).map (a + ·) := List.mem_map.2 ⟨0, List.mem_range.2 (by decide), rfl⟩
  have element (i : Nat) (hi : i < 512 / width) : s.fabNum img ag (a + width * i) width = s.num (a + width * i) width := by
    refine State.fabNum_served (h.mono fun b hb => ?_)
    obtain ⟨j, hj, rfl⟩ := List.mem_map.1 hb
    have hj : j < width := List.mem_range.1 hj
    have hend : width * (i + 1) ≤ 512 := Nat.le_trans (Nat.mul_le_mul_left width hi) (Nat.mul_div_le 512 width)
    exact List.mem_map.2 ⟨width * i + j, List.mem_range.2 (by rw [Nat.mul_succ] at hend; omega), (Nat.add_assoc _ _ _).symm⟩
  have counted : (List.range (512 / width)).filter (fun i => s.fabNum img ag (a + width * i) width == value % 256 ^ width) =
      (List.range (512 / width)).filter (fun i => s.num (a + width * i) width == value % 256 ^ width) :=
    List.filter_congr fun i hi => by rw [element i (List.mem_range.1 hi)]
  refine ⟨d, ?_⟩
  rw [State.countEq, h.own a hmem, h.performed a hmem, counted, hd]
  rfl

end

/-! ### The commands -/

theorem hopperAgent_memOp {m c : Nat} (h : memOpCode c = true) : hopperAgent m c = .mill m c := by
  have hc : c = 6 ∨ c = 8 ∨ c = 10 := by simpa [memOpCode, or_assoc] using h
  rcases hc with rfl | rfl | rfl <;> rfl

/-- The state after a memory operation that went on to `t` and answers `v` in `n` bytes. -/
def State.answered (s t : State) (img : Image) (m n v : Nat) : State :=
  (State.moved { t with due := s.due }).emit (.returned (0x2000 + (img.logical m).getD 0) 4 (leBytes n v))

section
variable {s : State} {img : Image} {m : Fin 152} {req : BitVec 4} {off : BitVec 21}
variable (himg : s.image = some img) (hact : s.ctx.active = true) (hreq : memOpCode req.toNat = true)
include himg hact hreq

theorem exec_compareAndSwap_go {x y : Word64} {t : State} {v : Nat} (hal : off.toNat % 8 = 0)
    (h : s.cas img (.mill m.val req.toNat) none m.val (hopperBase m.val + off.toNat) x.toNat y.toNat = (.go t, v)) :
    exec (.compareAndSwap m req off x y) s = .next (s.answered t img m.val 8 v) := by
  show execCompareAndSwap m req off x y s = _
  simp only [execCompareAndSwap, himg, hact, hreq, hal, hopperAgent_memOp hreq, h, and_self, if_true]
  rfl

theorem exec_countEqual_go {w : Fin 4} {v : Word64} {t : State} {c : Nat} (hal : off.toNat % 512 = 0)
    (h : s.countEq img (.mill m.val req.toNat) none (hopperBase m.val + off.toNat) (2 ^ w.val) v.toNat = (.go t, c)) :
    exec (.countEqual m req off w v) s = .next (s.answered t img m.val 2 c) := by
  show execCountEqual m req off w v s = _
  simp only [execCountEqual, himg, hact, hreq, hal, hopperAgent_memOp hreq, h, and_self, if_true]
  rfl

/-- At a bank that is OFF both operations count the access and answer 0. -/
theorem exec_memoryOperation_off {x y : Word64} {w : Fin 4} (hal : off.toNat % 512 = 0) (q : Quiet s) (hset : s.run.set = false)
    (huse : img.uses m.val = true) (hoff : s.bankAt m.val off.toNat = .off) {c : Instr} {n : Nat}
    (hc : c = .compareAndSwap m req off x y ∧ n = 8 ∨ c = .countEqual m req off w y ∧ n = 2) :
    ∃ d, exec c s = .next (s.answered (State.accessFault { s with due := d } (cHopper m.val 5)) img m.val n 0) := by
  obtain ⟨d, hd⟩ := State.fetch_off (m' := m.val) (c := req.toNat) q hset m.isLt off.isLt huse hoff none true
  have denied : (s.deny img (.mill m.val req.toNat) (s.xlat img (hopperBase m.val + off.toNat))).isSome = true := by
    rw [State.xlat_hopper hset m.isLt off.isLt, State.deny_hopper m.isLt off.isLt, State.denyHopper_off huse hoff]
    rfl
  refine ⟨d, ?_⟩
  rcases hc with ⟨rfl, rfl⟩ | ⟨rfl, rfl⟩
  · exact exec_compareAndSwap_go himg hact hreq (by omega) (by rw [State.cas, if_pos denied, hd])
  · exact exec_countEqual_go himg hact hreq hal (by rw [State.countEq, if_pos denied, hd])

end

/-- Settles O33: each operation is a read that is performed at once, or a fixed rule that counts, and then an answer. -/
theorem memoryOperations : Obligations.MemoryOperations := by
  refine ⟨?_, ?_, ?_⟩
  · intro s img m req off x y himg hact hreq hal q hset huse hon
    have served : s.Served img (.mill m.val req.toNat) _ := State.served_of_on (n := 8) hset m.isLt off.isLt huse hon (by omega)
    by_cases heq : s.num (hopperBase m.val + off.toNat) 8 = x.toNat
    · obtain ⟨d, μ, hcas, hget⟩ := State.cas_match m.val x.toNat y.toNat q served none heq
      refine ⟨_, exec_compareAndSwap_go himg hact hreq hal hcas, rfl, ?_, fun a => ?_⟩
      · rw [if_pos heq]
        rfl
      · refine (hget a).trans ?_
        simp only [heq, true_and]
    · obtain ⟨d, hcas⟩ := State.cas_miss m.val x.toNat y.toNat q served none heq
      refine ⟨_, exec_compareAndSwap_go himg hact hreq hal hcas, rfl, ?_, fun a => ?_⟩
      · rw [if_neg heq]
        exact (State.source_count _ _ _).trans (if_pos rfl)
      · rw [if_neg fun h => heq h.1]
        rfl
  · intro s img m req off w v himg hact hreq hal q hset huse hon
    have served : s.Served img (.mill m.val req.toNat) _ := State.served_of_on (n := 512) hset m.isLt off.isLt huse hon (by omega)
    obtain ⟨d, hcount⟩ := State.countEq_served v.toNat (width := 2 ^ w.val) q served none
    have hexec := exec_countEqual_go himg hact hreq hal hcount
    exact hexec
  · intro s img m req off x y w himg hact hreq hal q hset huse hoff c n hc
    obtain ⟨d, hexec⟩ := exec_memoryOperation_off himg hact hreq hal q hset huse hoff hc
    refine ⟨_, hexec, ?_, rfl, ?_⟩
    · rw [State.accessFault_frame]
      rfl
    · exact State.source_accessFault _ _ (cHopper_notMem_eventCounters m.isLt 5 (by decide))

end Sys2Proof.Machine

/-! PROOF. The (72,64) code and the words that are verified and scrubbed (R125-R127, R129, R131, R318). -/
namespace Sys2Proof.Machine

/-! ### The check is linear: the check of an XOR is the XOR of the checks -/

/-- Mathlib has this lemma, core alone has not, and the proofs are also built without Mathlib. -/
theorem eq_of_xor_eq_zero {x y : Nat} (h : x ^^^ y = 0) : x = y := by
  calc x = x ^^^ y ^^^ y := by rw [Nat.xor_assoc, Nat.xor_self, Nat.xor_zero]
    _ = y := by rw [h, Nat.zero_xor]

theorem checkAux_zero (hs : List Nat) : checkAux hs 0 = 0 := by
  induction hs with
  | nil => rfl
  | cons h hs ih => simp [checkAux, ih]

theorem checkAux_xor (hs : List Nat) (a b : Nat) : checkAux hs (a ^^^ b) = checkAux hs a ^^^ checkAux hs b := by
  induction hs generalizing a b with
  | nil => exact (Nat.xor_self 0).symm
  | cons h hs ih =>
    have head : (if (a ^^^ b) % 2 = 1 then h else 0) = (if a % 2 = 1 then h else 0) ^^^ (if b % 2 = 1 then h else 0) := by
      simp only [Nat.xor_mod_two_eq_one]
      by_cases ha : a % 2 = 1 <;> by_cases hb : b % 2 = 1 <;> simp [ha, hb]
    simp only [checkAux, head, Nat.xor_div_two, ih]
    ac_rfl

/-- The check of a word with one bit set is that bit's set. -/
theorem checkAux_two_pow (hs : List Nat) (i : Nat) : checkAux hs (2 ^ i) = hs.getD i 0 := by
  induction hs generalizing i with
  | nil => rfl
  | cons h hs ih =>
    cases i with
    | zero => simp [checkAux, checkAux_zero]
    | succ i =>
      have even : 2 ^ (i + 1) % 2 = 0 := by rw [Nat.pow_succ, Nat.mul_mod_left]
      have half : 2 ^ (i + 1) / 2 = 2 ^ i := by rw [Nat.pow_succ, Nat.mul_div_cancel _ (by decide)]
      simp [checkAux, even, half, ih]

theorem checkOf_xor (a b : Nat) : checkOf (a ^^^ b) = checkOf a ^^^ checkOf b := checkAux_xor hSets a b
theorem checkOf_two_pow (i : Nat) : checkOf (2 ^ i) = hSets.getD i 0 := checkAux_two_pow hSets i

/-- The syndrome of a changed word under the check byte of the word before is the check of the change. -/
theorem checkOf_xor_syndrome (d e : Nat) : checkOf (d ^^^ e) ^^^ checkOf d = checkOf e := by
  rw [checkOf_xor, Nat.xor_comm (checkOf d), Nat.xor_assoc, Nat.xor_self, Nat.xor_zero]

/-! ### Syndromes of one bit (R125) -/

/-- `y` is the syndrome of one of the 72 bits: a check bit, or the set of a data bit. -/
def OneBit (y : Nat) : Prop := (∃ c, c < 8 ∧ y = 2 ^ c) ∨ ∃ i, i < 64 ∧ y = hSets.getD i 0

/-- The XOR of the eight bits of a syndrome: the check of a code in which every set is {0}. -/
def parity (y : Nat) : Nat := checkAux (List.replicate 8 1) y

theorem parity_xor (x y : Nat) : parity (x ^^^ y) = parity x ^^^ parity y := checkAux_xor _ x y

theorem parity_checkBit : ∀ c, c < 8 → parity (2 ^ c) = 1 := by decide
theorem parity_hSets : ∀ i, i < 64 → parity (hSets.getD i 0) = 1 := by decide +kernel

/-- Every bit has a set of 1, 3 or 5 elements. -/
theorem OneBit.parity_eq_one {y : Nat} (h : OneBit y) : parity y = 1 := by
  rcases h with ⟨c, hc, rfl⟩ | ⟨i, hi, rfl⟩
  · exact parity_checkBit c hc
  · exact parity_hSets i hi

theorem mem_checkBits (y : Nat) : y ∈ [1, 2, 4, 8, 16, 32, 64, 128] ↔ ∃ c, c < 8 ∧ y = 2 ^ c := by
  have list : [1, 2, 4, 8, 16, 32, 64, 128] = (List.range 8).map (2 ^ ·) := by decide
  simp only [list, List.mem_map, List.mem_range, eq_comm]

theorem hSets_notMem_checkBits : ∀ i, i < 64 → hSets.getD i 0 ∉ [1, 2, 4, 8, 16, 32, 64, 128] := by decide +kernel

/-- The sets of the data bits differ: each is found at its own place. -/
theorem findIdx_hSets : ∀ i, i < 64 → findIdx (· == hSets.getD i 0) hSets = some i := by decide +kernel

theorem hSets_injective {i j : Nat} (hi : i < 64) (hj : j < 64) (h : hSets.getD i 0 = hSets.getD j 0) : i = j := by
  have found := findIdx_hSets i hi
  rw [h, findIdx_hSets j hj] at found
  exact (Option.some.inj found).symm

theorem hSets_ne_checkBit {i c : Nat} (hi : i < 64) (hc : c < 8) : hSets.getD i 0 ≠ 2 ^ c :=
  fun h => hSets_notMem_checkBits i hi ((mem_checkBits _).2 ⟨c, hc, h⟩)

theorem oneBit_checkBit {c : Nat} (hc : c < 8) : OneBit (2 ^ c) := .inl ⟨c, hc, rfl⟩
theorem oneBit_hSets {i : Nat} (hi : i < 64) : OneBit (hSets.getD i 0) := .inr ⟨i, hi, rfl⟩

/-! ### What a syndrome says (R126) -/

theorem findIdx_eq_none {α : Type} {p : α → Bool} {as : List α} (h : ∀ a ∈ as, p a = false) : findIdx p as = none := by
  induction as with
  | nil => rfl
  | cons a as ih => simp [findIdx, h a List.mem_cons_self, ih fun b hb => h b (List.mem_cons_of_mem a hb)]

theorem eccOf_zero (d : Nat) : eccOf d 0 = .ok := rfl

theorem eccOf_checkBit (d : Nat) {c : Nat} (hc : c < 8) : eccOf d (2 ^ c) = .ce d := by
  rw [eccOf, if_neg (Nat.ne_of_gt (Nat.two_pow_pos c)), if_pos ((mem_checkBits _).2 ⟨c, hc, rfl⟩)]

theorem eccOf_hSets (d : Nat) {i : Nat} (hi : i < 64) : eccOf d (hSets.getD i 0) = .ce (d ^^^ 2 ^ i) := by
  have hne : hSets.getD i 0 ≠ 0 := fun h => absurd (parity_hSets i hi) (by rw [h]; decide)
  rw [eccOf, if_neg hne, if_neg (hSets_notMem_checkBits i hi), findIdx_hSets i hi]

/-- A syndrome that is not 0 and is that of no bit is uncorrectable. -/
theorem eccOf_not_oneBit (d : Nat) {y : Nat} (hne : y ≠ 0) (h : ¬ OneBit y) : eccOf d y = .ue := by
  have hcheck : y ∉ [1, 2, 4, 8, 16, 32, 64, 128] := fun hm => h (.inl ((mem_checkBits y).1 hm))
  have hnone : findIdx (· == y) hSets = none := by
    refine findIdx_eq_none fun x hx => beq_eq_false_iff_ne.2 ?_
    rintro rfl
    obtain ⟨i, hi, rfl⟩ := List.mem_iff_getElem.1 hx
    have hi' : i < 64 := hi
    exact h (.inr ⟨i, hi', by rw [List.getD_eq_getElem?_getD, List.getElem?_eq_getElem hi, Option.getD_some]⟩)
  rw [eccOf, if_neg hne, if_neg hcheck, hnone]

/-- Two different bits are uncorrectable: the parity of their syndrome is even, and that of one bit is odd. -/
theorem eccOf_twoBits (d : Nat) {x y : Nat} (hx : OneBit x) (hy : OneBit y) (hne : x ≠ y) : eccOf d (x ^^^ y) = .ue := by
  refine eccOf_not_oneBit d (fun h => hne (eq_of_xor_eq_zero h)) fun h => ?_
  have odd := h.parity_eq_one
  rw [parity_xor, hx.parity_eq_one, hy.parity_eq_one] at odd
  exact absurd odd (by decide)

/-! ### Flipped bits of a word and its check byte -/

theorem eccOf_flippedData (d : Nat) {i : Nat} (hi : i < 64) :
    eccOf (d ^^^ 2 ^ i) (checkOf (d ^^^ 2 ^ i) ^^^ checkOf d) = .ce d := by
  rw [checkOf_xor_syndrome, checkOf_two_pow, eccOf_hSets _ hi, Nat.xor_assoc, Nat.xor_self, Nat.xor_zero]

theorem eccOf_flippedCheck (d : Nat) {c : Nat} (hc : c < 8) : eccOf d (checkOf d ^^^ checkOf d ^^^ 2 ^ c) = .ce d := by
  rw [Nat.xor_self, Nat.zero_xor, eccOf_checkBit d hc]

theorem eccOf_flippedData_twice (d : Nat) {i j : Nat} (hi : i < 64) (hj : j < 64) (hne : i ≠ j) :
    eccOf (d ^^^ 2 ^ i ^^^ 2 ^ j) (checkOf (d ^^^ 2 ^ i ^^^ 2 ^ j) ^^^ checkOf d) = .ue := by
  have syndrome : checkOf (d ^^^ 2 ^ i ^^^ 2 ^ j) ^^^ checkOf d = hSets.getD i 0 ^^^ hSets.getD j 0 := by
    rw [Nat.xor_assoc d, checkOf_xor_syndrome, checkOf_xor, checkOf_two_pow, checkOf_two_pow]
  rw [syndrome]
  exact eccOf_twoBits _ (oneBit_hSets hi) (oneBit_hSets hj) fun h => hne (hSets_injective hi hj h)

theorem eccOf_flippedData_flippedCheck (d : Nat) {i c : Nat} (hi : i < 64) (hc : c < 8) :
    eccOf (d ^^^ 2 ^ i) (checkOf (d ^^^ 2 ^ i) ^^^ checkOf d ^^^ 2 ^ c) = .ue := by
  rw [checkOf_xor_syndrome, checkOf_two_pow]
  exact eccOf_twoBits _ (oneBit_hSets hi) (oneBit_checkBit hc) (hSets_ne_checkBit hi hc)

theorem eccOf_flippedCheck_twice (d : Nat) {c c' : Nat} (hc : c < 8) (hc' : c' < 8) (hne : c ≠ c') :
    eccOf d (2 ^ c ^^^ 2 ^ c') = .ue :=
  eccOf_twoBits d (oneBit_checkBit hc) (oneBit_checkBit hc') fun h => hne ((Nat.pow_right_inj (by decide)).1 h)

/-! ### Bytes stored in order -/

@[simp] theorem length_leBytes (n v : Nat) : (leBytes n v).length = n := by
  induction n generalizing v with
  | zero => rfl
  | succ n ih => simp [leBytes, ih]

theorem leNat_leBytes (n v : Nat) : leNat (leBytes n v) = v % 256 ^ n := by
  induction n generalizing v with
  | zero => simp [leBytes, leNat, Nat.mod_one]
  | succ n ih => rw [leBytes, leNat, ih, BitVec.toNat_ofNat, Nat.pow_succ' (m := 256), Nat.mod_mul]

theorem State.setBytes_frame (s : State) (a : Nat) (bs : List Byte) :
    s.setBytes a bs = { s with mem := (s.setBytes a bs).mem } := by
  induction bs generalizing s a with
  | nil => rfl
  | cons b bs ih => exact ih (s.setByte a b) (a + 1)

theorem State.rawByte_setByte (s : State) (a : Nat) (b : Byte) (x : Nat) :
    (s.setByte a b).rawByte x = if x = a then b else s.rawByte x := NMap.get_set 0 s.mem a b x

theorem State.rawByte_setBytes_outside (s : State) (a : Nat) (bs : List Byte) {x : Nat} (h : x < a ∨ a + bs.length ≤ x) :
    (s.setBytes a bs).rawByte x = s.rawByte x := by
  induction bs generalizing s a with
  | nil => rfl
  | cons b bs ih =>
    rw [List.length_cons] at h
    rw [State.setBytes, ih _ _ (by omega), State.rawByte_setByte, if_neg (by omega)]

/-- The bytes stored over a range are read back in their order. -/
theorem State.map_rawByte_setBytes (s : State) (a : Nat) (bs : List Byte) :
    (List.range bs.length).map (fun i => (s.setBytes a bs).rawByte (a + i)) = bs := by
  induction bs generalizing s a with
  | nil => rfl
  | cons b bs ih =>
    have head : (s.setBytes a (b :: bs)).rawByte (a + 0) = b := by
      rw [State.setBytes, State.rawByte_setBytes_outside _ _ _ (by omega), State.rawByte_setByte, if_pos (by omega)]
    have tail := ih (s.setByte a b) (a + 1)
    rw [List.length_cons, List.range_succ_eq_map, List.map_cons, List.map_map, head]
    refine congrArg (b :: ·) (Eq.trans (List.map_congr_left fun i _ => ?_) tail)
    show (s.setBytes a (b :: bs)).rawByte (a + (i + 1)) = _
    rw [State.setBytes, Nat.add_comm i 1, ← Nat.add_assoc]

theorem State.rawWord_setBytes_same (s : State) (w v : Nat) :
    (s.setBytes (8 * w) (leBytes 8 v)).rawWord w = v % 2 ^ 64 := by
  have stored := s.map_rawByte_setBytes (8 * w) (leBytes 8 v)
  rw [length_leBytes] at stored
  rw [State.rawWord, stored, leNat_leBytes, show (256 : Nat) ^ 8 = 2 ^ 64 by decide]

theorem State.rawWord_setBytes_ne (s : State) {w v : Nat} (x : Nat) (h : v ≠ w) :
    (s.setBytes (8 * w) (leBytes 8 x)).rawWord v = s.rawWord v := by
  refine congrArg leNat (List.map_congr_left fun i hi => State.rawByte_setBytes_outside _ _ _ ?_)
  have := List.mem_range.1 hi
  rw [length_leBytes]
  omega

/-- The stored word does not depend on the checks. -/
theorem State.rawWord_syn (s : State) (y : NMap Byte) (v : Nat) : State.rawWord { s with syn := y } v = s.rawWord v := rfl

/-! ### A correctable word is repaired (R127) -/

section
variable {s : State} {w d : Nat}

theorem State.settle_frame (s : State) (w : Nat) :
    s.settle w = { s with mem := (s.settle w).mem, syn := (s.settle w).syn } := by
  obtain ⟨m, y, h⟩ := s.settle_only w
  rw [h]

theorem State.settle_of_ce (h : eccOf (s.rawWord w) (s.synOf w) = .ce d) :
    s.settle w = { s.setBytes (8 * w) (leBytes 8 d) with syn := NMap.set 0 s.syn w 0 } := by
  have hsyn : s.synOf w ≠ 0 := fun h0 => by rw [h0, eccOf_zero] at h; cases h
  have hword : s.word w = d := by rw [State.word, h]
  rw [State.settle, if_neg hsyn, hword]

theorem State.rawWord_settle_same (h : eccOf (s.rawWord w) (s.synOf w) = .ce d) : (s.settle w).rawWord w = d % 2 ^ 64 := by
  rw [State.settle_of_ce h, State.rawWord_syn, State.rawWord_setBytes_same]

theorem State.rawWord_settle_ne (h : eccOf (s.rawWord w) (s.synOf w) = .ce d) {v : Nat} (hv : v ≠ w) :
    (s.settle w).rawWord v = s.rawWord v := by
  rw [State.settle_of_ce h, State.rawWord_syn, State.rawWord_setBytes_ne s d hv]

theorem State.synOf_settle (h : eccOf (s.rawWord w) (s.synOf w) = .ce d) (v : Nat) :
    (s.settle w).synOf v = if v = w then 0 else s.synOf v := by
  rw [State.settle_of_ce h]
  show (NMap.get 0 (NMap.set 0 s.syn w 0) v).toNat = _
  rw [NMap.get_set]
  split <;> rfl

theorem State.settle_count_frame (s : State) (w k : Nat) : (s.settle w).count k = { s with
    mem := ((s.settle w).count k).mem, syn := ((s.settle w).count k).syn, cnt := ((s.settle w).count k).cnt } := by
  rw [State.settle_frame]
  rfl

/-! ### Verifying and scrubbing a word, by what its syndrome says -/

theorem State.verifyWord_of_ce (h : eccOf (s.rawWord w) (s.synOf w) = .ce d) :
    s.verifyWord w = ((s.settle w).count (eccStore (8 * w)).2, false) := by
  rw [State.verifyWord, h]

theorem State.verifyWord_of_ue (h : eccOf (s.rawWord w) (s.synOf w) = .ue) :
    s.verifyWord w = ((s.count ((eccStore (8 * w)).2 + 4)).logUe (eccStore (8 * w)).1 (8 * w), true) := by
  rw [State.verifyWord, h]

theorem State.scrubWord_of_ce (patrol : Bool) (h : eccOf (s.rawWord w) (s.synOf w) = .ce d) :
    ∃ k, s.scrubWord patrol w = (s.settle w).count k := by
  rw [State.scrubWord, h]
  exact ⟨_, rfl⟩

/-- The first uncorrectable word is logged. -/
theorem State.logUe_first (h : s.memctl.ueValid = false) (store a : Nat) :
    s.logUe store a = { s with memctl := { s.memctl with ueValid := true, ueStore := store, ueAddr := a } } := by
  rw [State.logUe, if_neg (by rw [h]; decide)]

theorem State.logUe_frame (s : State) (store a : Nat) :
    s.logUe store a = { s with memctl := (s.logUe store a).memctl } := by
  unfold State.logUe
  split <;> rfl

/-- A Mill made suspect, unless it is so already, as the scrub leaves it (R318). -/
def State.markSuspect (s : State) (m : Nat) : State :=
  if (s.mill m).suspect then s else s.setMill m { s.mill m with suspect := true }

theorem State.suspect_markSuspect (s : State) (m : Nat) : ((s.markSuspect m).mill m).suspect = true := by
  unfold State.markSuspect
  split
  · assumption
  · show (NMap.get MillRec.init (NMap.set MillRec.init s.mills m _) m).suspect = true
    rw [NMap.get_set_self]

theorem State.markSuspect_frame (s : State) (m : Nat) :
    s.markSuspect m = { s with mills := (s.markSuspect m).mills, nv := (s.markSuspect m).nv } := by
  unfold State.markSuspect
  split <;> rfl

/-- An uncorrectable word of a Hopper counts, is logged and makes its Mill suspect. -/
theorem State.scrubWord_of_ue (patrol : Bool) {m : Nat} (h : eccOf (s.rawWord w) (s.synOf w) = .ue)
    (hm : hopperMill (8 * w) = some m) :
    ∃ k, s.scrubWord patrol w = ((s.count k).logUe (eccStore (8 * w)).1 (8 * w)).markSuspect m := by
  simp only [State.scrubWord, h, hm]
  exact ⟨_, rfl⟩

end

/-- Settles O47: a flipped bit has an odd syndrome of its own and two have an even one; a word follows what its syndrome says. -/
theorem wordsVerified : Obligations.WordsVerified := by
  refine ⟨fun d _ i hi => eccOf_flippedData d hi, fun d _ c hc => eccOf_flippedCheck d hc,
    fun d _ i j hi hj hne => eccOf_flippedData_twice d hi hj hne,
    fun d _ i c hi hc => eccOf_flippedData_flippedCheck d hi hc,
    fun d _ c c' hc hc' hne => eccOf_flippedCheck_twice d hc hc' hne,
    eccOf_zero, fun d c hc => eccOf_checkBit d hc, fun d i hi => eccOf_hSets d hi, ?_, ?_, ?_, ?_, ?_⟩
  · intro d y hne hcheck hdata
    refine eccOf_not_oneBit d hne ?_
    rintro (⟨c, hc, rfl⟩ | ⟨i, hi, rfl⟩)
    · exact hcheck c hc rfl
    · exact hdata i hi rfl
  · intro s w d h
    refine ⟨_, State.verifyWord_of_ce h, State.settle_count_frame s w _, State.rawWord_settle_same h,
      (State.synOf_settle h w).trans (if_pos rfl),
      fun v hv => ⟨State.rawWord_settle_ne h hv, (State.synOf_settle h v).trans (if_neg hv)⟩, ?_⟩
    rw [State.source_count, if_pos rfl, State.settle_frame]
    rfl
  · intro s w h hfirst
    refine ⟨_, State.verifyWord_of_ue h, ?_, ?_⟩
    · rw [State.logUe_first (s := s.count _) hfirst]
      rfl
    · rw [State.logUe_frame]
      exact (State.source_count s _ _).trans (if_pos rfl)
  · intro s w d patrol h
    obtain ⟨k, hk⟩ := State.scrubWord_of_ce patrol h
    exact ⟨_, hk, State.settle_count_frame s w k, State.rawWord_settle_same h, (State.synOf_settle h w).trans (if_pos rfl)⟩
  · intro s w m patrol h hm
    obtain ⟨k, hk⟩ := State.scrubWord_of_ue patrol h hm
    rw [hk]
    refine ⟨State.suspect_markSuspect _ m, ?_, ?_⟩
    · rw [State.markSuspect_frame, State.logUe_frame]
      rfl
    · rw [State.markSuspect_frame, State.logUe_frame]
      rfl

end Sys2Proof.Machine

/-! PROOF. The health monitor: its scores, the risk they give, and what a trigger does (R302-R304). -/
namespace Sys2Proof.Machine

/-! ### A snapshot trigger (R304) -/

/-- A trigger holds a snapshot, under a new operation unless one is held already; nothing else changes. -/
theorem State.snapTrigger_frame (s : State) : s.snapTrigger.1 = { s with
    snap := { s.snap with held := true, heldHandle := s.snapTrigger.1.snap.heldHandle }
    ops := s.snapTrigger.1.ops, opSerial := s.snapTrigger.1.opSerial } := by
  cases hheld : s.snap.held with
  | true => simp [State.snapTrigger, ← hheld]
  | false => simp [State.snapTrigger, State.newOp, hheld]

/-- Triggers merge while one is held. -/
theorem State.snapTrigger_of_held {s : State} (h : s.snap.held = true) : s.snapTrigger.1 = s := by
  rw [State.snapTrigger, if_pos h]

/-! ### A trigger of the monitor (R266, R304) -/

/-- The monitor's own part of a trigger: it counts it and disarms. -/
def State.disarmed (s : State) : State :=
  State.count { s with health := { s.health with armed := false, lastTrigger := some s.time.ns } } (cSnap 0)

/-- The Wheel is asked for a digest comparison, in the step in progress or in the next. -/
def State.suspecting (s : State) : State := { s with
  wheel.suspected := s.wheel.suspected || s.run.inStep
  wheel.suspectNext := s.wheel.suspectNext || !s.run.inStep }

section
variable {s : State}

theorem State.raiseTrigger_of_job (hctx : s.ctx.active = true) (hjob : s.jobRuns = true) :
    s.raiseTrigger = s.disarmed.suspecting.snapTrigger.1 :=
  if_pos ⟨hctx, hjob⟩

theorem State.raiseTrigger_of_no_job (h : s.ctx.active = false ∨ s.jobRuns = false) : s.raiseTrigger = s.disarmed := by
  refine if_neg fun ⟨hctx, hjob⟩ => ?_
  rcases h with h | h
  · exact Bool.false_ne_true (h.symm.trans hctx)
  · exact Bool.false_ne_true (h.symm.trans hjob)

theorem State.raiseTrigger_frame (s : State) : s.raiseTrigger = { s.disarmed with
    snap := s.raiseTrigger.snap, ops := s.raiseTrigger.ops, opSerial := s.raiseTrigger.opSerial
    wheel := s.raiseTrigger.wheel } := by
  cases hctx : s.ctx.active with
  | false => rw [State.raiseTrigger_of_no_job (.inl hctx)]
  | true =>
    cases hjob : s.jobRuns with
    | false => rw [State.raiseTrigger_of_no_job (.inr hjob)]
    | true =>
      rw [State.raiseTrigger_of_job hctx hjob, State.snapTrigger_frame]
      rfl

/-! ### What an evaluation's risk does (R303, R304) -/

theorem State.judgeRisk_of_threshold {r : Nat} (harmed : s.health.armed = true)
    (hrisk : bitsOf s.health.cfg.toNat 7 0 ≤ r) : s.judgeRisk r = s.raiseTrigger :=
  if_pos (by rw [harmed, decide_eq_true hrisk]; rfl)

/-- Without a trigger the monitor can only rearm. -/
theorem State.judgeRisk_of_no_trigger {r : Nat} (h : s.health.armed = false ∨ r < bitsOf s.health.cfg.toNat 7 0) :
    ∃ armed, s.judgeRisk r = { s with health := { s.health with armed := armed } } := by
  have hquiet : (s.health.armed && decide (bitsOf s.health.cfg.toNat 7 0 ≤ r)) = false := by
    rcases h with h | h
    · rw [h, Bool.false_and]
    · rw [decide_eq_false (Nat.not_le.2 h), Bool.and_false]
  rw [State.judgeRisk, hquiet, if_neg Bool.false_ne_true]
  split
  · exact ⟨true, rfl⟩
  · exact ⟨s.health.armed, rfl⟩

/-- Of the monitor a judgement changes the arming and the time of the last trigger, and outside it what a trigger changes. -/
theorem State.judgeRisk_frame (s : State) (r : Nat) : s.judgeRisk r = { s with
    health := { s.health with armed := (s.judgeRisk r).health.armed, lastTrigger := (s.judgeRisk r).health.lastTrigger }
    snap := (s.judgeRisk r).snap, ops := (s.judgeRisk r).ops, opSerial := (s.judgeRisk r).opSerial
    cnt := (s.judgeRisk r).cnt, wheel := (s.judgeRisk r).wheel } := by
  cases harmed : s.health.armed with
  | false =>
    obtain ⟨armed, heq⟩ := State.judgeRisk_of_no_trigger (r := r) (.inl harmed)
    rw [heq]
  | true =>
    rcases Nat.lt_or_ge r (bitsOf s.health.cfg.toNat 7 0) with hlow | hhigh
    · obtain ⟨armed, heq⟩ := State.judgeRisk_of_no_trigger (s := s) (.inr hlow)
      rw [heq]
    · rw [State.judgeRisk_of_threshold harmed hhigh, State.raiseTrigger_frame]
      rfl

/-! ### An evaluation (R302) -/

/-- What an evaluation has recorded before its risk is judged. -/
def State.recorded (s : State) : State := { s with health := { s.health with
  risk := risk s.health.weights s.scores, scores := s.scores
  samples := keepSamples s.time.ns (⟨s.time.ns, s.ceTotal, s.retrainTotal, s.source (cPower 0)⟩ :: s.health.samples)
  lastNeighbour := if s.wheel.stalled then some s.time.ns else s.health.lastNeighbour } }

theorem State.healthEvaluation_of_due (hup : s.up = true) (hrun : s.time.running = true) (hns : s.time.ns % 10000000 = 0) :
    s.healthEvaluation = s.recorded.judgeRisk (risk s.health.weights s.scores) :=
  if_pos (by rw [hup, hrun, decide_eq_true hns]; rfl)

end

/-! ### Scores and risk (R302, R303) -/

theorem State.scores_le (s : State) {x : Nat} (h : x ∈ s.scores) : x ≤ 255 := by
  simp only [State.scores, List.mem_cons, List.not_mem_nil, or_false] at h
  rcases h with rfl | rfl | rfl | rfl | rfl
  iterate 4 exact Nat.min_le_left _ _
  -- NEIGHBOUR, with and without a neighbour lost before
  split <;> split <;> decide

theorem risk_eq (w : BitVec 20) (ce retrain droop temp neighbour : Nat) : risk w [ce, retrain, droop, temp, neighbour] =
    min 255 ((bitsOf w.toNat 3 0 * ce + bitsOf w.toNat 7 4 * retrain + bitsOf w.toNat 11 8 * droop +
      bitsOf w.toNat 15 12 * temp + bitsOf w.toNat 19 16 * neighbour) / 16) := by
  simp [risk, bitsOf, List.range_succ]

/-- Settles O19: a due evaluation records scores and risk and then judges the risk, by whether the monitor triggers and whether
a job runs. -/
theorem healthMonitor : Obligations.HealthMonitor := by
  refine ⟨fun s hup hrun hns => ?_, risk_eq, fun s x => s.scores_le⟩
  obtain ⟨t, ht⟩ : ∃ t, t = s.recorded.judgeRisk (risk s.health.weights s.scores) := ⟨_, rfl⟩
  have hframe := State.judgeRisk_frame s.recorded (risk s.health.weights s.scores)
  rw [← ht] at hframe
  have hhealth := congrArg State.health hframe
  have hrisk : t.health.risk = risk s.health.weights s.scores := by rw [hhealth]; rfl
  refine ⟨t, congrArg done ((State.healthEvaluation_of_due hup hrun hns).trans ht.symm), ?_, by rw [hhealth]; rfl, hrisk,
    by rw [hhealth]; rfl, by rw [hhealth]; rfl, fun harmed hth => ?_, fun hquiet => ?_⟩
  · rw [hhealth]
    exact hframe
  · rw [State.judgeRisk_of_threshold (s := s.recorded) harmed (hrisk ▸ hth)] at ht
    have htrigger := State.raiseTrigger_frame s.recorded
    rw [← ht] at htrigger
    refine ⟨by rw [htrigger]; rfl, by rw [htrigger]; rfl, ?_, fun hctx hjob => ?_, fun hnone => ?_⟩
    · rw [htrigger]
      exact (State.source_count _ _ _).trans (if_pos rfl)
    · rw [State.raiseTrigger_of_job (s := s.recorded) hctx hjob] at ht
      have hsnap := State.snapTrigger_frame s.recorded.disarmed.suspecting
      rw [← ht] at hsnap
      refine ⟨congrArg State.snap hsnap, fun hheld => ?_, congrArg State.wheel hsnap⟩
      rw [ht, State.snapTrigger_of_held (s := s.recorded.disarmed.suspecting) hheld]
      exact ⟨rfl, rfl⟩
    · rw [ht, State.raiseTrigger_of_no_job (s := s.recorded) hnone]
      exact ⟨rfl, rfl, rfl⟩
  · obtain ⟨armed, heq⟩ := State.judgeRisk_of_no_trigger (s := s.recorded) (hrisk ▸ hquiet)
    rw [ht, heq]
    exact ⟨rfl, rfl, rfl, rfl, rfl⟩

end Sys2Proof.Machine
